-- ==== Sys2Proof/Word.lean ====
section
/-! DEFINITION. Word.lean: the words of the machine and the type of its sparse tables. -/

namespace Sys2Proof

/-- A byte of memory. -/
abbrev Byte := BitVec 8

/-- A 32-bit register or counter (R87, R109). -/
abbrev Word := BitVec 32

/-- A 64-bit register of a BAR0 block, or a 64-bit value (R109, R580). -/
abbrev DWord := BitVec 64

/-- The 64 data bytes of a line, byte `i` in bits `8*i .. 8*i+7` (R521 speaks of the line's 64 data bytes). -/
abbrev LineData := BitVec 512

/-- A sparse table by key: the keys rise strictly and no entry holds the value that an unlisted key reads as.
With `Byte` it is a memory of `Host.Cell`s. -/
abbrev Tbl (α : Type) := List (Nat × α)

end Sys2Proof
end

