-- ==== Sys2Proof/Syntax.lean ====
section
/-! DEFINITION. Syntax.lean: the commands of the block, one constructor per row of spec/opcode_table.json, and the
types of their operands.

A command is one indivisible step of the part (spec/95_what_each_step_holds.md).  A core instruction's operands are
the group that issues it (`g`, see `Machine.coreOf`) and the fields of its 64-bit word (Tables 05.2 to 05.6); an
event's operands say where it happens and what the physical world supplies to it (a temperature, a failed check, a
host's answer).  Numbering: cluster `c` is 0-63, core `16*c + logical`, group `48*core + slot`, block `16*core + slot`,
half `2*die + (0 west, 1 east)`, RLC by its half, line = physical address / 64. -/

namespace Sys2Proof

/-- TYPE of formats A and B (Table 05.2). -/
inductive Ty where
  | s32 | u32 | f32 | f16x2 | bf16x2 | s16x2 | u16x2 | s8x4 | u8x4 | b32 | s64 | u64
  deriving DecidableEq, Repr

/-- RND of format A (Table 05.2). -/
inductive Rnd where
  | nearest | zero | down | up | stochastic
  deriving DecidableEq, Repr

/-- The six compares (Table 05.7). -/
inductive CmpOp where
  | eq | ne | lt | le | gt | ge
  deriving DecidableEq, Repr

/-- The B-format forms of the A opcodes at OPC 0x00-0x09 and 0x10-0x1A (Table 05.7, R589). -/
inductive BOp where
  | add | sub | mul | mulhi | min | max | abs | neg | fma | dot4
  | and | or | xor | not | shl | shr | sar | popc | clz | brev | sel
  deriving DecidableEq, Repr

/-- The atomic operations, in M-format OPC order from 0x10 (Table 05.7, R420's AOP). -/
inductive AtomOp where
  | add | mins | minu | maxs | maxu | and | or | xor | xchg | cas | fadd
  deriving DecidableEq, Repr

/-- SPACE of format M (Table 05.3). -/
inductive Space where
  | global | localMem | streaming | receive
  deriving DecidableEq, Repr

/-- ORD of format M (Table 05.3). -/
inductive MemOrd where
  | plain | acquire | release | acqRel
  deriving DecidableEq, Repr

/-- SCOPE of format S (Table 05.6). -/
inductive Scope where
  | core | device | system
  deriving DecidableEq, Repr

/-- AFMT and BFMT codes 0-12 (Table 05.4, Table 06.2). -/
inductive TFmt where
  | mxfp4 | mxfp6e2m3 | mxfp6e3m2 | mxfp8e4m3 | mxfp8e5m2 | mxint8 | int4 | int8 | fp8e4m3 | fp8e5m2 | bf16 | fp16 | fp32
  deriving DecidableEq, Repr

/-- CK of format C (Table 05.5). -/
inductive CKind where
  | always | ureg | any | all | none
  deriving DecidableEq, Repr

/-- CMP of format C: the signed test of `u[CU]` (Table 05.5). -/
inductive CTest where
  | eqz | nez | ltz | gez | gtz | lez
  deriving DecidableEq, Repr

/-- The fields of a format A word (Table 05.2) beside FMT and OPC. -/
structure FmtA where
  pi : BitVec 3
  pn : Bool
  vd : BitVec 8
  vs1 : BitVec 8
  vs2 : BitVec 8
  vs3 : BitVec 8
  dk : Bool
  sk : Bool
  pd : BitVec 3
  ty : Ty
  rnd : Rnd
  deriving DecidableEq, Repr

/-- The fields of a format B word (Table 05.2). -/
structure FmtB where
  pi : BitVec 3
  pn : Bool
  vd : BitVec 8
  vs1 : BitVec 8
  uk : Bool
  imm : BitVec 32
  deriving DecidableEq, Repr

/-- The fields of a format M word (Table 05.3).  `size` is the SIZE code: the access has `2^size` bytes. -/
structure FmtM where
  pi : BitVec 3
  pn : Bool
  vds : BitVec 8
  ub : BitVec 6
  vo : BitVec 8
  novo : Bool
  size : BitVec 3
  space : Space
  ord : MemOrd
  eve : Bool
  ec : BitVec 5
  lc : Bool
  disp : BitVec 13
  deriving DecidableEq, Repr

/-- The fields of a format T word (Table 05.4). -/
structure FmtT where
  pi : BitVec 3
  pn : Bool
  acc : BitVec 3
  abase : BitVec 12
  bbase : BitVec 12
  afmt : TFmt
  bfmt : TFmt
  shape : BitVec 3
  accz : Bool
  opt : BitVec 3
  deriving DecidableEq, Repr

/-- The fields of a format C word (Table 05.5). -/
structure FmtC where
  pi : BitVec 3
  pn : Bool
  ck : CKind
  cp : BitVec 3
  cu : BitVec 6
  cmp : CTest
  tgt : BitVec 32
  deriving DecidableEq, Repr

/-- The fields of a format S word (Table 05.6). -/
structure FmtS where
  pi : BitVec 3
  pn : Bool
  ua : BitVec 6
  ub : BitVec 6
  vx : BitVec 8
  ec : BitVec 5
  pd : BitVec 3
  eve : Bool
  cons : Bool
  dle : Bool
  lc : Bool
  scope : Scope
  imm : BitVec 16
  deriving DecidableEq, Repr

/-- A PCIe function: the physical function of an upstream link (0 port 0, 1 link 1, 2 link 1a, 3 link 1b, as the LINK
parameter of PART.CREATE), or VF `part` of that link (R295, R296). -/
inductive Fn where
  | pf (link : Nat)
  | vf (link part : Nat)
  deriving DecidableEq, Repr

/-- Which part of a 64-bit register a read covers (R299, R582). -/
inductive RegHalf where
  | whole | low | high
  deriving DecidableEq, Repr

/-- What a mailbox queue error strikes (R347). -/
inductive QueuePart where
  | header | params | doorbell | outbound
  deriving DecidableEq, Repr

/-- MetaValue of a host CXL.mem read (R253). -/
inductive MetaValue where
  | invalid | shared | any
  deriving DecidableEq, Repr

/-- The kind of a host snoop of a host line through CXL.cache (R254). -/
inductive HostSnoop where
  | inv | data | cur
  deriving DecidableEq, Repr

/-- The state the host grants to a slice for a host line (R254). -/
inductive HostGrant where
  | invalid | shared | exclusive | modified
  deriving DecidableEq, Repr

/-- Causes of a core fence (Table 20.4), the issue hang apart (it is a command of its own). -/
inductive FenceCause where
  | regFile | accTile | localMemory | control | icache
  deriving DecidableEq, Repr

/-- What a tensor instruction finds at the local words or accumulator elements that it reads: an uncorrectable error, or none (R162). -/
inductive TileError where
  | none | localWord | accElem
  deriving DecidableEq, Repr

/-- The start of a tensor instruction on a core, and what it meets at what it reads (R141, R162). -/
structure TensorStart where
  core : Nat
  err : TileError
  deriving DecidableEq, Repr

/-- The way of a latency-critical packet: the halves it crossed but the last, and whether some link of it carries latency-critical traffic
above half its rate (R57). -/
structure LcPath where
  halves : List Nat
  loaded : Bool
  deriving DecidableEq, Repr

/-- What happens on a Moon core: an exception, whose frame's place can be written or not, or the return from a handler (R335, R336). -/
inductive MoonTrap where
  | entry (writable : Bool) | ret
  deriving DecidableEq, Repr

/-- What Crescent finds at its start: which of the 24 controllers are approved, and whether its signing engine passes (R473, R556). -/
structure CrescentBoot where
  controllers : List Bool
  engineOk : Bool
  deriving DecidableEq, Repr

/-- The board at the rise of PWRGD_MAIN: the rails that are out of tolerance, and the level of the strap BIFURC_X1 (R30, R37). -/
structure BoardState where
  bad : BitVec 25
  bifurc : Bool
  deriving DecidableEq, Repr

/-- The fatal causes of detail byte 44 of a record of code 0x0040 (Table 20.6). -/
inductive FatalCause where
  | dieBridge | fabric | tide | droop | restart | flrTimeout | array | thermal | other
  deriving DecidableEq, Repr

/-- What the boot ROM's probe of Crescent's read-out port finds (R557). -/
inductive CrescentProbe where
  | ready | starting | silent
  deriving DecidableEq, Repr

/-- What engages the fast OP limit (R454). -/
inductive FastSrc where
  | throt | excursion | restart
  deriving DecidableEq, Repr

/-- What a memory check or patrol finds (R529). -/
inductive HbmError where
  | good | correctable | uncorrectable
  deriving DecidableEq, Repr

/-- The array a patrol visits (R535). -/
inductive ArrayRef where
  | slice (line : Nat)
  | rlc (rlc line : Nat)
  | directory (line : Nat)
  | l1 (core line : Nat)
  | icache (core line : Nat)
  | localMemory (core offset : Nat)
  | keyTable (controller part : Nat)
  deriving DecidableEq, Repr

/-- The path a failing checker sits on (R554). -/
inductive CheckPath where
  | bridge | array
  deriving DecidableEq, Repr

/-- What the Tail checks find in the lines that an operation of a copy engine, an Ordering Unit or a step builder reads: no mismatch, one that
the second response puts right, or one in both responses (R526). DESIGN CHOICE: log 142. -/
inductive ReadCheck where
  | good | retried | bad
  deriving DecidableEq, Repr

/-- A turn of a cluster's Ordering Unit. -/
structure OrdTurn where
  cluster : Nat
  check : ReadCheck
  deriving DecidableEq, Repr

/-- A turn of a half's copy engine; with `bad`, the mismatch is in the piece after the next `before` ones. -/
structure CopyTurn where
  engine : Nat
  check : ReadCheck
  before : Nat
  deriving DecidableEq, Repr

/-- A turn of a partition's step builder. -/
structure StepTurn where
  part : Nat
  check : ReadCheck
  deriving DecidableEq, Repr

/-- A register of a thread group that INVASIVE opens to the test access port (R507). -/
inductive DbgReg where
  | v (reg lane : Nat)
  | u (reg : Nat)
  | p (reg : Nat)
  | pc
  deriving DecidableEq, Repr

/-- Instructions at the test access port (R24, R507). -/
inductive TapOp where
  | mandatory (ir : Nat)
  | observe (offset : Nat)
  | counter (core ctr : Nat)
  | trace (buffer : Nat)
  | halt (core : Nat)
  | release (core : Nat)
  | readReg (g : Nat) (r : DbgReg)
  | writeReg (g : Nat) (r : DbgReg) (w : Word)
  | scan (chain : Nat)
  deriving DecidableEq, Repr

/-- Link power states of Table 12.1 (R292). -/
inductive LinkPower where
  | l0 | l0p | l1
  deriving DecidableEq, Repr

/-- Modes of CXL IDE (R310). -/
inductive CxlIdeMode where
  | off | skid | containment
  deriving DecidableEq, Repr

/-- Configuration-space requests that act on state the spec gives a function (R305, R307, R315, R357). -/
inductive CfgReq where
  | memorySpace (on : Bool)
  | msixEnable (on : Bool)
  | msixFunctionMask (on : Bool)
  | powerState (d3hot : Bool)
  | readVfs
  /-- The base address register of BAR0 or, with `two`, BAR2; `vf`: of the VF BARs of a physical function's SR-IOV capability (R297, R305). -/
  | bar (vf two : Bool) (addr : BitVec 64)
  | readBar (vf two : Bool)
  /-- Max payload and max read request in force, in bytes (R292). -/
  | devControl (payload readRequest : Nat)
  | readDevControl
  /-- The link: what it trained to, its mode, tags and power state (R292). -/
  | readLink
  | linkPower (st : LinkPower)
  /-- The ATS capability (R306). -/
  | atsEnable (on : Bool)
  | readAts
  /-- The AER capability: severity and status by condition (R308). -/
  | aerSeverity (v : BitVec 4)
  | clearAer (v : BitVec 4)
  | readAer
  /-- The Readiness Time Reporting capability (R312). -/
  | readReadiness
  /-- The IDE capability: the selective stream that carries the host's requests to the function, and the mode of CXL IDE (R310, R311). -/
  | ideAssociate (stream : Option Nat)
  | cxlIde (mode : CxlIdeMode)
  /-- The CXL DVSEC range size, an HDM decoder's state and the CXL RAS capability (R302, R308). -/
  | readCxlRange
  | readHdm (second : Bool)
  | readCxlRas
  | clearCxlRas
  deriving DecidableEq, Repr

/-- A payload line of a YLP frame with the state of its Tail (R420, R435). -/
inductive TailState where
  | good | poison | mismatch
  deriving DecidableEq, Repr

/-- A YLP frame (Table 16.1). -/
structure Frame where
  op : BitVec 4
  vc : BitVec 2
  lc : Bool
  seq : BitVec 12
  hops : BitVec 6
  dst : BitVec 17
  mc : Bool
  dstPart : BitVec 7
  src : BitVec 17
  srcPart : BitVec 7
  domain : BitVec 20
  tag : BitVec 16
  aop : BitVec 4
  size : BitVec 3
  status : BitVec 8
  addr : BitVec 52
  first : BitVec 6
  last : BitVec 6
  lines : List (LineData × TailState)
  crcOk : Bool
  gcmOk : Bool
  /-- R422, R498: the key epoch and the transmit counter of the nonce under which the frame is encrypted. -/
  epoch : Nat := 0
  count : Nat := 0
  deriving DecidableEq, Repr

/-- A TIME frame's IEEE 1588 message (R441): an Announce with the grandmaster and its hops, or a measured exchange
with the link's peer giving the signed offset to it in ns. -/
inductive TimeMsg where
  | announce (src gm hops : Nat)
  | measure (src : Nat) (offset : Int)
  deriving DecidableEq, Repr

/-- What the sensors supply to a control period (R451, R462): for each half, its leakage in mW at its present OP and its
hottest junction in degrees C. -/
structure PowerSense where
  leak : List Nat
  tj : List Nat
  deriving DecidableEq, Repr

/-- The commands, one per row of spec/opcode_table.json. -/
inductive Instr where
  /-- ADD (R586): A-format ADD: element-by-element add of VS1 and VS2 in the accepted TYPE, rounding floating-point results by RND. -/
  | add (g : Nat) (f : FmtA)
  /-- SUB (R586): A-format SUB: element-by-element subtraction; integer results wrap. -/
  | sub (g : Nat) (f : FmtA)
  /-- MUL (R586): A-format MUL: element-by-element product, keeping the low half of an integer product. -/
  | mul (g : Nat) (f : FmtA)
  /-- MULHI (R586): A-format MULHI: high half of each element's integer product, signed or unsigned by TYPE. -/
  | mulhi (g : Nat) (f : FmtA)
  /-- MIN (R587): A-format MIN: element-by-element minimum; floating point follows minimumNumber. -/
  | min (g : Nat) (f : FmtA)
  /-- MAX (R587): A-format MAX: element-by-element maximum; floating point follows maximumNumber. -/
  | max (g : Nat) (f : FmtA)
  /-- ABS (R586): A-format ABS: clears the sign of each element; the most negative integer maps to itself. -/
  | abs (g : Nat) (f : FmtA)
  /-- NEG (R586): A-format NEG: negates each element, inverting the sign bit of floating-point elements. -/
  | neg (g : Nat) (f : FmtA)
  /-- FMA (R586): A-format FMA: VS1 x VS2 + VS3 per element with one rounding by RND. -/
  | fma (g : Nat) (f : FmtA)
  /-- DOT4 (R586): A-format DOT4: sum of four 8-bit element products added to the s32 addend in VS3. -/
  | dot4 (g : Nat) (f : FmtA)
  /-- AND (R586): A-format AND: bitwise AND of the operands. -/
  | and (g : Nat) (f : FmtA)
  /-- OR (R586): A-format OR: bitwise OR of the operands. -/
  | or (g : Nat) (f : FmtA)
  /-- XOR (R586): A-format XOR: bitwise XOR of the operands. -/
  | xor (g : Nat) (f : FmtA)
  /-- NOT (R586): A-format NOT: bitwise complement. -/
  | not (g : Nat) (f : FmtA)
  /-- SHL (R587): A-format SHL: left shift by an unsigned count; counts at or above the width give 0. -/
  | shl (g : Nat) (f : FmtA)
  /-- SHR (R587): A-format SHR: logical right shift filling with zeros. -/
  | shr (g : Nat) (f : FmtA)
  /-- SAR (R587): A-format SAR: arithmetic right shift filling with the source's top bit. -/
  | sar (g : Nat) (f : FmtA)
  /-- POPC (R586): A-format POPC: count of set bits in 32 bits. -/
  | popc (g : Nat) (f : FmtA)
  /-- CLZ (R586): A-format CLZ: count of leading zeros in 32 bits. -/
  | clz (g : Nat) (f : FmtA)
  /-- BREV (R586): A-format BREV: reverses the 32 bits. -/
  | brev (g : Nat) (f : FmtA)
  /-- SEL (R589): A-format SEL: writes VS1 where predicate PD is true and VS3 where it is false. -/
  | sel (g : Nat) (f : FmtA)
  /-- CMP_EQ (R586): A-format CMP.EQ: writes one predicate bit per lane for equality, with -0 equal to +0. -/
  | cmpEq (g : Nat) (f : FmtA)
  /-- CMP_NE (R586): A-format CMP.NE: predicate for inequality, true when either floating operand is NaN. -/
  | cmpNe (g : Nat) (f : FmtA)
  /-- CMP_LT (R586): A-format CMP.LT: ordered less-than predicate. -/
  | cmpLt (g : Nat) (f : FmtA)
  /-- CMP_LE (R586): A-format CMP.LE: ordered less-or-equal predicate. -/
  | cmpLe (g : Nat) (f : FmtA)
  /-- CMP_GT (R586): A-format CMP.GT: ordered greater-than predicate. -/
  | cmpGt (g : Nat) (f : FmtA)
  /-- CMP_GE (R586): A-format CMP.GE: ordered greater-or-equal predicate. -/
  | cmpGe (g : Nat) (f : FmtA)
  /-- MOV (R586): A-format MOV: copies 32 or 64 bits unchanged. -/
  | mov (g : Nat) (f : FmtA)
  /-- CVT (R587): A-format CVT: converts between the permitted type pairs with rounding, saturation or wrap. -/
  | cvt (g : Nat) (f : FmtA)
  /-- PMOV (R589): A-format PMOV: writes 1 or 0 per lane from a predicate. -/
  | pmov (g : Nat) (f : FmtA)
  /-- RCP (R588): Special-function reciprocal of f32 within 1 ulp. -/
  | rcp (g : Nat) (f : FmtA)
  /-- RSQ (R588): Special-function reciprocal square root of f32. -/
  | rsq (g : Nat) (f : FmtA)
  /-- SQRT (R588): Special-function correctly rounded f32 square root. -/
  | sqrt (g : Nat) (f : FmtA)
  /-- EXP2 (R588): Special-function base-2 exponential of f32. -/
  | exp2 (g : Nat) (f : FmtA)
  /-- LOG2 (R588): Special-function base-2 logarithm of f32. -/
  | log2 (g : Nat) (f : FmtA)
  /-- TANH (R588): Special-function hyperbolic tangent of f32. -/
  | tanh (g : Nat) (f : FmtA)
  /-- SHFL (R589): Each guarded lane reads VS1 from lane VS2 mod 32 as it stood before the instruction. -/
  | shfl (g : Nat) (f : FmtA)
  /-- BALLOT (R586): Packs a predicate across 32 lanes into a u-register. -/
  | ballot (g : Nat) (f : FmtA)
  /-- REDADD (R587): Sums all 32 lanes into a u-register, f32 rounded once. -/
  | redadd (g : Nat) (f : FmtA)
  /-- REDMAX (R587): maximumNumber of all 32 lanes into a u-register. -/
  | redmax (g : Nat) (f : FmtA)
  /-- IMMEDIATE_ALU_FORM (R589): Format B immediate forms of the A arithmetic and logic opcodes, operating as s32 with IMM32 as second source. -/
  | immediateAluForm (g : Nat) (op : BOp) (f : FmtB)
  /-- CMP_F_IMMEDIATE (R589): Format B CMP.xx.F: compares against an f32 immediate without rounding. -/
  | cmpFImmediate (g : Nat) (c : CmpOp) (f : FmtB)
  /-- CMP_INT_IMMEDIATE (R589): Format B integer CMP.xx: signed compare against an s32 immediate. -/
  | cmpIntImmediate (g : Nat) (c : CmpOp) (f : FmtB)
  /-- MOVI (R117): Format B MOVI: moves an immediate into the destination. -/
  | movi (g : Nat) (f : FmtB)
  /-- LD (R120): Load from global, local or receive-area memory, served from L1 or through the home slice, with acquire effects when ORD says. -/
  | ld (g : Nat) (f : FmtM)
  /-- ST (R120): Store written through the L1 to the coherence point, with release ordering when ORD says. -/
  | st (g : Nat) (f : FmtM)
  /-- AT_ADD (R124): Atomic add performed at the home slice returning the old value. -/
  | atAdd (g : Nat) (f : FmtM)
  /-- AT_MINS (R124): Atomic signed minimum returning the old value. -/
  | atMins (g : Nat) (f : FmtM)
  /-- AT_MINU (R124): Atomic unsigned minimum returning the old value. -/
  | atMinu (g : Nat) (f : FmtM)
  /-- AT_MAXS (R124): Atomic signed maximum returning the old value. -/
  | atMaxs (g : Nat) (f : FmtM)
  /-- AT_MAXU (R124): Atomic unsigned maximum returning the old value. -/
  | atMaxu (g : Nat) (f : FmtM)
  /-- AT_AND (R124): Atomic AND returning the old value. -/
  | atAnd (g : Nat) (f : FmtM)
  /-- AT_OR (R124): Atomic OR returning the old value. -/
  | atOr (g : Nat) (f : FmtM)
  /-- AT_XOR (R124): Atomic XOR returning the old value. -/
  | atXor (g : Nat) (f : FmtM)
  /-- AT_XCHG (R124): Atomic exchange returning the old value. -/
  | atXchg (g : Nat) (f : FmtM)
  /-- AT_CAS (R124): Atomic compare-and-swap using the compare run at VDS and the following swap run. -/
  | atCas (g : Nat) (f : FmtM)
  /-- AT_FADD (R124): Atomic floating add rounded to nearest-even returning the old value. -/
  | atFadd (g : Nat) (f : FmtM)
  /-- RED_ADD (R273): Reduction add with no return, complete when performed at its home slice. -/
  | redAdd (g : Nat) (f : FmtM)
  /-- RED_MINS (R273): Reduction signed minimum with no return. -/
  | redMins (g : Nat) (f : FmtM)
  /-- RED_MINU (R273): Reduction unsigned minimum with no return. -/
  | redMinu (g : Nat) (f : FmtM)
  /-- RED_MAXS (R273): Reduction signed maximum with no return. -/
  | redMaxs (g : Nat) (f : FmtM)
  /-- RED_MAXU (R273): Reduction unsigned maximum with no return. -/
  | redMaxu (g : Nat) (f : FmtM)
  /-- RED_AND (R273): Reduction AND with no return. -/
  | redAnd (g : Nat) (f : FmtM)
  /-- RED_OR (R273): Reduction OR with no return. -/
  | redOr (g : Nat) (f : FmtM)
  /-- RED_XOR (R273): Reduction XOR with no return. -/
  | redXor (g : Nat) (f : FmtM)
  /-- RED_FADD (R273): Reduction floating add with no return. -/
  | redFadd (g : Nat) (f : FmtM)
  /-- TMMA (R150): Queues a tensor multiply-accumulate of A x B into an accumulator tile, computed in chunks of 32. -/
  | tmma (g : Nat) (f : FmtT)
  /-- TZERO (R153): Queues zeroing of an accumulator tile. -/
  | tzero (g : Nat) (f : FmtT)
  /-- TLOAD (R154): Queues a conversion of a local-memory tile into an accumulator tile. -/
  | tload (g : Nat) (f : FmtT)
  /-- TSTORE (R155): Queues conversion of an accumulator tile to local memory with nearest or stochastic rounding and optional saturation. -/
  | tstore (g : Nat) (f : FmtT)
  /-- TENSOR_QUEUE_START (R141): The tensor engine begins the next queued T instruction in acceptance order once the previous one finishes. -/
  | tensorQueueStart (start : TensorStart)
  /-- BRA (R119): Branches by TGT when the uniform condition holds. -/
  | bra (g : Nat) (f : FmtC)
  /-- BRX (R119): Jumps to the word index held in u[CU]. -/
  | brx (g : Nat) (f : FmtC)
  /-- CALL (R119): Writes the return word index to u[CU] and jumps by TGT. -/
  | call (g : Nat) (f : FmtC)
  /-- RET (R119): Returns to the word index held in u[CU]. -/
  | ret (g : Nat) (f : FmtC)
  /-- EXIT (R119): Ends the group; the block ends when all its groups have exited and its tensor queue is empty. -/
  | exit (g : Nat) (f : FmtC)
  /-- NOP (R119): Does nothing. -/
  | nop (g : Nat) (f : FmtC)
  /-- EVT_INC (R128): Adds IMM16 to a counter of the same core, saturating. -/
  | evtInc (g : Nat) (f : FmtS)
  /-- EVT_SIG (R90): Sends an increment to a counter on another core of the partition. -/
  | evtSig (g : Nat) (f : FmtS)
  /-- EVT_SIG_ARRIVAL (R89): A signal reaches its target core and increments a device or external counter, or is discarded with a notice. -/
  | evtSigArrival (sig : Nat)
  /-- EVT_WAIT (R87): The group waits until the counter reaches the threshold, optionally consuming it and with an optional deadline. -/
  | evtWait (g : Nat) (f : FmtS)
  /-- EVT_WAIT_SATISFIED (R88): A counter change satisfies waiting groups tested in age order, consuming before younger groups are tested. -/
  | evtWaitSatisfied (core ctr : Nat)
  /-- EVT_WAIT_DEADLINE (R87): The deadline of a wait passes and the wait ends with its predicate false. -/
  | evtWaitDeadline (g : Nat)
  /-- EVT_READ (R128): Copies a counter into a u-register. -/
  | evtRead (g : Nat) (f : FmtS)
  /-- FENCE_ACQ (R269): Waits for earlier loads, then invalidates the L1 over a range or in whole. -/
  | fenceAcq (g : Nat) (f : FmtS)
  /-- FENCE_REL (R122): Waits until earlier stores and atomics are performed at the chosen scope. -/
  | fenceRel (g : Nat) (f : FmtS)
  /-- FLUSH (R123): Writes dirty LLC and RLC lines of a range back to HBM without changing values. -/
  | flush (g : Nat) (f : FmtS)
  /-- FLUSH_COMPLETE (R229): A FLUSH finishes its write-back and completes, incrementing its counter or releasing the group. -/
  | flushComplete (op : Nat)
  /-- CE_COPY (R225): Issues a copy descriptor to the least-loaded copy engine of the half. -/
  | ceCopy (g : Nat) (f : FmtS)
  /-- CE_COPY_COMPLETE (R227): A copy finishes when every destination byte is performed, writing its status and increment. -/
  | ceCopyComplete (half : Nat) (turn : CopyTurn)
  /-- MCAST (R130): Issues a multicast of a local-memory range to the receive areas of target cores. -/
  | mcast (g : Nat) (f : FmtS)
  /-- MCAST_PACKET_ARRIVAL (R62): A whole multicast packet reaches a target's ejection port and is written into its receive area. -/
  | mcastPacketArrival (op target packet : Nat) (tailBad : Bool)
  /-- MCAST_TIMER_EXPIRY (R63): A blocked target's 16 us timer expires and the target is marked undelivered. -/
  | mcastTimerExpiry (op target : Nat)
  /-- MCAST_COMPLETE (R65): Combined acknowledgements reach the originator, which writes the completion record with OK or MCAST_PARTIAL. -/
  | mcastComplete (op : Nat)
  /-- ORD_SORT (R172): Queues a sort of every row's indices on the cluster's Ordering Unit. -/
  | ordSort (g : Nat) (f : FmtS)
  /-- ORD_TOPK (R172): Queues a top-k index selection. -/
  | ordTopk (g : Nat) (f : FmtS)
  /-- ORD_ARGMAX (R172): Queues selection of the first index in order. -/
  | ordArgmax (g : Nat) (f : FmtS)
  /-- ORD_NEAREST (R173): Queues a k-nearest-neighbour search with bit-exact distances. -/
  | ordNearest (g : Nat) (f : FmtS)
  /-- ORD_SEARCH (R174): Queues lower-bound searches in a sorted row. -/
  | ordSearch (g : Nat) (f : FmtS)
  /-- ORD_SAMPLE (R175): Queues a Gumbel-max sample over a score row, borrowing the group's streams. -/
  | ordSample (g : Nat) (f : FmtS)
  /-- ORD_ROW_BOUNDARY (R165): At a row boundary the Ordering Unit takes the next row from the highest-priority queued descriptor. -/
  | ordRowBoundary (turn : OrdTurn)
  /-- ORD_DESCRIPTOR_COMPLETE (R166): The last row's indices are written, then the status word, then the EVE increment. -/
  | ordDescriptorComplete (cluster : Nat)
  /-- ORD_UNIT_RESET (R185): After an internal uncorrectable error the unit resets in 64 steps and serves the next descriptor. -/
  | ordUnitReset (cluster : Nat)
  /-- RNG_U32 (R196): Writes one raw 32-bit draw per lane. -/
  | rngU32 (g : Nat) (f : FmtS)
  /-- RNG_U24 (R196): Writes a uniform f32 in [0, 1) per lane. -/
  | rngU24 (g : Nat) (f : FmtS)
  /-- RNG_BERN (R196): Writes a Bernoulli 0 or 1 per lane against a threshold. -/
  | rngBern (g : Nat) (f : FmtS)
  /-- RNG_NORM (R197): Writes a normal variate per lane by table interpolation. -/
  | rngNorm (g : Nat) (f : FmtS)
  /-- RNG_GUMBEL (R198): Writes a scaled Gumbel variate per lane. -/
  | rngGumbel (g : Nat) (f : FmtS)
  /-- RNG_KEY (R191): Reseeds the issuing group's 32 streams from a key and an epoch. -/
  | rngKey (g : Nat) (f : FmtS)
  /-- SAMPLE_STATE_RETURN (R192): The Ordering Unit returns the advanced lane states to the bank after the last SAMPLE row. -/
  | sampleStateReturn (cluster : Nat)
  /-- TIDE_RD (R128): Writes the die's Tide counter to a u-register pair. -/
  | tideRd (g : Nat) (f : FmtS)
  /-- IRQ_RAISE (R354): After earlier stores are performed, sends one MSI-X message on a runtime vector of the partition. -/
  | irqRaise (g : Nat) (f : FmtS)
  /-- LOAD_DATA_RETURN (R140): Data of a load or atomic returns and is checked; poison or a mismatch raises DATA_POISON or TAIL_MISMATCH. -/
  | loadDataReturn (op : Nat) (tailBad : Bool)
  /-- ACCESS_PERFORMED (R263): A store or atomic takes effect at its coherence point, updating the L1 and any completion increment. -/
  | accessPerformed (op line : Nat) (tailBad : Bool)
  /-- KGI_LOAD (R118): Loads a Kranik graph image after checking header, sections, descriptors and every CODE word. -/
  | kgiLoad (fn : Fn) (ch : Nat)
  /-- KGI_UNLOAD (R210): Unloads a KGI and invalidates the partition's instruction caches. -/
  | kgiUnload (fn : Fn) (ch : Nat)
  /-- KRN_LAUNCH (R190): Accepts a kernel instance over clusters with its key, epoch and class. -/
  | krnLaunch (fn : Fn) (ch : Nat)
  /-- KRN_WAIT (R343): Waits for an instance's end and returns its end status. -/
  | krnWait (fn : Fn) (ch : Nat)
  /-- KRN_WAIT_TIMEOUT (R343): A KRN.WAIT timeout expires and completes with TIMEOUT, leaving the instance running. -/
  | krnWaitTimeout (fn : Fn) (ch : Nat)
  /-- KRN_ABORT (R93): Stops issue of an instance at once and ends it with ABORTED and an abort record. -/
  | krnAbort (fn : Fn) (ch : Nat)
  /-- KRN_CLASS (R384): Changes an instance's class in every class table within 10 us. -/
  | krnClass (fn : Fn) (ch : Nat)
  /-- BANK_ASSIGN (R78): A cluster assigns a freed event-counter bank and receive area to the waiting instance, LC first. -/
  | bankAssign (cluster : Nat)
  /-- BLOCK_LAUNCH (R387): A cluster scheduler launch decision places the next fitting block on a core. -/
  | blockLaunch (cluster : Nat)
  /-- PLACEMENT_HOLD_TIMEOUT (R387): A block unplaced for 1 ms blocks later instances of its class in that cluster. -/
  | placementHoldTimeout (cluster krn : Nat)
  /-- BLOCK_END (R278): A block ends once every store is performed and frees its resources. -/
  | blockEnd (block : Nat)
  /-- INSTANCE_COMPLETE (R278): An instance completes when its last block ends, recording its end status. -/
  | instanceComplete (krn : Nat)
  /-- EVENT_DEADLOCK (R91): A core's local-wait condition holds for 4 us and the instance is aborted. -/
  | eventDeadlock (core krn : Nat)
  /-- QUIESCENCE_DEADLOCK (R92): The cluster quiescence check holds for 64 us and declares EVENT_DEADLOCK. -/
  | quiescenceDeadlock (krn : Nat)
  /-- BLOCK_WATCHDOG (R94): A block exceeds 200 us and 256,000 steps and its instance is aborted. -/
  | blockWatchdog (block : Nat)
  /-- CORE_FENCE (R96): A core is fenced, losing its blocks, with replay or abort of their instances. -/
  | coreFence (core : Nat) (cause : FenceCause)
  /-- ISSUE_HANG (R536): A core completes no issue iteration for 20 us while holding a group and is fenced. -/
  | issueHang (core : Nat)
  /-- SPARE_SWAP (R99): At a cluster idle point the spare takes the fenced core's logical number. -/
  | spareSwap (cluster : Nat)
  /-- CLUSTER_FENCE (R538): An uncorrectable scheduler error fences the whole cluster and aborts its instances. -/
  | clusterFence (cluster : Nat)
  /-- STREAM_PARITY_ERROR (R204): A parity error in stream state aborts the owning instance. -/
  | streamParityError (g : Nat)
  /-- TRNG_HEALTH_FAILURE (R205): The true-random source fails health tests and seeding draws abort. -/
  | trngHealthFailure
  /-- STEPRATE_WINDOW_END (R48): At each 10 us Tide window end TELEM_STEPRATE is updated. -/
  | steprateWindowEnd (cluster : Nat) (steps : BitVec 24) (tj : Byte) (sensors : List Byte)
  /-- TIDE_TICK (R51): Each die's Tide counter increments once per 1 ns tick. -/
  | tideTick
  /-- TIDE_DRIFT (R73): A die's counter drifts over 2 ns from its parent, a fatal error. -/
  | tideDrift (die : Nat)
  /-- LC_PACKET_EJECTION (R59): A latency-critical packet is ejected and compared with its injection Tide. -/
  | lcPacketEjection (half : Nat) (injected : Nat) (path : LcPath)
  /-- DIE_BRIDGE_RETRY_FAIL (R72): A die-bridge PHY fails retry 64 times and the bridge leaves service fatally. -/
  | dieBridgeRetryFail (bridge : Nat)
  /-- RDS (R240): Read for a shared copy from an RLC to the home. -/
  | rds (rlc line : Nat) (ra : Bool)
  /-- RDX (R245): Read for ownership from an RLC to the home. -/
  | rdx (rlc line : Nat)
  /-- UPGR (R244): An S or F holder asks the home for M. -/
  | upgr (rlc line : Nat)
  /-- RDCUR (R245): Read of the current value without keeping a copy. -/
  | rdcur (agent line : Nat)
  /-- WRLINE (R245): Full-line write performed at the home after invalidation. -/
  | wrline (agent line : Nat) (data : LineData) (tailBad : Bool)
  /-- WRPART (R528): Partial write merged at the home slice. -/
  | wrpart (agent line : Nat) (data : LineData) (mask : DWord) (tailBad : Bool)
  /-- ATOM (R252): Atomic request performed at the home slice after invalidating copies. -/
  | atom (agent line : Nat) (op : AtomOp) (offset : Nat) (wide : Bool) (opnd cmp : DWord) (tailBad : Bool)
  /-- COH_FLUSH (R245): One line of FLUSH or MEM.FLUSH written to HBM at the home. -/
  | cohFlush (agent line : Nat)
  /-- WB (R251): Eviction of an M line with data into a reserved writeback buffer. -/
  | wb (rlc line : Nat)
  /-- EVE (R245): Eviction notice of an E line. -/
  | eve (rlc line : Nat)
  /-- EVF (R257): Eviction notice of an F line. -/
  | evf (rlc line : Nat)
  /-- SNPINV (R244): Home asks a holder to invalidate. -/
  | snpinv (rlc line : Nat)
  /-- SNPDATA (R244): Home asks an owner to return data and keep F. -/
  | snpdata (rlc line : Nat)
  /-- RECALL (R249): Home recalls ownership with data. -/
  | recall (rlc line : Nat)
  /-- FWDS (R244): Home forwards a read to the F holder or owner. -/
  | fwds (rlc line : Nat)
  /-- FWDX (R244): Home forwards an ownership request to the F holder or owner. -/
  | fwdx (rlc line : Nat)
  /-- BISNPINV (R253): Back-invalidate snoop to the host. -/
  | bisnpinv (line : Nat)
  /-- BISNPDATA (R253): Back-invalidate data snoop to the host. -/
  | bisnpdata (line : Nat)
  /-- DATA_ST (R243): Line data granting a state reaches the requester. -/
  | dataSt (rlc line : Nat)
  /-- RSPI (R243): A holder answers a snoop as invalid. -/
  | rspi (rlc line : Nat)
  /-- RSPS (R243): A holder answers a snoop keeping a shared copy. -/
  | rsps (rlc line : Nat)
  /-- RSPDATA (R245): A holder answers with the line, which the home writes into the slice. -/
  | rspdata (rlc line : Nat)
  /-- WBINFLIGHT (R250): A former holder reports the line already evicted; the home serves from the writeback. -/
  | wbinflight (rlc line : Nat)
  /-- CMP (R243): Completion of a write, atomic, flush, Upgr to the requester. -/
  | cmp (agent line : Nat)
  /-- WBACK (R243): Completion of an eviction to the RLC. -/
  | wback (rlc line : Nat)
  /-- SNOOP_TIMEOUT (R259): A snoop or its answer outstanding 100 us is a fatal fabric failure. -/
  | snoopTimeout (line : Nat)
  /-- BISNP_TIMEOUT (R260): A BISnp unanswered for 1 ms clears the host bit and may poison the line. -/
  | bisnpTimeout (line : Nat)
  /-- DIRECTORY_PARITY_REBUILD (R261): A directory entry failing parity is rebuilt by snooping all holders. -/
  | directoryParityRebuild (line : Nat)
  /-- READAHEAD_TRIGGER (R217): Four ascending misses in a tracked block start RLC read-ahead fetches. -/
  | readaheadTrigger (rlc block : Nat)
  /-- READAHEAD_TRACKER_RELEASE (R217): A tracker with no miss for 4 us is released. -/
  | readaheadTrackerRelease (rlc block : Nat)
  /-- SHOOT_DOWN (R224): Unmap or access change stops translation, drains accesses and invalidates TLBs, L1s and fills. -/
  | shootDown (sd : Nat)
  /-- ATS_TRANSLATION_COMPLETE (R223): The host answers an ATS translation request, filling the translation cache or raising ADDRESS_FAULT. -/
  | atsTranslationComplete (fn : Fn) (page : Nat) (answer : Option Nat)
  /-- ATS_INVALIDATION (R223): A host ATS invalidation completes after every access using the translation is performed. -/
  | atsInvalidation (fn : Fn) (page : Nat)
  /-- HOST_MEMRD (R253): A host CXL.mem read acted on by MetaValue at the home. -/
  | hostMemrd (line : Nat) (mv : MetaValue)
  /-- HOST_MEMWR (R253): A host CXL.mem write, resolving any crossing BISnp. -/
  | hostMemwr (line : Nat) (data : LineData)
  /-- HOST_CXL_CACHE_SNOOP (R254): The host snoops a host line held in a slice through CXL.cache. -/
  | hostCxlCacheSnoop (hline : Nat) (kind : HostSnoop)
  /-- CXL_PROTOCOL_ERROR (R318): A CXL protocol error leaving a line's state unknown poisons it and retrains the link. -/
  | cxlProtocolError (line : Nat)
  /-- BAR2_READ (R298): A host read through the HBM aperture served at the coherence point. -/
  | bar2Read (fn : Fn) (offset len : Nat) (tailBad : Bool)
  /-- BAR2_READ_NO_SNOOP (R303): A pure-PCIe BAR2 read with No Snoop served directly from HBM. -/
  | bar2ReadNoSnoop (fn : Fn) (offset len : Nat)
  /-- BAR2_WRITE (R298): A host write through the aperture performed at the coherence point with a Tail made at entry. -/
  | bar2Write (fn : Fn) (offset : Nat) (data : List Byte)
  /-- BAR0_UNSUPPORTED_ACCESS (R300): A BAR0 access outside every block or a partial-word write completes with Unsupported Request. -/
  | bar0UnsupportedAccess (fn : Fn) (offset size : Nat) (write : Bool)
  /-- CONFIG_REQUEST (R312): A configuration request, answered with Request Retry Status until configuration space is ready. -/
  | configRequest (fn : Fn) (req : CfgReq)
  /-- DEVICE_READINESS_STATUS (R312): Configuration space becomes ready and a Device Readiness Status message is sent. -/
  | deviceReadinessStatus (link : Nat)
  /-- VF_ENABLE_CHANGE (R305): Clearing VF Enable or lowering NumVFs affects only VFs without partitions. -/
  | vfEnableChange (link : Nat) (enable : Bool) (numVfs : Nat)
  /-- BAR2_RESIZE (R316): A BAR2 resize takes effect only while Memory Space Enable is clear. -/
  | bar2Resize (fn : Fn) (size : Nat)
  /-- HDM_DECODER_COMMIT (R302): Commit of an HDM decoder over the host pool, or Commit Error. -/
  | hdmDecoderCommit (dec : Nat) (base size pool ways : Nat)
  /-- INITIATE_FUNCTION_LEVEL_RESET (R357): FLR of a partition: state resetting, vectors masked, budgets returned, launches stopped. -/
  | initiateFunctionLevelReset (part : Nat)
  /-- FLR_QUIESCE_LIMIT (R358): 200 us after FLR start, unfinished blocks are stopped and instances end ABORTED. -/
  | flrQuiesceLimit (part : Nat)
  /-- FLR_CLUSTERS_QUIET (R359): When the clusters are quiet, mappings, KGIs, memory, entries, log, channels and key are reset and scrub starts. -/
  | flrClustersQuiet (part : Nat)
  /-- FLR_COMPLETE (R360): FLR completes: state running, PART_RESET_DONE bit set, PF vector 1 raised. -/
  | flrComplete (part : Nat)
  /-- FLR_TIMEOUT (R380): An FLR exceeding its limit is a fatal error. -/
  | flrTimeout (part : Nat)
  /-- UNIT_SCRUB_COMPLETE (R362): The scrubber finishes a unit, which becomes mappable or returns to the pool. -/
  | unitScrubComplete (unit : Nat)
  /-- SCRUB_WRITE_FAIL (R381): A failed scrub write retires the unit. -/
  | scrubWriteFail (unit : Nat)
  /-- HOST_LINK_UP (R560): A host link trains, fixing its CXL or pure-PCIe configuration. -/
  | hostLinkUp (link rate width : Nat) (cxl : Bool)
  /-- HOST_LINK_DOWN (R317): A host link goes down without reset; partitions keep running for 10 ms. -/
  | hostLinkDown (link : Nat)
  /-- HOST_LINK_DOWN_GRACE_EXPIRY (R317): After 10 ms without retraining the bound partitions are reset. -/
  | hostLinkDownGraceExpiry (link : Nat)
  /-- HOST_LINK_HOT_RESET (R314): A hot reset resets the link's functions and FLRs its partitions. -/
  | hostLinkHotReset (link : Nat)
  /-- D3HOT_ENTRY (R512): The PF enters D3hot, freezing partitions and gating clusters. -/
  | d3hotEntry
  /-- D3HOT_FREEZE_TIMEOUT (R512): A partition whose freeze does not complete in 1 s is reset. -/
  | d3hotFreezeTimeout (part : Nat)
  /-- D0_ENTRY (R512): A write of D0 thaws the partitions the entry froze. -/
  | d0Entry
  /-- TDISP_CONFIG_LOCKED (R311): A VF moves to CONFIG_LOCKED, freezing its BAR, MSI-X and ATS settings. -/
  | tdispConfigLocked (part : Nat)
  /-- TDISP_RUN (R311): A VF enters RUN and accepts memory requests only on its bound IDE stream. -/
  | tdispRun (part stream : Nat)
  /-- TDISP_LOCKED_CONFIG_CHANGE (R311): A change to a locked register moves the VF to ERROR. -/
  | tdispLockedConfigChange (part : Nat)
  /-- TDISP_UNLOCK (R311): The host unlocks a VF, leaving ERROR. -/
  | tdispUnlock (part : Nat)
  /-- IDE_KM (R310): IDE keys arrive over a secured SPDM session. -/
  | ideKm (link stream : Nat) (key : BitVec 256)
  /-- IDE_CHECK_FAILED (R308): An IDE integrity failure moves the stream to Insecure. -/
  | ideCheckFailed (link stream : Nat)
  /-- GET_VERSION (R496): SPDM version negotiation, VersionMismatch below 1.3. -/
  | getVersion (link version : Nat)
  /-- GET_CERTIFICATE (R496): Returns the slot 0 certificate chain. -/
  | getCertificate (link : Nat)
  /-- GET_MEASUREMENTS (R496): Returns measurement registers 1-8 signed by the Alias key. -/
  | getMeasurements (link : Nat)
  /-- DOE_DISCOVERY (R309): DOE discovery request on the PF mailbox. -/
  | doeDiscovery (link : Nat)
  /-- CDAT_READ (R309): CDAT request on port 0's DOE mailbox. -/
  | cdatRead (link : Nat)
  /-- MBX_TXQ_WRITE (R328): Appends a word to a Q-mode channel's inbound queue, or is dropped when full. -/
  | mbxTxqWrite (fn : Fn) (ch : Nat) (word : Word)
  /-- MBX_DOORBELL_WRITE (R330): Posts a P-mode command block doorbell with a sequence number. -/
  | mbxDoorbellWrite (fn : Fn) (ch : Nat) (ptr : DWord)
  /-- MBX_RXQ_READ (R320): Reads and removes the oldest outbound word. -/
  | mbxRxqRead (fn : Fn) (ch : Nat)
  /-- MBX_NOTICE_OUT_READ (R320): Reads and removes the oldest P-mode notice. -/
  | mbxNoticeOutRead (fn : Fn) (ch : Nat) (half : RegHalf)
  /-- MBX_TICKET_READ (R320): A read covering bits [15:0] returns NEXT and advances it. -/
  | mbxTicketRead (fn : Fn) (ch : Nat) (half : RegHalf)
  /-- MBX_TICKET_RELEASE (R326): Writing SERVING to RELEASE gives up the turn. -/
  | mbxTicketRelease (fn : Fn) (ch : Nat) (ticket : BitVec 16)
  /-- MBX_CTL_WRITE (R321): Sets mode, interrupt enable and enable; a mode change applies only when idle. -/
  | mbxCtlWrite (fn : Fn) (ch : Nat) (value : DWord)
  /-- OVERRUN_CLEAR (R325): Clearing OVERRUN discards any partial command. -/
  | overrunClear (fn : Fn) (ch : Nat)
  /-- TICKET_SKIP (R326): SERVING unchanged for 100 ms is advanced and TICKET_SKIP set. -/
  | ticketSkip (fn : Fn) (ch : Nat)
  /-- ABANDONED (R328): A partial Q command incomplete after 10 ms is discarded with INVALID. -/
  | abandoned (fn : Fn) (ch : Nat)
  /-- MAILBOX_QUEUE_ERROR (R347): A parity or ECC error in channel queues discards words. -/
  | mailboxQueueError (fn : Fn) (ch : Nat) (what : QueuePart)
  /-- MOON_RESPONSE_POSTED (R331): Moon posts a held response or notice when outbound room exists, raising vector 0 if enabled. -/
  | moonResponsePosted (fn : Fn) (ch : Nat)
  /-- MOON_EXCEPTION_ENTRY (R335): A Moon core pushes an exception frame and enters the cause's vector. -/
  | moonExceptionEntry (core : Nat) (cause faultAddr : DWord) (kind : MoonTrap)
  /-- MOON_LOCKUP (R337): A locked core is reset by its partner, which writes a crash record and starts a restart. -/
  | moonLockup (core : Nat)
  /-- MOON_WATCHDOG (R337): No core services the complex watchdog for 10 ms and a restart begins. -/
  | moonWatchdog
  /-- FW_RESTART (R339): The restart completes: FW_READY set and the FW_RESTART notice posted. -/
  | fwRestart
  /-- RESTART_LIMIT (R341): A restart over 50 ms or more than three in 60 s is fatal. -/
  | restartLimit
  /-- DEV_INFO (R342): Returns device information. -/
  | devInfo (fn : Fn) (ch : Nat)
  /-- DEV_WARM_RESET (R566): Answers OK and starts a warm reset 1 ms later. -/
  | devWarmReset (fn : Fn) (ch : Nat)
  /-- DEVICE_READY (R564): Posted once per start with the DEV.INFO payload, setting FW_READY. -/
  | deviceReady
  /-- PART_CREATE (R351): Creates a partition from the pool. -/
  | partCreate (fn : Fn) (ch : Nat)
  /-- PART_DESTROY (R352): Quiesces and releases a partition. -/
  | partDestroy (fn : Fn) (ch : Nat)
  /-- PART_QUERY (R342): Returns a partition's state and resources. -/
  | partQuery (fn : Fn) (ch : Nat)
  /-- PART_FREEZE (R368): Quiesces the partition at a step boundary. -/
  | partFreeze (fn : Fn) (ch : Nat)
  /-- PART_FREEZE_COMPLETE (R368): No resident block remains and the freeze completes. -/
  | partFreezeComplete (part : Nat)
  /-- PART_FREEZE_TIMEOUT (R368): The freeze point is not reached in 1 s and the command completes TIMEOUT. -/
  | partFreezeTimeout (part : Nat)
  /-- PART_SAVE (R370): Writes an encrypted migration blob. -/
  | partSave (fn : Fn) (ch : Nat)
  /-- PART_RESTORE (R371): Restores a blob into a matching frozen target. -/
  | partRestore (fn : Fn) (ch : Nat)
  /-- PART_THAW (R373): Resumes a frozen partition. -/
  | partThaw (fn : Fn) (ch : Nat)
  /-- PART_LOG_START (R364): Clears and starts the dirty-page log. -/
  | partLogStart (fn : Fn) (ch : Nat)
  /-- PART_LOG_READ (R365): Reads and clears dirty bits. -/
  | partLogRead (fn : Fn) (ch : Nat)
  /-- PART_LOG_STOP (R342): Stops the dirty-page log. -/
  | partLogStop (fn : Fn) (ch : Nat)
  /-- PART_APERTURE_MAP (R367): OP 0 maps a partition's allotment into the PF space. -/
  | partApertureMap (fn : Fn) (ch : Nat)
  /-- PART_APERTURE_UNMAP (R367): OP 1 removes the aperture with a shoot-down. -/
  | partApertureUnmap (fn : Fn) (ch : Nat)
  /-- MEM_MAP (R220): Creates a mapping. -/
  | memMap (fn : Fn) (ch : Nat)
  /-- MEM_UNMAP (R224): Removes a mapping by shoot-down. -/
  | memUnmap (fn : Fn) (ch : Nat)
  /-- MEM_PROTECT (R224): Changes the access of a mapped range. -/
  | memProtect (fn : Fn) (ch : Nat)
  /-- MEM_FLUSH (R229): Flushes a range to HBM. -/
  | memFlush (fn : Fn) (ch : Nat)
  /-- MEM_HOSTPOOL (R302): Sets the host pool size. -/
  | memHostpool (fn : Fn) (ch : Nat)
  /-- SEQ_CONFIG (R399): Configures step building from the GRAPH section. -/
  | seqConfig (fn : Fn) (ch : Nat)
  /-- SEQ_ADMIT (R393): Admits a sequence descriptor into an entry. -/
  | seqAdmit (fn : Fn) (ch : Nat)
  /-- SEQ_TOKEN (R201): Posts a host-drawn token to a PAUSED entry. -/
  | seqToken (fn : Fn) (ch : Nat)
  /-- SEQ_PAUSE (R392): Sets HOLD at the next step boundary. -/
  | seqPause (fn : Fn) (ch : Nat)
  /-- SEQ_RESUME (R392): Clears HOLD. -/
  | seqResume (fn : Fn) (ch : Nat)
  /-- SEQ_CANCEL (R392): Moves an entry to RETIRING at the next boundary. -/
  | seqCancel (fn : Fn) (ch : Nat)
  /-- SEQ_STEP (R405): Runs one host-listed step. -/
  | seqStep (fn : Fn) (ch : Nat)
  /-- PWR_CAP (R446): Sets the board power cap. -/
  | pwrCap (fn : Fn) (ch : Nat)
  /-- PWR_MODE (R457): Selects fixed fractions or the phase learner. -/
  | pwrMode (fn : Fn) (ch : Nat)
  /-- PWR_SHARE (R450): Replaces the share table. -/
  | pwrShare (fn : Fn) (ch : Nat)
  /-- PWR_QUERY (R444): Returns cap, mode, OPs and board power. -/
  | pwrQuery (fn : Fn) (ch : Nat)
  /-- METER_READ (R481): Returns the latest signed reading or the certificate chain. -/
  | meterRead (fn : Fn) (ch : Nat)
  /-- METER_AUDIT (R482): Returns the signed audit trail. -/
  | meterAudit (fn : Fn) (ch : Nat)
  /-- METER_IDENT (R479): Returns firmware identifier, checksum and event counter. -/
  | meterIdent (fn : Fn) (ch : Nat)
  /-- RAS_LOG_READ (R544): Returns ring records from a sequence number. -/
  | rasLogRead (fn : Fn) (ch : Nat)
  /-- RAS_LOG_CLEAR (R544): Clears device-ring records up to LAST. -/
  | rasLogClear (fn : Fn) (ch : Nat)
  /-- RAS_CRASH_READ (R547): Returns a Moon crash record. -/
  | rasCrashRead (fn : Fn) (ch : Nat)
  /-- SEC_KEY_UPDATE (R502): Writes a new key vault slot from an owner-signed package. -/
  | secKeyUpdate (fn : Fn) (ch : Nat)
  /-- SEC_DBG_UNLOCK (R509): Raises the debug level with a token. -/
  | secDbgUnlock (fn : Fn) (ch : Nat)
  /-- SEC_DBG_LOCK (R510): Returns the debug level to NONE. -/
  | secDbgLock (fn : Fn) (ch : Nat)
  /-- SEC_LIFECYCLE (R506): Performs a lifecycle transition and a warm reset. -/
  | secLifecycle (fn : Fn) (ch : Nat)
  /-- FW_STAGE (R493): Writes a verified image into the unused slot. -/
  | fwStage (fn : Fn) (ch : Nat)
  /-- FW_ACTIVATE (R493): Marks the staged slot trial and starts a restart. -/
  | fwActivate (fn : Fn) (ch : Nat)
  /-- FW_INFO (R342): Returns firmware versions and restart count. -/
  | fwInfo (fn : Fn) (ch : Nat)
  /-- LINK_CONFIG_OFF (R418): Mode 0 takes a link down. -/
  | linkConfigOff (fn : Fn) (ch : Nat)
  /-- LINK_CONFIG_YLP_DIRECT (R418): Mode 1 starts YLP training. -/
  | linkConfigYlpDirect (fn : Fn) (ch : Nat)
  /-- LINK_CONFIG_YLP_UDP (R429): Mode 2 starts YLP over UDP/IPv6. -/
  | linkConfigYlpUdp (fn : Fn) (ch : Nat)
  /-- LINK_ROUTE_SET (R426): Writes route entries atomically. -/
  | linkRouteSet (fn : Fn) (ch : Nat)
  /-- LINK_STATUS (R342): Returns a link's state. -/
  | linkStatus (fn : Fn) (ch : Nat)
  /-- YLP_ACK (R423): ACK or NAK received, advancing or rewinding retry. -/
  | ylpAck (peer : Nat) (seq : BitVec 12) (nak : Bool)
  /-- YLP_PUT (R432): A PUT frame checked and performed at the destination. -/
  | ylpPut (link : Nat) (f : Frame)
  /-- YLP_MPUT (R434): An MPUT copied to group links and delivered locally. -/
  | ylpMput (link : Nat) (f : Frame)
  /-- YLP_GET (R432): A GET answered with coherent data. -/
  | ylpGet (link : Nat) (f : Frame)
  /-- YLP_BGET (R431): A bulk get reading remote HBM directly. -/
  | ylpBget (link : Nat) (f : Frame)
  /-- YLP_ATOM (R431): A remote atomic at the home slice. -/
  | ylpAtom (link : Nat) (f : Frame)
  /-- YLP_RED (R431): A remote reduction at the home slice. -/
  | ylpRed (link : Nat) (f : Frame)
  /-- YLP_EVT (R431): A remote increment of an external counter. -/
  | ylpEvt (link : Nat) (f : Frame)
  /-- YLP_MBOX (R431): A remote mailbox write. -/
  | ylpMbox (link : Nat) (f : Frame)
  /-- YLP_CMP (R433): A completion answered by status at the origin. -/
  | ylpCmp (link : Nat) (f : Frame)
  /-- YLP_TIME (R441): An IEEE 1588 message for Tide alignment. -/
  | ylpTime (link : Nat) (msg : TimeMsg)
  /-- YLP_TRANSIT (R427): A frame not addressed here is routed onward. -/
  | ylpTransit (link : Nat) (f : Frame)
  /-- YLP_RETRY_TIMEOUT (R423): 4 us without acknowledgement triggers resend. -/
  | ylpRetryTimeout (peer : Nat)
  /-- REMOTE_RESEND (R433): A BUSY or FULL frame is resent after 10 us. -/
  | remoteResend (tag : Nat)
  /-- REMOTE_BUSY_LIMIT (R433): After 1 s of resends the access completes TIMEOUT. -/
  | remoteBusyLimit (tag : Nat)
  /-- REMOTE_CMP_TIMEOUT (R433): No CMP in 10 ms completes with TIMEOUT. -/
  | remoteCmpTimeout (tag : Nat)
  /-- LINK_DEGRADE (R419): A bad lane retrains the link on two lanes. -/
  | linkDegrade (link lane : Nat)
  /-- LINK_TRAINING_RETRY (R418): Failed training retries every 100 ms. -/
  | linkTrainingRetry (link : Nat)
  /-- LINK_UP (R418): A scale-out link completes training. -/
  | linkUp (link : Nat)
  /-- LINK_DOWN (R436): A link goes down; outstanding frames resend or time out. -/
  | linkDown (link : Nat)
  /-- LINK_RETRY_FAIL (R437): 64 retries or 16 GCM failures take a link or peer down. -/
  | linkRetryFail (link : Nat)
  /-- TIDE_PARENT_LINK_DOWN (R443): Parent link loss holds rate and selects a new parent. -/
  | tideParentLinkDown
  /-- BUCKET_REFILL (R389): At each 1 us boundary buckets refill. -/
  | bucketRefill
  /-- CONTROL_PERIOD (R452): The power controller reads the mirror, forms budgets and chooses OPs every 100 us. -/
  | controlPeriod (sense : PowerSense)
  /-- VOUT_COMMAND (R453): A set-point write on the control segment. -/
  | voutCommand
  /-- OP_CHANGE_COMPLETE (R32): An OP change completes after slew time and clean STATUS_VOUT. -/
  | opChangeComplete (half : Nat)
  /-- CONTROL_PORT_NO_ACK (R44): An unacknowledged control transaction is retried, then the rail is held. -/
  | controlPortNoAck
  /-- FAST_OP_LIMIT (R454): Pacing and sequencer writes lower halves to a limit OP. -/
  | fastOpLimit (op : BitVec 3) (halves : Byte) (src : FastSrc)
  /-- THROT_N_FALL (R37): THROT_N low engages the fast OP limit at OP0. -/
  | throtNFall
  /-- THROT_N_RISE (R468): THROT_N release lets halves rise. -/
  | throtNRise
  /-- DROOP_WARNING (R460): VCORE below warning halves tensor issue and sets a hold. -/
  | droopWarning (half : Nat) (mv : BitVec 16)
  /-- DROOP_HALVING_END (R460): After 1 us above warning the halving ends. -/
  | droopHalvingEnd (half : Nat)
  /-- DROOP_HOLD_END (R460): 1 ms after recovery the hold ends. -/
  | droopHoldEnd (half : Nat)
  /-- DROOP_RESET (R461): VCORE below the reset level is fatal. -/
  | droopReset (half : Nat)
  /-- THERMAL_LIMIT_RISE (R462): At 92 C or less the limit rises each 1 ms. -/
  | thermalLimitRise (half : Nat)
  /-- HBM_THERMAL_LIMIT (R463): A hot stack is limited to half bandwidth. -/
  | hbmThermalLimit (stack temp : Nat)
  /-- THERMTRIP (R464): A sensor at 110 C latches THERMTRIP_N and stops issue. -/
  | thermtrip
  /-- ENERGY_ESTIMATE_UPDATE (R465): Every 100 us the model adds energy estimates. -/
  | energyEstimateUpdate
  /-- MIRROR_STALE (R469): Unrefreshed mirror for 1 ms switches to the estimate. -/
  | mirrorStale
  /-- CRESCENT_START (R556): Crescent restores, self-tests, approves regulators and starts sampling. -/
  | crescentStart (boot : CrescentBoot)
  /-- CRESCENT_SAMPLE (R474): Every 100 us all accumulators are read and the mirror updated. -/
  | crescentSample (reads : List (Option Word))
  /-- LEDGER_RECORD (R476): X0 sends a ledger record at an interval end. -/
  | ledgerRecord
  /-- INTERVAL_CLOSE (R477): Crescent closes an interval, attributes energy and signs readings. -/
  | intervalClose
  /-- LEDGER_MISSING (R487): No ledger for 12 ms closes the interval unattributed. -/
  | ledgerMissing
  /-- RAIL_STALE (R488): A rail without valid reads for 1 ms is STALE. -/
  | railStale (rail : Nat)
  /-- CHECKSUM_RECOMPUTE (R479): The firmware checksum is recomputed every 24 h. -/
  | checksumRecompute (sum : Word)
  /-- METROLOGY_CHANGE_PACKAGE (R471): A signed package changes Crescent firmware. -/
  | metrologyChangePackage (pkg : List Byte)
  /-- VSTBY_CR_FALL (R489): Crescent commits its state on standby loss. -/
  | vstbyCrFall (committed : Bool)
  /-- VSTBY_CR_RISE (R556): Standby rail reaches tolerance, starting Crescent. -/
  | vstbyCrRise
  /-- PATROL_SCRUB (R534): Each line of HBM is patrolled and corrected or poisoned. -/
  | patrolScrub (line : Nat) (found : HbmError)
  /-- ARRAY_PATROL (R535): SRAM arrays are patrolled each second. -/
  | arrayPatrol (array : ArrayRef) (found : HbmError)
  /-- CHECKER_FAILED_PATH (R554): Over 1,024 mismatches in 1 ms is a failed path. -/
  | checkerFailedPath (path : CheckPath)
  /-- REPAIR_MAP_UPDATE (R539): Moon writes the repair map within 1 s. -/
  | repairMapUpdate (die : Nat)
  /-- REPAIR_MAP_RETRY (R555): A failed map write is retried every 1 s. -/
  | repairMapRetry (die : Nat) (ok : Bool)
  /-- RAS_INJECT_GO (R548): Arms an error injection under INVASIVE. -/
  | rasInjectGo (value : DWord)
  /-- RAS_ALERT_PEND_CLEAR (R584): Clears pending severities, possibly releasing ALERT_N. -/
  | rasAlertPendClear (value : DWord)
  /-- RAS_ALERT_MASK_WRITE (R584): Changes the alert mask, updating ALERT_N. -/
  | rasAlertMaskWrite (value : DWord)
  /-- ACCT_THRESH_CTL_WRITE (R409): Selects a counter and arms the threshold. -/
  | acctThreshCtlWrite (part : Nat) (value : DWord)
  /-- ACCT_THRESHOLD_FIRE (R409): Counter reaches VALUE: ARMED cleared, vector 4 raised. -/
  | acctThresholdFire (part : Nat)
  /-- QD_TAIL_WRITE (R397): Ring doorbell admits entries from HEAD to TAIL. -/
  | qdTailWrite (part : Nat) (value : DWord)
  /-- QD_CONFIG_WRITE (R397): Writes to QD_BASE or QD_SIZE, ignored while the ring is busy. -/
  | qdConfigWrite (part : Nat) (size : Bool) (value : DWord)
  /-- PART_LINK_WRITE (R431): Sets domain and ingress enable. -/
  | partLinkWrite (part : Nat) (value : DWord)
  /-- PWR_OP_MAX_WRITE (R452): Sets per-half OP maxima. -/
  | pwrOpMaxWrite (value : DWord)
  /-- W1C_CLEAR (R8): Write-1-to-clear status bits. -/
  | w1cClear (fn : Fn) (offset : Nat) (value : DWord)
  /-- REGISTER_WRITE (R8): Other register writes. -/
  | registerWrite (fn : Fn) (offset : Nat) (size : Nat) (value : DWord)
  /-- STEP_BOUNDARY (R404): Forms the next step and launches the graph. -/
  | stepBoundary (turn : StepTurn)
  /-- GRAPH_NODE_LAUNCH (R400): A node launches when dependencies complete. -/
  | graphNodeLaunch (part node : Nat)
  /-- GRAPH_END (R404): Step instances complete; results applied. -/
  | graphEnd (turn : StepTurn)
  /-- STEP_BUILDER_ERROR (R416): Step-builder uncorrectable error retires entries. -/
  | stepBuilderError (half : Nat)
  /-- CLUSTER_GATE (R511): An idle cluster gates after 100 us. -/
  | clusterGate (cluster : Nat)
  /-- CLUSTER_UNGATE (R511): A gated cluster ungates when a block is ready. -/
  | clusterUngate (cluster : Nat)
  /-- DEBUG_EXPIRY (R510): Debug duration expires, returning to NONE. -/
  | debugExpiry
  /-- PWRGD_MAIN_RISE (R558): Begins a cold start. -/
  | pwrgdMainRise (board : BoardState)
  /-- PWRGD_MAIN_FALL (R37): Stops all activity at once. -/
  | pwrgdMainFall
  /-- DEV_RST_N (R37): Low for 1 us causes a cold reset. -/
  | devRstN (level : Bool)
  /-- PERST_N (R565): Fundamental reset of a host port. -/
  | perstN (port : Nat) (level : Bool)
  /-- TIDE_PLL_LOCK (R558): PLL locks; Tide starts. -/
  | tidePllLock
  /-- TIDE_PLL_LOCK_TIMEOUT (R575): No lock in 1 ms holds reset. -/
  | tidePllLockTimeout
  /-- BOOT_ROM_PHASE_END (R558): Phase 2 ends. -/
  | bootRomPhaseEnd (fusesOk lifeOk slotA slotB : Bool)
  /-- SELF_TEST_PHASE_END (R562): Phase 3 ends. -/
  | selfTestPhaseEnd (failing : List Nat) (rowsOk : Bool)
  /-- HBM_INIT_PHASE_END (R561): Phase 4 ends. -/
  | hbmInitPhaseEnd (stacksOk : Bool)
  /-- DIE_BRIDGE_TRAINING_END (R51): Phase 5 ends. -/
  | dieBridgeTrainingEnd (ok : Bool)
  /-- MOON_INIT_PHASE_END (R563): Phase 7 ends. -/
  | moonInitPhaseEnd
  /-- PHASE_OVERRUN (R575): A phase passes its latest end: failed start. -/
  | phaseOverrun
  /-- WARM_RESET (R566): Fatal record, then 10 ms later phases 2-8. -/
  | warmReset (cause : FatalCause)
  /-- WARM_RESET_STOP (R566): 10 ms after trigger, issue stops. -/
  | warmResetStop
  /-- TIDE_REFCLK_LOSS (R43): Fatal error and warm reset. -/
  | tideRefclkLoss
  /-- PCIE_REFCLK_LOSS (R43): Host port link down. -/
  | pcieRefclkLoss (port : Nat)
  /-- LINK_REFCLK_LOSS (R43): Six links down. -/
  | linkRefclkLoss (die : Nat)
  /-- VIO_X0_REMOVAL (R40): Removal of the VIO_X0 rail clears the THERMTRIP_N latch. -/
  | vioX0Removal
  /-- TEST_ACCESS_PORT_INSTRUCTION (R24): An IEEE 1149.1 instruction arrives at the test access port, including boundary scan and, under INVASIVE, halting or releasing a core. -/
  | testAccessPortInstruction (op : TapOp)
  /-- TRUE_RANDOM_SOURCE_RECOVERY (R520): The true-random source passes its health tests again, and the key regeneration that waited on it proceeds. -/
  | trueRandomSourceRecovery
  /-- TIDE_PLL_RELOCK (R568): After loss of TIDE_REFCLK, the Tide PLL relocks and X0's counter continues from its held value. -/
  | tidePllRelock
  /-- BISNP_RESPONSE (R253): The host answers a BISnpInv or BISnpData, and the home completes the held transaction. -/
  | bisnpResponse (line : Nat) (data : Option LineData)
  /-- CXL_CACHE_HOST_RESPONSE (R254): The host answers a slice's CXL.cache request for a host line, granting the state or the data. -/
  | cxlCacheHostResponse (hline : Nat) (st : HostGrant) (data : LineData)
  /-- CRESCENT_HOURLY_COMMIT (R489): Each hour Crescent commits its counters, sequence number and trail to its non-volatile memory. -/
  | crescentHourlyCommit
  /-- OSCILLATOR_FAULT (R489): A fault of Crescent's own oscillator records code 7 and makes metering unavailable until the next start. -/
  | oscillatorFault
  /-- PLDM_REQUEST (R23): An MCTP message carrying PLDM for Platform Monitoring arrives on the management SMBus at address 0x64. -/
  | pldmRequest (msg : List Byte)
  /-- SPDM_KEY_EXCHANGE (R309): A requester establishes a secured CMA/SPDM session over the DOE mailbox. -/
  | spdmKeyExchange (link : Nat)
  deriving DecidableEq, Repr

end Sys2Proof
end

