-- ==== Sys2Proof/WellFormed.lean ====
section
/-! DEFINITION. WellFormed.lean: the checks of R118, R145, R153, R154 and R586 to R589 that a word passes by itself when a KGI is
loaded.  (The two checks that belong to a kernel, and the code ranges, are `Machine/Kgi.lean`'s.) -/

namespace Sys2Proof

/-- The element takes 64 bits. -/
def Ty.is64 (t : Ty) : Bool := t == .s64 || t == .u64

/-- TYPE codes in order (Table 05.2). -/
def tyOf : Nat → Option Ty
  | 0 => some .s32 | 1 => some .u32 | 2 => some .f32 | 3 => some .f16x2 | 4 => some .bf16x2 | 5 => some .s16x2
  | 6 => some .u16x2 | 7 => some .s8x4 | 8 => some .u8x4 | 9 => some .b32 | 10 => some .s64 | 11 => some .u64
  | _ => none

/-- The u-register fields of a word with DK = 1 have bits [7:6] zero. -/
def FmtA.uOk (f : FmtA) : Bool :=
  !f.dk || (f.vd.toNat < 64 && f.vs1.toNat < 64 && f.vs2.toNat < 64 && f.vs3.toNat < 64)

/-- A register that holds a 64-bit operand: an even v-register, or a u-register pair that does not start at u63. -/
def pairOk (u : Bool) (r : BitVec 8) : Bool := if u then r.toNat % 64 != 63 else r.toNat % 2 == 0

/-- The 64-bit operands among VD, VS1, VS2 and VS3 that an opcode uses. -/
def FmtA.regsOk (f : FmtA) (d s1 s2 s3 : Bool) : Bool :=
  f.uOk && (!d || pairOk f.dk f.vd) && (!s1 || pairOk f.dk f.vs1) && (!s2 || pairOk (f.dk || f.sk) f.vs2) && (!s3 || pairOk f.dk f.vs3)

/-- An opcode that uses the operands given, over a set of types. -/
def FmtA.plain (f : FmtA) (types : List Ty) (s2 s3 : Bool) : Bool :=
  types.contains f.ty && f.regsOk f.ty.is64 f.ty.is64 (s2 && f.ty.is64) (s3 && f.ty.is64)

/-- The type sets of Table 05.13. -/
def tyArith : List Ty := [.s32, .u32, .f32, .f16x2, .bf16x2, .s16x2, .u16x2, .s8x4, .u8x4, .s64, .u64]
def tyMulhi : List Ty := [.s32, .u32, .s16x2, .u16x2, .s8x4, .u8x4]
def tyAbs : List Ty := [.s32, .f32, .f16x2, .bf16x2, .s16x2, .s8x4, .s64]
def tyFma : List Ty := [.f32, .f16x2, .bf16x2]
def tyDot : List Ty := [.s8x4, .u8x4]
def tyAll : List Ty := [.s32, .u32, .f32, .f16x2, .bf16x2, .s16x2, .u16x2, .s8x4, .u8x4, .b32, .s64, .u64]
def tyShift : List Ty := [.s32, .u32, .b32, .s64, .u64]
def tyCount : List Ty := [.s32, .u32, .b32]
def tyEq : List Ty := [.s32, .u32, .f32, .b32, .s64, .u64]
def tyLt : List Ty := [.s32, .u32, .f32, .s64, .u64]
def tyShfl : List Ty := [.s32, .u32, .f32, .f16x2, .bf16x2, .s16x2, .u16x2, .s8x4, .u8x4, .b32]
def tyRed : List Ty := [.s32, .u32, .f32]

/-- The shifts: the count is one 32-bit register (R587). -/
def FmtA.shiftOk (f : FmtA) : Bool := tyShift.contains f.ty && f.regsOk f.ty.is64 f.ty.is64 false false

/-- The compares: they write a predicate. -/
def FmtA.cmpOk (f : FmtA) (types : List Ty) : Bool := types.contains f.ty && f.regsOk false f.ty.is64 f.ty.is64 false

/-- SEL: VS2 and SK must be 0 (R589). -/
def FmtA.selOk (f : FmtA) : Bool := f.regsOk f.ty.is64 f.ty.is64 false f.ty.is64 && f.vs2 == 0 && !f.sk

/-- Whether CVT accepts a pair of types (R587). -/
def cvtPair (a b : Ty) : Bool :=
  a != b && (([Ty.s32, .u32, .f32, .s64, .u64].contains a && [Ty.s32, .u32, .f32, .s64, .u64].contains b) ||
    ([Ty.f16x2, .bf16x2, .s16x2, .u16x2].contains a && [Ty.f16x2, .bf16x2, .s16x2, .u16x2].contains b) ||
    ([Ty.s8x4, .u8x4].contains a && [Ty.s8x4, .u8x4].contains b))

/-- The destination type of CVT, in VS2[3:0]. -/
def FmtA.cvtTo (f : FmtA) : Option Ty := tyOf f.vs2.toNat

/-- CVT: VS2[7:4] and SK must be 0 (R587). -/
def FmtA.cvtOk (f : FmtA) : Bool :=
  match f.cvtTo with
  | some t => cvtPair f.ty t && f.regsOk t.is64 f.ty.is64 false false && !f.sk
  | none => false

/-- PMOV (R589). -/
def FmtA.pmovOk (f : FmtA) : Bool := tyCount.contains f.ty && f.uOk && f.vs1.toNat < 8 && f.vs2 == 0 && f.vs3 == 0 && !f.sk

/-- BALLOT (R586). -/
def FmtA.ballotOk (f : FmtA) : Bool := f.ty == .b32 && f.uOk && f.vs1.toNat < 8

/-- Format B: the u-register fields of a word with UK = 1. -/
def FmtB.uOk (f : FmtB) : Bool := !f.uk || (f.vd.toNat < 64 && f.vs1.toNat < 64)

/-- Format B ABS, NEG, NOT, POPC, CLZ and BREV act on IMM32 (R589). -/
def BOp.immOnly (o : BOp) : Bool := o == .abs || o == .neg || o == .not || o == .popc || o == .clz || o == .brev

/-- Format B arithmetic and logic. -/
def FmtB.aluOk (f : FmtB) (o : BOp) : Bool := f.uOk && (!o.immOnly || f.vs1 == 0)

/-- Format B compares: VD[7:3] must be 0. -/
def FmtB.cmpOk (f : FmtB) : Bool := f.uOk && f.vd.toNat < 8

/-- Registers of one run (R113): 1, 2 or 4. -/
def FmtM.run (f : FmtM) : Nat := if f.size.toNat ≤ 2 then 1 else if f.size.toNat = 3 then 2 else 4

/-- The checks that every M word passes: an assigned SIZE, VDS a multiple of the run, and UB no pair at u63 (R113, R118). -/
def FmtM.baseOk (f : FmtM) : Bool :=
  f.size.toNat ≤ 4 && f.vds.toNat % f.run == 0 && (f.space == .localMem || f.space == .receive || f.ub.toNat != 63)

/-- LD: ORD 2 and 3 fail. -/
def FmtM.ldOk (f : FmtM) : Bool := f.baseOk && (f.ord == .plain || f.ord == .acquire)

/-- ST: ORD 1 and 3 fail. -/
def FmtM.stOk (f : FmtM) : Bool := f.baseOk && (f.ord == .plain || f.ord == .release)

/-- Atomics and RED.*: SIZE 2 or 3 (R124). -/
def FmtM.atOk (f : FmtM) : Bool := f.baseOk && (f.size == 2 || f.size == 3)

/-- AT.CAS: both runs lie within v0-v255 (R113). -/
def FmtM.casOk (f : FmtM) : Bool := f.atOk && f.vds.toNat + 2 * f.run ≤ 256

/-- Codes of the formats (Table 05.4). -/
def TFmt.code : TFmt → Nat
  | .mxfp4 => 0 | .mxfp6e2m3 => 1 | .mxfp6e3m2 => 2 | .mxfp8e4m3 => 3 | .mxfp8e5m2 => 4 | .mxint8 => 5 | .int4 => 6 | .int8 => 7
  | .fp8e4m3 => 8 | .fp8e5m2 => 9 | .bf16 => 10 | .fp16 => 11 | .fp32 => 12

/-- The format pairs of Table 06.1. -/
def tmmaPair (a b : TFmt) : Bool :=
  let x := a.code
  let y := b.code
  (x ≤ 4 && y ≤ 4) || (x == 5 && y == 5) || ((x == 6 || x == 7) && (y == 6 || y == 7)) || ((x == 8 || x == 9) && (y == 8 || y == 9)) ||
    (10 ≤ x && x == y)

/-- SHAPE and OPT hold assigned values (R118, R144, Table 05.4). -/
def FmtT.codesOk (f : FmtT) : Bool := f.shape.toNat ≤ 4 && f.opt.toNat ≤ 3

/-- TMMA (R145). -/
def FmtT.tmmaOk (f : FmtT) : Bool := f.codesOk && f.opt == 0 && tmmaPair f.afmt f.bfmt

/-- TZERO: every field other than ACC is zero (R153). -/
def FmtT.tzeroOk (f : FmtT) : Bool :=
  f.abase == 0 && f.bbase == 0 && f.afmt == .mxfp4 && f.bfmt == .mxfp4 && f.shape == 0 && !f.accz && f.opt == 0

/-- TLOAD (R154). -/
def FmtT.tloadOk (f : FmtT) : Bool := f.codesOk && (f.afmt == .int8 || f.afmt == .bf16 || f.afmt == .fp16 || f.afmt == .fp32)

/-- BRX, CALL and RET do not take CK = 1. -/
def FmtC.jumpOk (f : FmtC) : Bool := f.ck != .ureg

/-- CONS and DLE are set on EVT.WAIT alone. -/
def FmtS.noWait (f : FmtS) : Bool := !f.cons && !f.dle

/-- An S word that uses the pair UA. -/
def FmtS.pairA (f : FmtS) : Bool := f.noWait && f.ua.toNat != 63

/-- The word of a core instruction passes the checks of R118 that it passes by itself; every other command passes. -/
def Instr.wf : Instr → Bool
  | .add _ f | .sub _ f | .mul _ f | .min _ f | .max _ f => f.plain tyArith true false
  | .mulhi _ f => f.plain tyMulhi true false
  | .abs _ f | .neg _ f => f.plain tyAbs false false
  | .fma _ f => f.plain tyFma true true
  | .dot4 _ f => f.plain tyDot true true
  | .and _ f | .or _ f | .xor _ f => f.plain tyAll true false
  | .not _ f | .mov _ f => f.plain tyAll false false
  | .shl _ f | .shr _ f | .sar _ f => f.shiftOk
  | .popc _ f | .clz _ f | .brev _ f => f.plain tyCount false false
  | .sel _ f => f.selOk
  | .cmpEq _ f | .cmpNe _ f => f.cmpOk tyEq
  | .cmpLt _ f | .cmpLe _ f | .cmpGt _ f | .cmpGe _ f => f.cmpOk tyLt
  | .cvt _ f => f.cvtOk
  | .pmov _ f => f.pmovOk
  | .rcp _ f | .rsq _ f | .sqrt _ f | .exp2 _ f | .log2 _ f | .tanh _ f => f.plain [.f32] false false
  | .shfl _ f => f.plain tyShfl true false
  | .ballot _ f => f.ballotOk
  | .redadd _ f | .redmax _ f => f.plain tyRed false false
  | .immediateAluForm _ o f => f.aluOk o
  | .cmpFImmediate _ _ f | .cmpIntImmediate _ _ f => f.cmpOk
  | .movi _ f => f.uOk
  | .ld _ f => f.ldOk
  | .st _ f => f.stOk
  | .atAdd _ f | .atMins _ f | .atMinu _ f | .atMaxs _ f | .atMaxu _ f | .atAnd _ f | .atOr _ f | .atXor _ f | .atXchg _ f
  | .atFadd _ f | .redAdd _ f | .redMins _ f | .redMinu _ f | .redMaxs _ f | .redMaxu _ f | .redAnd _ f | .redOr _ f
  | .redXor _ f | .redFadd _ f => f.atOk
  | .atCas _ f => f.casOk
  | .tmma _ f => f.tmmaOk
  | .tzero _ f => f.tzeroOk
  | .tload _ f => f.tloadOk
  | .tstore _ f => f.codesOk
  | .brx _ f | .call _ f | .ret _ f => f.jumpOk
  | .evtInc _ f | .evtSig _ f => f.noWait && f.imm != 0
  | .evtWait _ f => !f.dle || f.ub.toNat != 63
  | .evtRead _ f | .fenceRel _ f | .rngU32 _ f | .rngU24 _ f | .rngBern _ f | .rngGumbel _ f | .irqRaise _ f => f.noWait
  | .fenceAcq _ f | .flush _ f | .ceCopy _ f | .mcast _ f | .ordSort _ f | .ordTopk _ f | .ordArgmax _ f | .ordNearest _ f
  | .ordSearch _ f | .ordSample _ f | .tideRd _ f | .rngNorm _ f => f.pairA
  | .rngKey _ f => f.noWait && f.ua.toNat ≤ 60
  | _ => true

end Sys2Proof
end

