-- ==== Sys2Proof/Decode.lean ====
section
/-! DEFINITION. Decode.lean: commands and core instructions read from bits (R107 to R118, Tables 05.1 to 05.7). -/

namespace Sys2Proof

/-- The command that a word spells by the table's bits: no row of spec/opcode_table.json gives bits, so none does. -/
def decodeTableWord (_nbits _w : Nat) : Option Instr := none

/-- Bits `lo .. lo+n-1` of a word. -/
def fieldOf (w : BitVec 64) (lo n : Nat) : BitVec n := w.extractLsb' lo n

/-- RND codes (Table 05.2). -/
def rndOf : Nat → Option Rnd
  | 0 => some .nearest | 1 => some .zero | 2 => some .down | 3 => some .up | 4 => some .stochastic | _ => none

/-- AFMT and BFMT codes (Table 05.4). -/
def tfmtOf : Nat → Option TFmt
  | 0 => some .mxfp4 | 1 => some .mxfp6e2m3 | 2 => some .mxfp6e3m2 | 3 => some .mxfp8e4m3 | 4 => some .mxfp8e5m2
  | 5 => some .mxint8 | 6 => some .int4 | 7 => some .int8 | 8 => some .fp8e4m3 | 9 => some .fp8e5m2 | 10 => some .bf16
  | 11 => some .fp16 | 12 => some .fp32 | _ => none

/-- SPACE codes (Table 05.3). -/
def spaceOfCode (x : BitVec 2) : Space :=
  if x = 0 then .global else if x = 1 then .localMem else if x = 2 then .streaming else .receive

/-- ORD codes (Table 05.3). -/
def ordOfCode (x : BitVec 2) : MemOrd :=
  if x = 0 then .plain else if x = 1 then .acquire else if x = 2 then .release else .acqRel

/-- SCOPE codes (Table 05.6). -/
def scopeOf : Nat → Option Scope
  | 0 => some .core | 1 => some .device | 2 => some .system | _ => none

/-- CK codes (Table 05.5). -/
def ckOf : Nat → Option CKind
  | 0 => some .always | 1 => some .ureg | 2 => some .any | 3 => some .all | 4 => some .none | _ => none

/-- CMP codes (Table 05.5). -/
def ctestOf : Nat → Option CTest
  | 0 => some .eqz | 1 => some .nez | 2 => some .ltz | 3 => some .gez | 4 => some .gtz | 5 => some .lez | _ => none

/-- The six compares in order (Table 05.7). -/
def cmpOf : Nat → Option CmpOp
  | 0 => some .eq | 1 => some .ne | 2 => some .lt | 3 => some .le | 4 => some .gt | 5 => some .ge | _ => none

/-- The fields of a format A word; RSV bits [5:0] must be zero. -/
def fmtA (w : BitVec 64) : Option FmtA :=
  match tyOf (fieldOf w 9 4).toNat, rndOf (fieldOf w 6 3).toNat with
  | some ty, some rnd =>
    if fieldOf w 0 6 = 0 then
      some { pi := fieldOf w 51 3, pn := w.getLsbD 50, vd := fieldOf w 42 8, vs1 := fieldOf w 34 8, vs2 := fieldOf w 26 8,
             vs3 := fieldOf w 18 8, dk := w.getLsbD 17, sk := w.getLsbD 16, pd := fieldOf w 13 3, ty := ty, rnd := rnd }
    else none
  | _, _ => none

/-- The fields of a format B word; bit 32 must be zero. -/
def fmtB (w : BitVec 64) : Option FmtB :=
  if w.getLsbD 32 then none
  else some { pi := fieldOf w 51 3, pn := w.getLsbD 50, vd := fieldOf w 42 8, vs1 := fieldOf w 34 8, uk := w.getLsbD 33, imm := fieldOf w 0 32 }

/-- The fields of a format M word. -/
def fmtM (w : BitVec 64) : FmtM :=
  { pi := fieldOf w 51 3, pn := w.getLsbD 50, vds := fieldOf w 42 8, ub := fieldOf w 36 6, vo := fieldOf w 28 8,
    novo := w.getLsbD 27, size := fieldOf w 24 3, space := spaceOfCode (fieldOf w 22 2), ord := ordOfCode (fieldOf w 20 2),
    eve := w.getLsbD 19, ec := fieldOf w 14 5, lc := w.getLsbD 13, disp := fieldOf w 0 13 }

/-- The fields of a format T word; RSV bits [7:0] must be zero. -/
def fmtT (w : BitVec 64) : Option FmtT :=
  match tfmtOf (fieldOf w 19 4).toNat, tfmtOf (fieldOf w 15 4).toNat with
  | some a, some b =>
    if fieldOf w 0 8 = 0 then
      some { pi := fieldOf w 51 3, pn := w.getLsbD 50, acc := fieldOf w 47 3, abase := fieldOf w 35 12, bbase := fieldOf w 23 12,
             afmt := a, bfmt := b, shape := fieldOf w 12 3, accz := w.getLsbD 11, opt := fieldOf w 8 3 }
    else none
  | _, _ => none

/-- The fields of a format C word; RSV bits [34:32] must be zero. -/
def fmtC (w : BitVec 64) : Option FmtC :=
  match ckOf (fieldOf w 47 3).toNat, ctestOf (fieldOf w 35 3).toNat with
  | some ck, some t =>
    if fieldOf w 32 3 = 0 then
      some { pi := fieldOf w 51 3, pn := w.getLsbD 50, ck := ck, cp := fieldOf w 44 3, cu := fieldOf w 38 6, cmp := t, tgt := fieldOf w 0 32 }
    else none
  | _, _ => none

/-- The fields of a format S word. -/
def fmtS (w : BitVec 64) : Option FmtS :=
  (scopeOf (fieldOf w 16 2).toNat).map fun sc =>
    { pi := fieldOf w 51 3, pn := w.getLsbD 50, ua := fieldOf w 44 6, ub := fieldOf w 38 6, vx := fieldOf w 30 8, ec := fieldOf w 25 5,
      pd := fieldOf w 22 3, eve := w.getLsbD 21, cons := w.getLsbD 20, dle := w.getLsbD 19, lc := w.getLsbD 18, scope := sc,
      imm := fieldOf w 0 16 }

/-- Format A opcodes (Table 05.7). -/
def opA : Nat → Option (Nat → FmtA → Instr)
  | 0x00 => some .add | 0x01 => some .sub | 0x02 => some .mul | 0x03 => some .mulhi | 0x04 => some .min | 0x05 => some .max
  | 0x06 => some .abs | 0x07 => some .neg | 0x08 => some .fma | 0x09 => some .dot4
  | 0x10 => some .and | 0x11 => some .or | 0x12 => some .xor | 0x13 => some .not | 0x14 => some .shl | 0x15 => some .shr
  | 0x16 => some .sar | 0x17 => some .popc | 0x18 => some .clz | 0x19 => some .brev | 0x1A => some .sel
  | 0x20 => some .cmpEq | 0x21 => some .cmpNe | 0x22 => some .cmpLt | 0x23 => some .cmpLe | 0x24 => some .cmpGt | 0x25 => some .cmpGe
  | 0x30 => some .mov | 0x31 => some .cvt | 0x32 => some .pmov
  | 0x40 => some .rcp | 0x41 => some .rsq | 0x42 => some .sqrt | 0x43 => some .exp2 | 0x44 => some .log2 | 0x45 => some .tanh
  | 0x50 => some .shfl | 0x51 => some .ballot | 0x52 => some .redadd | 0x53 => some .redmax
  | _ => none

/-- The B-format opcodes at 0x00-0x09 and 0x10-0x1A (Table 05.7). -/
def bopOf : Nat → Option BOp
  | 0x00 => some .add | 0x01 => some .sub | 0x02 => some .mul | 0x03 => some .mulhi | 0x04 => some .min | 0x05 => some .max
  | 0x06 => some .abs | 0x07 => some .neg | 0x08 => some .fma | 0x09 => some .dot4
  | 0x10 => some .and | 0x11 => some .or | 0x12 => some .xor | 0x13 => some .not | 0x14 => some .shl | 0x15 => some .shr
  | 0x16 => some .sar | 0x17 => some .popc | 0x18 => some .clz | 0x19 => some .brev | 0x1A => some .sel
  | _ => none

/-- Format B opcodes (Table 05.7). -/
def opB (opc : Nat) : Option (Nat → FmtB → Instr) :=
  match bopOf opc with
  | some o => some (fun g f => .immediateAluForm g o f)
  | none =>
    if opc = 0x30 then some .movi
    else if 0x20 ≤ opc && opc ≤ 0x25 then (cmpOf (opc - 0x20)).map (fun c => fun g f => .cmpFImmediate g c f)
    else if 0x26 ≤ opc && opc ≤ 0x2B then (cmpOf (opc - 0x26)).map (fun c => fun g f => .cmpIntImmediate g c f)
    else none

/-- Format M opcodes (Table 05.7). -/
def opM : Nat → Option (Nat → FmtM → Instr)
  | 0x00 => some .ld | 0x01 => some .st
  | 0x10 => some .atAdd | 0x11 => some .atMins | 0x12 => some .atMinu | 0x13 => some .atMaxs | 0x14 => some .atMaxu
  | 0x15 => some .atAnd | 0x16 => some .atOr | 0x17 => some .atXor | 0x18 => some .atXchg | 0x19 => some .atCas | 0x1A => some .atFadd
  | 0x20 => some .redAdd | 0x21 => some .redMins | 0x22 => some .redMinu | 0x23 => some .redMaxs | 0x24 => some .redMaxu
  | 0x25 => some .redAnd | 0x26 => some .redOr | 0x27 => some .redXor | 0x2A => some .redFadd
  | _ => none

/-- Format T opcodes (Table 05.7). -/
def opT : Nat → Option (Nat → FmtT → Instr)
  | 0 => some .tmma | 1 => some .tzero | 2 => some .tload | 3 => some .tstore | _ => none

/-- Format C opcodes (Table 05.7). -/
def opC : Nat → Option (Nat → FmtC → Instr)
  | 0 => some .bra | 1 => some .brx | 2 => some .call | 3 => some .ret | 4 => some .exit | 5 => some .nop | _ => none

/-- Format S opcodes (Table 05.7). -/
def opS : Nat → Option (Nat → FmtS → Instr)
  | 0x00 => some .evtInc | 0x01 => some .evtSig | 0x02 => some .evtWait | 0x03 => some .evtRead
  | 0x10 => some .fenceAcq | 0x11 => some .fenceRel | 0x12 => some .flush | 0x13 => some .ceCopy | 0x14 => some .mcast
  | 0x20 => some .ordSort | 0x21 => some .ordTopk | 0x22 => some .ordArgmax | 0x23 => some .ordNearest | 0x24 => some .ordSearch
  | 0x25 => some .ordSample
  | 0x30 => some .rngU32 | 0x31 => some .rngU24 | 0x32 => some .rngBern | 0x33 => some .rngNorm | 0x34 => some .rngGumbel
  | 0x38 => some .rngKey
  | 0x40 => some .tideRd | 0x41 => some .irqRaise
  | _ => none

/-- The core instruction of group `g` that a 64-bit word spells, where the word passes every check of R118 that does not belong
to a kernel. -/
def decodeWord (g : Nat) (w : BitVec 64) : Option Instr :=
  let opc := (fieldOf w 54 7).toNat
  let i : Option Instr :=
    match (fieldOf w 61 3).toNat with
    | 0 => (opA opc).bind fun c => (fmtA w).map (c g)
    | 1 => (opB opc).bind fun c => (fmtB w).map (c g)
    | 2 => (opM opc).map fun c => c g (fmtM w)
    | 3 => (opT opc).bind fun c => (fmtT w).map (c g)
    | 4 => (opC opc).bind fun c => (fmtC w).map (c g)
    | 5 => (opS opc).bind fun c => (fmtS w).map (c g)
    | _ => none
  i.filter Instr.wf

end Sys2Proof
end

