-- ==== Sys2Proof/Config.lean ====
section
/-! DEFINITION. Config.lean: the values the manual leaves open (free values: opaque, so that a statement holds whatever they
are) and the device's own constants.  Each is named in log entry 1 or in the entry of its docstring. -/

namespace Sys2Proof.Config

/-- Draw `n` of the true-random source (R194, R393, R497, R507): any value (log 1). -/
opaque trueRandom : Nat → BitVec 128

/-- RCP of an f32, used where it meets the bound of R588 (log 7). -/
opaque rcp : BitVec 32 → BitVec 32

/-- RSQ of an f32, used where it meets the bound of R588 (log 7). -/
opaque rsq : BitVec 32 → BitVec 32

/-- EXP2 of an f32, used where it meets the bound of R588 (log 7). -/
opaque exp2 : BitVec 32 → BitVec 32

/-- LOG2 of an f32, used where it meets the bound of R588 (log 7). -/
opaque log2 : BitVec 32 → BitVec 32

/-- TANH of an f32, used where it meets the bound of R588 (log 7). -/
opaque tanh : BitVec 32 → BitVec 32

/-- The magnitude of R197 from the draw's low 31 bits, used where every one meets R196 and R197 (log 8). -/
opaque normal : BitVec 32 → BitVec 32

/-- The Gumbel variate of R198 from d >> 8, used where every one meets R196 and R198 (log 8). -/
opaque gumbel : BitVec 32 → BitVec 32

/-- Whether an ECDSA and an ML-DSA signature verify: signer key block, bytes, signature bytes (R491; log 9). -/
opaque verifies : List Byte → List Byte → List Byte → Bool

/-- SHA-384 of Umaeno's firmware public keys, fused (R490; log 6). -/
opaque umaenoHash : BitVec 384

/-- Umaeno's and the owner's public keys as a token names none of its own: key block by fused hash (R508; log 9). -/
opaque keysOf : BitVec 384 → List Byte

/-- Whether a metrology change package's signature verifies (R471; log 9). -/
opaque metrologyVerifies : List Byte → Bool

/-- The firmware identifier and checksum that a metrology change package installs (R471, R479; log 9). -/
opaque metrologyIdent : List Byte → BitVec 64 × BitVec 32

/-- The key records of a key-update package under the device's key-agreement key; none where the GCM tag fails (R503; log 9). -/
opaque openKeyPackage : List Byte → Option (List Byte)

/-- AES-256-GCM sealing and opening under a key: key, nonce, additional data, text (R370, R500; log 9). -/
opaque gcmSeal : BitVec 256 → List Byte → List Byte → List Byte → List Byte

/-- The text that a sealed section opens to under a key, if its tag verifies (R370, R500; log 9). -/
opaque gcmOpen : BitVec 256 → List Byte → List Byte → List Byte → Option (List Byte)

/-- The serial number that BLANK to PROVISIONED fuses (R506; log 6). -/
opaque serialNumber : BitVec 128

/-- A signature of `n` bytes by one of the device's keys over bytes (R482, R496; log 9). -/
opaque sign : Nat → List Byte → List Byte

/-- The certificate chains: 1 the DeviceID chain of SPDM slot 0 (R496), 2 + x Crescent's, one of the parameters whose checksum is x (R471, R481;
log 9). -/
opaque certificate : Nat → List Byte

/-- The exception vectors of a Moon core, by cause (R335; log 4). -/
opaque moonVector : BitVec 64 → BitVec 64

/-- The double-fault vector and the top of the emergency stack of Moon core `c` (R336; log 4). -/
opaque moonDouble : Nat → BitVec 64 × BitVec 64

/-- Byte `i` of the partner's capture of a failed Moon core's general registers, crash record draw `n` (R547; log 4). -/
opaque moonCapture : Nat → Nat → BitVec 8

/-- The hash of SRC, DST and ADDR[51:16] that chooses a link (R427; log 10). -/
opaque linkHash : Nat → Nat → Nat → Nat

/-- The energy in microjoules that the on-die model forms, before it is scaled, for a partition or, as 0, for the gated clusters, the
scrubber and Moon: from the partition's number, its accounting counters, and the OP and temperature of its clusters (R465; log 11). -/
opaque energyModel : Nat → List Nat → Nat

/-- The measured power that the on-die model puts in place of the mirror: half or 8 for fixed power, mW (R469; log 11). -/
opaque powerModel : Nat → Nat → Nat

/-- The boot ROM version and firmware configuration that registers 1 and 3 are extended with (R495; log 6). -/
opaque romVersion : List Byte

/-- The firmware configuration of measurement register 3 (R495; log 6). -/
opaque fwConfig : List Byte

/-- The bytes of the repair maps that register 5 is extended with, from core states, retired pages and rows (R495, R539; log 6). -/
opaque repairMapBytes : List Nat → List Nat → List Nat → List Byte

/-- The row of an SRAM array that holds a place: array, place (R541; log 141). -/
opaque sramRow : Nat → Nat → Nat

/-- The row of its stack in which an HBM line lies (R541; log 141). -/
opaque hbmRow : Nat → Nat

/-- Rows that an HBM stack has resources to repair after packaging (R541; log 141). -/
opaque hbmRepairs : Nat → Nat

/-- Whether ledger record `n` reaches Crescent with its CRC-32 good (R476; log 14). -/
opaque ledgerIntact : Nat → Bool

/-- The answer to a PLDM for Platform Monitoring request (R23, R30; log 12). -/
opaque pldmAnswer : List Byte → List Nat → List Byte

/-- The body of an SPDM, DOE or CDAT answer beyond what the manual fixes (R309, R496; log 12). -/
opaque spdmBody : Nat → Nat → List Byte

/-- Units that Moon reserves before partitions are created (R211; log 6). -/
opaque reservedUnits : Nat

/-- Data that the test access port shifts out where the manual gives none: boundary scan, identity and scan chains (R24, R507;
log 1). -/
opaque scanData : Nat → Nat

/-- Code and severity of RAS events to which Table 20.6 gives none, by kind: 0 mailbox queue error (R347), 1 own device ID in a
TIME frame (R425), 2 link or peer down (R437), 3 power excursion (R447), 4 estimate in use, 5 estimate no longer in use
(R469), 6 BISnp unanswered (R260), 7 host read of a bad line (Table 12.3), 8 key-table parity (R520), 9 dirty host lines lost
(R569), 10 MPUT refused (R434), 11 host port link failure (R43), 12 an error notice
(R89, R90, R354; log 13), 13 a Tail mismatch at link egress (R435). -/
opaque rasCode : Nat → Nat × Nat

/-- The bits of a v-register above the bytes that a load of 1 or 2 bytes returns: draw `n` (log 29). -/
opaque loadUpper : Nat → BitVec 32

/-- What an HBM line written under one key decrypts to under another, and whether its Tail then reads as poison: the two keys' numbers, the
line, what was written (R219, R497; log 126). -/
opaque garbled : Nat → Nat → Nat → BitVec 512 → BitVec 512 × Bool

/-- Index `i` of an Ordering Unit's row whose operands its own writes overlap: draw `n` (R180, R182; log 36). -/
opaque ordIndex : Nat → Nat → BitVec 32

/-- Byte `i` of an Ordering Unit's scratch area after a band C row: draw `n` (R180; log 36). -/
opaque scratchByte : Nat → Nat → BitVec 8

/-- Whether a tensor instruction that is stopped had made the write at a place: stop `n`, the place (R143; log 120). -/
opaque stopWrote : Nat → Nat → Bool

/-- Packets of one multicast that the ejection port of a halted core buffers before it is full (R70; log 38). -/
opaque ejectBuffer : Nat

/-- What the step builder has for Moon at a step boundary: a channel of its partition's function and the words of a command, or nothing;
draw `n` (R346; log 136). -/
opaque builderCommand : Nat → Option (Nat × List (BitVec 32))

/-- HKDF-SHA-384 of a fabric key with the info string of the lower device ID, the higher device ID, the direction and the key epoch, whose
encoding the manual leaves open (R498; log 66). -/
opaque linkKey : BitVec 256 → Nat → Nat → Nat → Nat → BitVec 256

/-- The ID of the device at the other end of a link, which a mode 1 link's key names and no frame of the link layer states (R498; log 66). -/
opaque neighbour : Nat → Nat

/-- The byte that a read of host memory returns: read `n` of the device, host physical address (log 15). -/
opaque hostByte : Nat → Nat → BitVec 8

/-- The identity value of a free choice among outcomes the manual allows: draw `n` (log 1). -/
opaque choice : Nat → Nat

end Sys2Proof.Config
end

