-- ==== Sys2Proof/Machine/Tbl.lean ====
section
/-! DEFINITION. Machine/Tbl.lean: reading and writing sparse tables (`Tbl`) in their canonical form: keys rise strictly and no
entry holds the value `d` that an unlisted key reads as. -/

namespace Sys2Proof.Machine

/-- What key `i` reads as, `d` when it is not listed. -/
def tget {α : Type} (d : α) : Tbl α → Nat → α
  | [], _ => d
  | (k, v) :: t, i => if i = k then v else tget d t i

/-- Removes an entry whatever it holds; for tables whose keys mean "held" (a cache's lines). -/
def tdel {α : Type} (t : Tbl α) (i : Nat) : Tbl α := t.filter (fun e => e.1 != i)

/-- Places an entry before the first larger key. -/
def tplace {α : Type} : Tbl α → Nat → α → Tbl α
  | [], i, v => [(i, v)]
  | (k, w) :: t, i, v => if i < k then (i, v) :: (k, w) :: t else (k, w) :: tplace t i v

/-- Lists key `i` with value `v`, replacing what it held; for tables whose keys mean "held". -/
def tins {α : Type} (t : Tbl α) (i : Nat) (v : α) : Tbl α := tplace (tdel t i) i v

/-- The table with key `i` reading as `v`: writing `d` removes the entry. -/
def tput {α : Type} [DecidableEq α] (d : α) (t : Tbl α) (i : Nat) (v : α) : Tbl α := if v = d then tdel t i else tins t i v

/-- The table with key `i` changed by `f`. -/
def tmod {α : Type} [DecidableEq α] (d : α) (t : Tbl α) (i : Nat) (f : α → α) : Tbl α := tput d t i (f (tget d t i))

/-- Every key is at or above `n`, the keys rise strictly and no entry holds `d`. -/
def twfFrom {α : Type} [DecidableEq α] (d : α) : Nat → Tbl α → Bool
  | _, [] => true
  | n, (k, v) :: t => decide (n ≤ k) && !decide (v = d) && twfFrom d (k + 1) t

/-- The table is in canonical form. -/
def twf {α : Type} [DecidableEq α] (d : α) (t : Tbl α) : Bool := twfFrom d 0 t

/-- The entry of key `i`, if one is listed. -/
def tfind {α : Type} : Tbl α → Nat → Option α
  | [], _ => none
  | (k, v) :: t, i => if i = k then some v else tfind t i

/-- The keys a table lists. -/
def tkeys {α : Type} (t : Tbl α) : List Nat := t.map (·.1)

/-- Changes every listed value. -/
def tmap {α : Type} (t : Tbl α) (f : α → α) : Tbl α := t.map (fun e => (e.1, f e.2))

/-- The first element that is least by `key`. -/
def argMin {α : Type} (key : α → Nat) : List α → Option α
  | [] => none
  | a :: l =>
    match argMin key l with
    | none => some a
    | some b => if key a ≤ key b then some a else some b

/-- Insertion of an element by key, after its equals. -/
def insertBy {α : Type} (key : α → Nat) (a : α) : List α → List α
  | [] => [a]
  | b :: l => if key b ≤ key a then b :: insertBy key a l else a :: b :: l

/-- A list in rising order of `key`, equals in their order. -/
def sortBy {α : Type} (key : α → Nat) (l : List α) : List α := l.foldl (fun acc a => insertBy key a acc) []

/-- Element `i` of a list, `d` past its end. -/
def nth {α : Type} (d : α) : List α → Nat → α
  | [], _ => d
  | a :: _, 0 => a
  | _ :: l, i + 1 => nth d l i

/-- The list with element `i` replaced. -/
def setNth {α : Type} : List α → Nat → α → List α
  | [], _, _ => []
  | _ :: l, 0, v => v :: l
  | a :: l, i + 1, v => a :: setNth l i v

/-- The sum of a list. -/
def total (l : List Nat) : Nat := l.foldl (· + ·) 0

end Sys2Proof.Machine
end

