-- ==== Sys2Proof/Machine/Bits.lean ====
section
/-! DEFINITION. Machine/Bits.lean: bytes and words, the Tail (R521), CRC-32 (R422, R476, R479), SHA-384 (R131, R495) and
SipHash-1-3 (R189). -/

namespace Sys2Proof.Machine

/-- `n` bytes of a number, least significant first (R6's little-endian fields). -/
def leBytes : Nat → Nat → List Byte
  | 0, _ => []
  | n + 1, x => BitVec.ofNat 8 x :: leBytes n (x / 256)

/-- `n` bytes of a number, most significant first. -/
def beBytes (n x : Nat) : List Byte := (leBytes n x).reverse

/-- The number that bytes spell, least significant first. -/
def ofLe : List Byte → Nat
  | [] => 0
  | b :: l => b.toNat + 256 * ofLe l

/-- The number that bytes spell, most significant first. -/
def ofBe (l : List Byte) : Nat := ofLe l.reverse

/-- `n` bytes from offset `o`, short where the list ends. -/
def slice (l : List Byte) (o n : Nat) : List Byte := (l.drop o).take n

/-- The little-endian number of `n` bytes at offset `o`; bytes past the end read zero. -/
def fieldAt (l : List Byte) (o n : Nat) : Nat := ofLe (slice l o n)

/-- Whether every byte of `o .. o+n` is zero. -/
def zeroAt (l : List Byte) (o n : Nat) : Bool := (slice l o n).all (· == 0)

/-- A line from its bytes. -/
def lineOf (l : List Byte) : LineData := BitVec.ofNat 512 (ofLe (l.take 64))

/-- The 64 bytes of a line. -/
def lineBytes (d : LineData) : List Byte := leBytes 64 d.toNat

/-- Byte `i` of a line. -/
def lineByte (d : LineData) (i : Nat) : Byte := BitVec.ofNat 8 (d.toNat >>> (8 * i))

/-- A line with the bytes of `new` where `mask` has a 1 (R528, step 3). -/
def mergeLine (old new : LineData) (mask : DWord) : LineData :=
  lineOf ((List.range 64).map (fun i => if mask.getLsbD i then lineByte new i else lineByte old i))

/-- The mask of bytes `o .. o+n` of a line. -/
def maskOf (o n : Nat) : DWord := BitVec.ofNat 64 (((2 ^ n - 1) <<< o))

/-- A line holding `bytes` from offset `o`, zero elsewhere. -/
def placeBytes (o : Nat) (bytes : List Byte) : LineData := BitVec.ofNat 512 (ofLe bytes <<< (8 * o))

/-- One bit of the Tail's CRC: generator 0x8BB7, most significant bit first. -/
def tailBit (crc : BitVec 16) (bit : Bool) : BitVec 16 :=
  if (crc.getLsbD 15) != bit then (crc <<< 1) ^^^ 0x8BB7 else crc <<< 1

/-- One byte of the Tail's CRC. -/
def tailByte (crc : BitVec 16) (b : Byte) : BitVec 16 :=
  [7, 6, 5, 4, 3, 2, 1, 0].foldl (fun c i => tailBit c (b.getLsbD i)) crc

/-- The Tail of a line (R521). -/
def tailOf (d : LineData) : BitVec 16 := (lineBytes d).foldl tailByte 0 ^^^ 0xFFFF

/-- The Tail that a line carries, poisoned or not (R522). -/
def carriedTail (d : LineData) (poison : Bool) : BitVec 16 := if poison then tailOf d ^^^ 0xFFFF else tailOf d

/-- One byte of CRC-32 (IEEE 802.3, polynomial 0x04C1_1DB7 in its reflected form). -/
def crcByte (crc : BitVec 32) (b : Byte) : BitVec 32 :=
  (List.range 8).foldl (fun c _ => if c.getLsbD 0 then (c >>> 1) ^^^ 0xEDB88320 else c >>> 1) (crc ^^^ b.zeroExtend 32)

/-- CRC-32 of bytes (R422, R476). -/
def crc32 (l : List Byte) : BitVec 32 := l.foldl crcByte 0xFFFFFFFF ^^^ 0xFFFFFFFF

/-! SHA-384 (R131), by FIPS 180-4: 80 rounds over a state of eight words, with a window of the sixteen message words to come. -/

/-- The whole part of the `k`-th root of `n`, where it has at most as many bits as the last argument. -/
def rootOf (k : Nat) (n : Nat) : Nat → Nat
  | 0 => 0
  | b + 1 =>
    let r := 2 * rootOf k (n / 2 ^ k) b
    if (r + 1) ^ k ≤ n then r + 1 else r

/-- The first 64 bits of the fraction of the `k`-th root of a small number. -/
def rootFraction (k p : Nat) : DWord := BitVec.ofNat 64 (rootOf k (p * 2 ^ (64 * k)) 70)

/-- The first eighty primes. -/
def primes80 : List Nat := (List.range 410).filter (fun n => decide (1 < n) && ((List.range 21).drop 2).all (fun d => n % d != 0 || n == d))

/-- The constants of the rounds: cube roots of the first eighty primes. -/
def shaConstants : List DWord := primes80.map (rootFraction 3)

/-- SHA-384's initial state: square roots of the ninth to the sixteenth prime. -/
def sha384Start : List DWord := ((primes80.drop 8).take 8).map (rootFraction 2)

/-- The exclusive or of three rotations of a word. -/
def rot3 (w : DWord) (i j k : Nat) : DWord := w.rotateRight i ^^^ w.rotateRight j ^^^ w.rotateRight k

/-- A word and its window of fifteen followers, moved on by one word of the schedule. -/
def shaSlide (win : List DWord) : List DWord :=
  let near := nth 0 win 1
  let far := nth 0 win 14
  win.drop 1 ++ [nth 0 win 0 + nth 0 win 9 + (near.rotateRight 1 ^^^ near.rotateRight 8 ^^^ near >>> 7) +
    (far.rotateRight 19 ^^^ far.rotateRight 61 ^^^ far >>> 6)]

/-- One round: the state and the window, under one constant. -/
def shaStep (x : List DWord × List DWord) (k : DWord) : List DWord × List DWord :=
  let v := nth 0 x.1
  let fresh := v 7 + rot3 (v 4) 14 18 41 + (v 6 ^^^ (v 4 &&& (v 5 ^^^ v 6))) + k + nth 0 x.2 0
  let carry := rot3 (v 0) 28 34 39 + ((v 0 &&& (v 1 ||| v 2)) ||| (v 1 &&& v 2))
  ([fresh + carry, v 0, v 1, v 2, v 3 + fresh, v 4, v 5, v 6], shaSlide x.2)

/-- The state after 128 bytes more. -/
def shaChunk (s : List DWord) (chunk : List Byte) : List DWord :=
  let win := (List.range 16).map (fun i => BitVec.ofNat 64 (ofBe (slice chunk (8 * i) 8)))
  List.zipWith (· + ·) s (shaConstants.foldl shaStep (s, win)).1

/-- SHA-384 of bytes, as 48 bytes. -/
def sha384 (l : List Byte) : List Byte :=
  let padded := l ++ 0x80 :: List.replicate ((239 - l.length % 128) % 128) 0 ++ beBytes 16 (8 * l.length)
  let s := (List.range (padded.length / 128)).foldl (fun s i => shaChunk s (slice padded (128 * i) 128)) sha384Start
  (s.take 6).flatMap (fun w => beBytes 8 w.toNat)

/-- SHA-384 as a 384-bit number, first byte most significant. -/
def sha384w (l : List Byte) : BitVec 384 := BitVec.ofNat 384 (ofBe (sha384 l))

/-- The 48 bytes of a 384-bit hash. -/
def hashBytes (h : BitVec 384) : List Byte := beBytes 48 h.toNat

/-- The state of SipHash. -/
structure Sip where
  v0 : DWord
  v1 : DWord
  v2 : DWord
  v3 : DWord
  deriving DecidableEq, Repr

/-- One SipRound. -/
def sipRound (s : Sip) : Sip :=
  let v0 := s.v0 + s.v1
  let v1 := (s.v1.rotateLeft 13) ^^^ v0
  let v0 := v0.rotateLeft 32
  let v2 := s.v2 + s.v3
  let v3 := (s.v3.rotateLeft 16) ^^^ v2
  let v0 := v0 + v3
  let v3 := (v3.rotateLeft 21) ^^^ v0
  let v2 := v2 + v1
  let v1 := (v1.rotateLeft 17) ^^^ v2
  let v2 := v2.rotateLeft 32
  ⟨v0, v1, v2, v3⟩

/-- One message word of SipHash-1-3. -/
def sipWord (s : Sip) (w : DWord) : Sip :=
  let s := sipRound { s with v3 := s.v3 ^^^ w }
  { s with v0 := s.v0 ^^^ w }

/-- Cuts bytes into little-endian words of eight, `n` of them. -/
def wordsOf : Nat → List Byte → List DWord
  | 0, _ => []
  | n + 1, l => BitVec.ofNat 64 (ofLe (l.take 8)) :: wordsOf n (l.drop 8)

/-- SipHash-1-3 of a message under a 128-bit key (low half first). -/
def sipHash13 (key : BitVec 128) (msg : List Byte) : DWord :=
  let k0 : DWord := key.truncate 64
  let k1 : DWord := (key >>> 64).truncate 64
  let s : Sip := ⟨k0 ^^^ 0x736f6d6570736575, k1 ^^^ 0x646f72616e646f6d, k0 ^^^ 0x6c7967656e657261, k1 ^^^ 0x7465646279746573⟩
  let n := msg.length / 8
  let tail := msg.drop (8 * n)
  let last := BitVec.ofNat 64 (ofLe tail + 2 ^ 56 * (msg.length % 256))
  let s := ((wordsOf n msg) ++ [last]).foldl sipWord s
  let s := { s with v2 := s.v2 ^^^ 0xff }
  let s := sipRound (sipRound (sipRound s))
  s.v0 ^^^ s.v1 ^^^ s.v2 ^^^ s.v3

end Sys2Proof.Machine
end

