-- ==== Sys2Proof/Machine/Num.lean ====
section
/-! DEFINITION. Machine/Num.lean: the number formats and exact arithmetic with one rounding (R148, R150, R151, R157, R585 to R588). -/

namespace Sys2Proof.Machine

/-- An exact value: NaN, an infinity, or a dyadic number (sign, magnitude m x 2^e). -/
inductive Val where
  | nan
  | inf (neg : Bool)
  | fin (neg : Bool) (m : Nat) (e : Int)
  deriving DecidableEq, Repr

/-- A floating-point format (Table 06.2): widths, bias, magnitude code of the largest finite value, of infinity if there is one, the
least magnitude code of a NaN, and the canonical NaN. -/
structure FFmt where
  eb : Nat
  mb : Nat
  bias : Nat
  maxFin : Nat
  inf : Option Nat
  nanMin : Nat
  nan : Nat
  deriving DecidableEq, Repr

def f32 : FFmt := ⟨8, 23, 127, 0x7F7FFFFF, some 0x7F800000, 0x7F800001, 0x7FC00000⟩
def bf16 : FFmt := ⟨8, 7, 127, 0x7F7F, some 0x7F80, 0x7F81, 0x7FC0⟩
def fp16 : FFmt := ⟨5, 10, 15, 0x7BFF, some 0x7C00, 0x7C01, 0x7E00⟩
def e4m3 : FFmt := ⟨4, 3, 7, 0x7E, none, 0x7F, 0x7F⟩
def e5m2 : FFmt := ⟨5, 2, 15, 0x7B, some 0x7C, 0x7D, 0x7E⟩
def e2m1 : FFmt := ⟨2, 1, 1, 7, none, 8, 0⟩
def e2m3 : FFmt := ⟨2, 3, 1, 31, none, 32, 0⟩
def e3m2 : FFmt := ⟨3, 2, 3, 31, none, 32, 0⟩

/-- Bits of an encoding. -/
def FFmt.bits (f : FFmt) : Nat := 1 + f.eb + f.mb

/-- The value of an encoding. -/
def FFmt.decode (f : FFmt) (x : Nat) : Val :=
  let x := x % 2 ^ f.bits
  let neg := decide (2 ^ (f.eb + f.mb) ≤ x)
  let a := x % 2 ^ (f.eb + f.mb)
  if f.nanMin ≤ a then .nan
  else if some a = f.inf then .inf neg
  else
    let ex := a / 2 ^ f.mb
    let man := a % 2 ^ f.mb
    if ex = 0 then .fin neg man (1 - (f.bias : Int) - f.mb)
    else .fin neg (2 ^ f.mb + man) ((ex : Int) - f.bias - f.mb)

/-- Whether rounding goes up in magnitude from `n`, for a remainder rem / den below one (R157, IEEE 754).  `r` is the random
number of RND 4. -/
def roundsUp (rnd : Rnd) (r : Nat) (neg : Bool) (n rem den : Nat) : Bool :=
  if rem = 0 then false
  else
    match rnd with
    | .nearest => decide (den < 2 * rem) || (2 * rem == den && n % 2 == 1)
    | .zero => false
    | .down => neg
    | .up => !neg
    | .stochastic =>
      if neg then decide (((den - rem) * 65536 / den) + r < 65536) else decide (65536 ≤ rem * 65536 / den + r)

/-- The integer that m x 2^e rounds to in units of 2^q, as a magnitude. -/
def roundAt (rnd : Rnd) (r : Nat) (neg : Bool) (m : Nat) (e q : Int) : Nat :=
  if q ≤ e then m * 2 ^ (e - q).toNat
  else
    let den := 2 ^ (q - e).toNat
    let n := m / den
    if roundsUp rnd r neg n (m % den) den then n + 1 else n

/-- The magnitude code that m x 2^e (m not zero) rounds to, in a range whose exponent has no upper bound (R157). -/
def FFmt.roundMag (f : FFmt) (rnd : Rnd) (r : Nat) (neg : Bool) (m : Nat) (e : Int) : Nat :=
  let top := e + (Nat.log2 m : Nat)
  let q := max (top - f.mb) (1 - (f.bias : Int) - f.mb)
  (q + f.mb + f.bias - 1).toNat * 2 ^ f.mb + roundAt rnd r neg m e q

/-- The sign bit of a format. -/
def FFmt.sign (f : FFmt) (neg : Bool) : Nat := if neg then 2 ^ (f.eb + f.mb) else 0

/-- Infinity of a sign; the canonical NaN in a format that has none (Table 06.3). -/
def FFmt.infCode (f : FFmt) (neg : Bool) : Nat := match f.inf with | some i => f.sign neg + i | none => f.nan

/-- What an overflow gives, for the direction (IEEE 754; R587 for RND 4). -/
def FFmt.overflow (f : FFmt) (rnd : Rnd) (neg : Bool) : Nat :=
  let toInf := match rnd with
    | .zero => false
    | .down => neg
    | .up => !neg
    | _ => true
  if toInf then f.infCode neg else f.sign neg + f.maxFin

/-- The encoding of an exact value under a rounding. -/
def FFmt.encode (f : FFmt) (rnd : Rnd) (r : Nat) : Val → Nat
  | .nan => f.nan
  | .inf neg => f.infCode neg
  | .fin neg m e =>
    if m = 0 then f.sign neg
    else
      let a := f.roundMag rnd r neg m e
      if f.maxFin < a then f.overflow rnd neg else f.sign neg + a

/-- The same with saturation: infinities and overflows give the largest finite value (Table 06.3). -/
def FFmt.encodeSat (f : FFmt) (rnd : Rnd) (r : Nat) : Val → Nat
  | .nan => f.nan
  | .inf neg => f.sign neg + f.maxFin
  | .fin neg m e => f.sign neg + (if m = 0 then 0 else Nat.min f.maxFin (f.roundMag rnd r neg m e))

/-! Exact operations. -/

def Val.neg : Val → Val
  | .nan => .nan
  | .inf s => .inf (!s)
  | .fin s m e => .fin (!s) m e

/-- A dyadic number as an integer in units of 2^q, for q at or below its exponent. -/
def scaled (s : Bool) (m : Nat) (e q : Int) : Int := (if s then -1 else 1) * ((m * 2 ^ (e - q).toNat : Nat) : Int)

/-- A sum, exact; a zero sum of numbers that are not both zeros of one sign is +0, or -0 when rounding down (IEEE 754). -/
def Val.add (rnd : Rnd) : Val → Val → Val
  | .nan, _ => .nan
  | _, .nan => .nan
  | .inf a, .inf b => if a == b then .inf a else .nan
  | .inf a, _ => .inf a
  | _, .inf b => .inf b
  | .fin s m e, .fin t n g =>
    let q := min e g
    let x := scaled s m e q + scaled t n g q
    if x = 0 then .fin (if m = 0 && s == t then s else rnd == .down) 0 0
    else .fin (decide (x < 0)) x.natAbs q

/-- A product, exact. -/
def Val.mul : Val → Val → Val
  | .nan, _ => .nan
  | _, .nan => .nan
  | .inf a, .inf b => .inf (a != b)
  | .inf a, .fin t n _ => if n = 0 then .nan else .inf (a != t)
  | .fin s m _, .inf b => if m = 0 then .nan else .inf (s != b)
  | .fin s m e, .fin t n g => .fin (s != t) (m * n) (e + g)

/-- The exact sum of a list; an exact zero is +0, NaN or infinities of both signs give NaN (R150, R151, R587). -/
def sumVals (l : List Val) : Val :=
  let s := l.foldl (fun a b =>
    match Val.add .nearest a b with
    | .fin _ 0 _ => .fin false 0 0
    | v => v) (.fin false 0 0)
  s

/-- Whether a is less than b; neither is NaN. -/
def Val.lt : Val → Val → Bool
  | .inf a, .inf b => a && !b
  | .inf a, _ => a
  | _, .inf b => !b
  | .fin s m e, .fin t n g =>
    let q := min e g
    decide (scaled s m e q < scaled t n g q)
  | _, _ => false

/-- Equality of values, with -0 equal to +0. -/
def Val.eqv : Val → Val → Bool
  | .nan, _ => false
  | _, .nan => false
  | a, b => !a.lt b && !b.lt a

/-- The sign of a value, zeros included. -/
def Val.isNeg : Val → Bool
  | .nan => false
  | .inf s => s
  | .fin s _ _ => s

/-- a orders below b, -0 below +0. -/
def Val.below (a b : Val) : Bool := a.lt b || (a.eqv b && a.isNeg && !b.isNeg)

/-! Element operations on encodings. -/

/-- Floating-point ADD, SUB, MUL and FMA (R586). -/
def FFmt.add (f : FFmt) (rnd : Rnd) (r a b : Nat) : Nat := f.encode rnd r (Val.add rnd (f.decode a) (f.decode b))
def FFmt.sub (f : FFmt) (rnd : Rnd) (r a b : Nat) : Nat := f.encode rnd r (Val.add rnd (f.decode a) (f.decode b).neg)
def FFmt.mul (f : FFmt) (rnd : Rnd) (r a b : Nat) : Nat := f.encode rnd r (Val.mul (f.decode a) (f.decode b))
def FFmt.fma (f : FFmt) (rnd : Rnd) (r a b c : Nat) : Nat :=
  f.encode rnd r (Val.add rnd (Val.mul (f.decode a) (f.decode b)) (f.decode c))

/-- minimumNumber and maximumNumber (R587). -/
def FFmt.minNum (f : FFmt) (a b : Nat) : Nat :=
  match f.decode a, f.decode b with
  | .nan, .nan => f.nan
  | .nan, _ => b
  | _, .nan => a
  | x, y => if y.below x then b else a
def FFmt.maxNum (f : FFmt) (a b : Nat) : Nat :=
  match f.decode a, f.decode b with
  | .nan, .nan => f.nan
  | .nan, _ => b
  | _, .nan => a
  | x, y => if x.below y then b else a

/-- IEEE 754 binary64, in which AT.FADD of SIZE 3 adds (log 23). -/
def f64 : FFmt := ⟨11, 52, 1023, 0x7FEFFFFFFFFFFFFF, some 0x7FF0000000000000, 0x7FF0000000000001, 0x7FF8000000000000⟩

/-- AT.FADD and RED.FADD (R124): nearest-even. -/
def faddN (bytes : Nat) (a b : Nat) : Nat := if bytes = 8 then f64.add .nearest 0 a b else f32.add .nearest 0 a b

/-- A number of `w` bits as a signed integer. -/
def sgn (w x : Nat) : Int := if x % 2 ^ w < 2 ^ (w - 1) then (x % 2 ^ w : Nat) else ((x % 2 ^ w : Nat) : Int) - 2 ^ w

/-- An integer kept to `w` bits. -/
def wrapI (w : Nat) (i : Int) : Nat := (i % (2 ^ w : Int)).toNat

/-- An integer as an exact value. -/
def Val.ofInt (i : Int) : Val := .fin (decide (i < 0)) i.natAbs 0

/-- Rounds a value to an integer and saturates it to `lo .. hi`; NaN gives 0 (R587). -/
def Val.toInt (rnd : Rnd) (r : Nat) (lo hi : Int) : Val → Int
  | .nan => 0
  | .inf true => lo
  | .inf false => hi
  | .fin s m e =>
    let n : Int := roundAt rnd r s m e 0
    max lo (min hi (if s then -n else n))

/-- The integer square root by halving steps, `k` bits of it. -/
def isqrt (n : Nat) : Nat → Nat → Nat
  | 0, acc => acc
  | k + 1, acc => isqrt n k (if (acc + 2 ^ k) * (acc + 2 ^ k) ≤ n then acc + 2 ^ k else acc)

/-- SQRT (R588): correctly rounded to nearest-even; a sticky bit stands for the rest of the root. -/
def sqrt32 (x : Nat) : Nat :=
  match f32.decode x with
  | .nan => f32.nan
  | .inf true => f32.nan
  | .inf false => x
  | .fin s m e =>
    if m = 0 then x
    else if s then f32.nan
    else
      let odd := e % 2 != 0
      let m' := (if odd then 2 * m else m) * 2 ^ 60
      let e' := (if odd then e - 1 else e) - 60
      let root := isqrt m' 46 0
      f32.encode .nearest 0 (.fin false (2 * root + (if root * root = m' then 0 else 1)) (e' / 2 - 1))

end Sys2Proof.Machine
end

