-- ==== Sys2Proof/Machine/StateCore.lean ====
section
/-! DEFINITION. Machine/StateCore.lean: the state of cores, groups, kernel launches and clusters (chapters 04 to 08).

Each field's docstring names its rule, its width and its reset value; INVENTORY.md lists the same.  A field whose docstring
says `model` is the model's own bookkeeping (an age, a since-time, an identifier), not a register of the spec. -/

namespace Sys2Proof.Machine

/-- What a group waits for (R82, R87, R122, R126). -/
inductive Wait where
  | none
  /-- EVT.WAIT on counter `ctr` (0-63 of the core) since Tide `since` (R87, R128). -/
  | event (ctr : Nat) (thr : Word) (consume : Bool) (deadline : Option Nat) (pd : Nat) (since : Nat)
  /-- FENCE.REL over the group's accesses with identifiers below `upto`; `remote` at SCOPE 2 (R122). -/
  | fence (upto : Nat) (remote : Bool)
  /-- An asynchronous operation issued with EVE = 0 (R126). -/
  | op (id : Nat)
  deriving DecidableEq, Repr

/-- One lane of a random-number stream (R186, R187). -/
structure RngLane where
  /-- R186; 127 bits; reset 0 (DESIGN CHOICE, log 5). Shift register A. -/
  a : BitVec 127
  /-- R186; 31 bits; reset 0 (DESIGN CHOICE, log 5). Shift register B. -/
  b : BitVec 31
  /-- R187; 64 bits; reset 0. Draw position. -/
  pos : DWord
  deriving DecidableEq, Repr

/-- Whether a group's streams are seeded, and from what (R189, R190, R194). -/
inductive Seeding where
  | unseeded | seeded | trueRandom
  deriving DecidableEq, Repr

/-- A resident thread group (R76, R77, R109). -/
structure Group where
  /-- R76; 1 bit; reset 0. The slot holds a resident group. -/
  live : Bool
  /-- R119; 1 bit; reset 0. The group has issued EXIT. -/
  exited : Bool
  /-- R76; model; reset 0. Key of the group's block. -/
  block : Nat
  /-- R76; 5 bits; reset 0. Group index within the block. -/
  index : Nat
  /-- R83; model; reset 0. Launch order, by which older groups are known. -/
  age : Nat
  /-- R80; 2 bits; reset 0. Sub-scheduler that holds the group. -/
  sub : Nat
  /-- R107; 32 bits; reset 0. Program counter, a word index in CODE. -/
  pc : Word
  /-- R77, R109; 32 lanes x up to 256 x 32 bits; reset 0 (R76 at launch). v-registers, key 32*reg + lane. -/
  v : Tbl Word
  /-- R109; 64 x 32 bits; reset 0 (R76 at launch). u-registers. -/
  u : Tbl Word
  /-- R109, R110; 7 x 32 bits; reset 0 (R76 at launch). Predicates p1-p7, bit l for lane l. -/
  p : Tbl Word
  /-- R82; model; reset none. What the group waits for. -/
  wait : Wait
  /-- R190, R194; model; reset unseeded. Seeding of the group's streams. -/
  seeding : Seeding
  /-- R186; 32 lanes; reset empty. Stream lanes, key the lane. -/
  lanes : Tbl RngLane
  /-- R192; 1 bit; reset 0. The lane states are lent to the Ordering Unit. -/
  lent : Bool
  deriving DecidableEq, Repr

/-- A resident block (R76, R81, R94). -/
structure Block where
  /-- R81; 1 bit; reset 0. The slot holds a resident block. -/
  live : Bool
  /-- R76; model; reset 0. Key of the kernel launch the block belongs to. -/
  krn : Nat
  /-- R76; 32 bits; reset 0. Block id. -/
  id : Nat
  /-- R83; model; reset 0. Launch order. -/
  age : Nat
  /-- R94; Tide ns; reset 0. Tide at launch. -/
  launched : Nat
  /-- R94; steps; reset 0. Step-monitor count at launch. -/
  stepsAt : Nat
  /-- R81, R207; 10 bits; reset 0. First 1 KiB granule of the block's local-memory allocation. -/
  base : Nat
  /-- R81; 10 bits; reset 0. Granules of the allocation. -/
  granules : Nat
  /-- R81; 1 bit; reset 0. The block uses the accumulator tiles. -/
  usesAcc : Bool
  /-- R103; Tide ns; reset 0. Time for which the block's timers have stood still under a halt. -/
  paused : Nat
  /-- R103; steps; reset 0. Step-monitor steps that passed under a halt. -/
  pausedSteps : Nat
  deriving DecidableEq, Repr

/-- A kernel descriptor (Table 05.11). -/
structure KernelDesc where
  entry : Nat
  length : Nat
  n : Nat
  g : Nat
  replayable : Bool
  usesAcc : Bool
  localBytes : Nat
  blocks : Nat
  argBytes : Nat
  counters : DWord
  nameOff : Nat
  recvBytes : Nat
  deriving DecidableEq, Repr

/-- A kernel launch that has been accepted and has not ended (R190, R383; the manual's "kernel instance"). -/
structure Krn where
  /-- R343; model; reset 0. The slot holds a launch. -/
  live : Bool
  /-- R384; 7 bits; reset 0. Partition. -/
  part : Nat
  /-- R343; 32 bits; reset 0. INSTANCE, chosen by the caller. -/
  num : Nat
  /-- R383; 1 bit; reset 0. Launched by the step builder, as graph node `node`. -/
  fromStep : Bool
  /-- R400; model; reset 0. Graph node. -/
  node : Nat
  /-- Table 13.4; 32 bits; reset 0. HANDLE of the loaded image. -/
  handle : Nat
  /-- Table 13.4; 32 bits; reset 0. Kernel index. -/
  kernel : Nat
  /-- R133; 64 bytes; reset 0. The kernel's descriptor. -/
  desc : KernelDesc
  /-- R119, R131; 52 bits; reset 0. Virtual address of word 0 of CODE. -/
  code : Nat
  /-- Table 13.4; 64 bits; reset 0. CLUSTER_MASK, device clusters. -/
  clusters : DWord
  /-- R76; 52 bits; reset 0. Kernel-argument address. -/
  args : Nat
  /-- R190; 128 bits; reset 0. Stream key. -/
  key : BitVec 128
  /-- R190; 32 bits; reset 0. Draw epoch. -/
  epoch : Word
  /-- R190; 1 bit; reset 0. KEY_VALID. -/
  keyValid : Bool
  /-- R383; 1 bit; reset 0. Latency-critical class. -/
  lc : Bool
  /-- R387; model; reset 0. Order of acceptance. -/
  accepted : Nat
  /-- Table 05.11, R400; 32 bits; reset 0. Blocks of this launch. -/
  total : Nat
  /-- R79; 32 bits; reset 0. Next block id to launch. -/
  next : Nat
  /-- R278; 32 bits; reset 0. Blocks that have ended. -/
  ended : Nat
  /-- R97; model; reset empty. Lost blocks to relaunch, as (cluster, block id). -/
  replay : List (Nat × Nat)
  /-- R195; 1 bit; reset 0. A draw came from streams seeded under R194. -/
  unseeded : Bool
  /-- R97, Table 13.4; 1 bit; reset 0. Blocks were replayed (KRN.WAIT FLAGS[0]). -/
  replayed : Bool
  /-- R93; 1 bit; reset 0. Issue has stopped and the launch ends with ABORTED. -/
  stopped : Bool
  /-- R78; 1 bit per cluster; reset empty. Bank held in a cluster, value bank + 1. -/
  banks : Tbl Nat
  /-- R78; per core; reset empty. First granule of the receive area on a core, plus 1. -/
  recv : Tbl Nat
  /-- R387; Tide ns per cluster; reset empty. Tide since which the next block has fitted nowhere, plus 1. -/
  holdSince : Tbl Nat
  /-- R387; per cluster; reset empty. 1 when the 1 ms placement hold is in force in a cluster. -/
  holding : Tbl Nat
  /-- R92; Tide ns; reset 0. Tide of the last signal or packet delivery of the launch. -/
  netTide : Nat
  /-- R91, R92; Tide ns per core; reset empty. Tide at which an operation of the launch last completed on a core. -/
  opTide : Tbl Nat
  /-- R91, R92; Tide ns per core; reset empty. Tide at which a group of the launch last exited or was lost on a core. -/
  leftTide : Tbl Nat
  deriving DecidableEq, Repr

/-- A line of the L1 data cache (R208).  Its Tail is `Machine.tailOf` of its data. -/
structure L1Line where
  /-- R208; 1 bit; reset 0. The way holds a line. -/
  valid : Bool
  /-- R208; 42 bits; reset 0. Line address. -/
  line : Nat
  /-- R208; 64 bytes; reset 0. Data. -/
  data : LineData
  deriving DecidableEq, Repr

/-- The T-format instructions (Table 05.7). -/
inductive TKind where
  | tmma | tzero | tload | tstore
  deriving DecidableEq, Repr

/-- A T instruction in the tensor engine's queue (R141).  `lanes` are the stream lanes reserved for a stochastic TSTORE
at issue (R158, R192). -/
structure TOp where
  id : Nat
  gid : Nat
  krn : Nat
  block : Nat
  kind : TKind
  f : FmtT
  lanes : Tbl RngLane
  deriving DecidableEq, Repr

/-- A logical core (R75, chapter 04). -/
structure Core where
  /-- R82, R507; 1 bit; reset 0. Halted under INVASIVE debug. -/
  halted : Bool
  /-- R103; Tide ns; reset 0. Tide at which the halt began. -/
  haltedAt : Nat
  /-- R103; steps; reset 0. Step count at which the halt began. -/
  haltedSteps : Nat
  /-- R206; 512 KiB; reset zero (R207 zeroes it when the cluster passes; before that DESIGN CHOICE, log 3). Local memory. -/
  loc : Tbl Byte
  /-- R208; 2,048 lines in 256 sets of 8 ways, key 8*set + way; reset invalid. L1 data cache. -/
  l1 : Tbl L1Line
  /-- R590; 7 bits per set; reset 0. Pseudo-LRU bits b0-b6, bit i for b_i. -/
  plru : Tbl (BitVec 7)
  /-- R210; 64 KiB; reset empty. Lines of the instruction cache: virtual line address and bytes, oldest first. -/
  icache : List (Nat × LineData)
  /-- R78, R87; 64 x 32 bits; reset 0. Event counters, bank 0 in 0-31 and bank 1 in 32-63. -/
  ctr : Tbl Word
  /-- R91, R100; Tide ns per counter; reset 0. Tide of the last change of a counter. -/
  ctrTide : Tbl Nat
  /-- R70; packets; reset 0. Packets that the ejection port holds for the core while it is halted. -/
  ejected : Nat
  /-- R141; 4 entries; reset empty. Tensor queue, oldest first. -/
  tq : List TOp
  /-- R109; 8 x 128 x 128 x 32 bits; reset 0 (R143). Accumulator tiles, key 16384*tile + 128*row + column. -/
  acc : Tbl Word
  /-- R222; 64 entries; reset empty. Virtual pages (64 KiB) held by the core's TLB. -/
  tlb : List Nat
  /-- R536; Tide ns; reset 0. Tide of the last issue. -/
  issueTide : Nat
  deriving DecidableEq, Repr

/-- The six operations of the Ordering Unit (Table 07.3). -/
inductive OrdOp where
  | sort | topk | argmax | nearest | search | sample
  deriving DecidableEq, Repr

/-- A descriptor of the Ordering Unit as read at issue (Table 07.1). -/
structure OrdFields where
  inp : DWord
  out : DWord
  aux : DWord
  scratch : DWord
  n : Nat
  k : Nat
  d : Nat
  rows : Nat
  ctrl : Word
  temp : Word
  stride : Nat
  deriving DecidableEq, Repr

/-- A descriptor in an Ordering Unit's queue (R163, R165). -/
structure OrdDesc where
  /-- model. Identifier of the operation. -/
  id : Nat
  op : OrdOp
  gid : Nat
  krn : Nat
  core : Nat
  /-- R167; 52 bits. Virtual address of the descriptor. -/
  va : Nat
  f : OrdFields
  /-- R165; model. Next row. -/
  row : Nat
  /-- R127; the status and detail once they are known. -/
  status : Option (Nat × Nat)
  eve : Bool
  ec : Nat
  /-- R192; the group's lane states while they are lent. -/
  lanes : Tbl RngLane
  /-- R176; the stream was seeded under R194. -/
  unseeded : Bool
  deriving DecidableEq, Repr

/-- State of a physical core in the repair map (R540). -/
inductive PhysCore where
  | good | spare | onceFailed | failed
  deriving DecidableEq, Repr

/-- `TELEM_STEPRATE` of a cluster (R47, R48). -/
structure StepRate where
  /-- R47; 24 bits; reset 0. STEPS_10US. -/
  steps : BitVec 24
  /-- R47; 8 bits; reset 0. TJ. -/
  tj : Byte
  /-- R47; 3 bits; reset 2. OP. -/
  op : BitVec 3
  /-- R47; 1 bit; reset 0. MIXED. -/
  mixed : Bool
  /-- R47; 1 bit; reset 0. VALID. -/
  valid : Bool
  deriving DecidableEq, Repr

/-- A cluster (R15, chapters 04, 07, 19 and 20). -/
structure Cluster where
  /-- R348; 7 bits; reset 0. Partition that holds the cluster, 0 for none. -/
  owner : Nat
  /-- R511; 1 bit; reset 0. Power-gated. -/
  gated : Bool
  /-- R47; Tide ns; reset 0. Tide since which the cluster has been powered. -/
  poweredAt : Nat
  /-- R511; Tide ns; reset 0. Tide since which the cluster has been idle. -/
  idleSince : Nat
  /-- R538; 1 bit; reset 0. Fenced as a whole. -/
  fenced : Bool
  /-- TELEM_CORE_MAP, R99; 16 bits; reset 0. LIVE. -/
  live : BitVec 16
  /-- TELEM_CORE_MAP, R99; 5 bits; reset 0. SPARE. -/
  spare : BitVec 5
  /-- TELEM_CORE_MAP, R99; 1 bit; reset 0. SPARE_VALID. -/
  spareValid : Bool
  /-- TELEM_CORE_MAP, R99; 4 bits; reset 0. PENDING. -/
  pending : BitVec 4
  /-- TELEM_CORE_MAP, R99; 1 bit; reset 0. PENDING_VALID. -/
  pendingValid : Bool
  /-- R96, R540; 16 x 5 bits; reset 0. Physical index of each logical core. -/
  phys : Tbl Nat
  /-- R47; 64 bits; reset 0. Steps the step monitor has completed. -/
  steps : Nat
  /-- R94, R101; Tide ns; reset 0. Tide at which `steps` last rose. -/
  stepsTide : Nat
  /-- R47; 64 bits; reset OP 2, else 0. TELEM_STEPRATE. -/
  rate : StepRate
  /-- R78; reset empty. Bank 0's holder, a launch key plus 1. -/
  bank0 : Nat
  /-- R78; reset empty. Bank 1's holder, a launch key plus 1. -/
  bank1 : Nat
  /-- R163; 32 entries; reset empty. Ordering Unit queue in order of acceptance. -/
  ordq : List OrdDesc
  /-- R222; 2,048 entries; reset empty. Virtual pages held by the cluster's TLB, as (partition, page). -/
  tlb : List (Nat × Nat)
  deriving DecidableEq, Repr

/-- What an outstanding M-format access does (R120, R124). -/
inductive MemKind where
  | load | store | atomic (op : AtomOp) | red (op : AtomOp)
  deriving DecidableEq, Repr

/-- Where an access lands (R220, R430, R431). -/
inductive Target where
  /-- A byte address of local memory of the op's core. -/
  | localMem (off : Nat)
  /-- A device physical byte address. -/
  | hbm (pa : Nat)
  /-- A host physical byte address. -/
  | host (ha : Nat)
  /-- A link window's destination device, partition and remote virtual address. -/
  | window (dst : Nat) (part : Nat) (va : Nat)
  deriving DecidableEq, Repr

/-- One lane's access (R284): its virtual or local address, and where it lands. -/
structure LaneAcc where
  lane : Nat
  addr : Nat
  tgt : Target
  /-- Operand (or compare value) and swap value, then the old value once an atomic is performed. -/
  data : BitVec 128
  swap : DWord
  /-- R431; model. The lane's frame has left for the other device. -/
  sent : Bool
  done : Bool
  /-- R264; model. The L1 was invalidated while the lane's load was in flight: its line does not allocate. -/
  noFill : Bool
  deriving DecidableEq, Repr

/-- An outstanding access of a group (R82, R121, R263). -/
structure MemOp where
  id : Nat
  gid : Nat
  krn : Nat
  core : Nat
  block : Nat
  part : Nat
  kind : MemKind
  /-- Bytes of each lane's access. -/
  bytes : Nat
  vds : Nat
  lanes : List LaneAcc
  space : Space
  ord : MemOrd
  eve : Bool
  ec : Nat
  lc : Bool
  /-- R526: the read path has been retried once. -/
  retried : Bool
  deriving DecidableEq, Repr

/-- An EVT.SIG in the network (R89, R90). -/
structure Sig where
  id : Nat
  krn : Nat
  part : Nat
  src : Nat
  core : Nat
  ec : Nat
  n : Nat
  lc : Bool
  deriving DecidableEq, Repr

/-- A FLUSH in progress (R123, R126). -/
structure FlushOp where
  id : Nat
  gid : Nat
  krn : Nat
  core : Nat
  part : Nat
  va : Nat
  len : Nat
  eve : Bool
  ec : Nat
  deriving DecidableEq, Repr

/-- A copy in a copy engine's queue (R225, Table 09.3). -/
structure CopyOp where
  id : Nat
  gid : Nat
  krn : Nat
  core : Nat
  /-- R227; model. First byte of the issuing block's local-memory allocation. -/
  base : Nat
  part : Nat
  va : Nat
  src : Nat
  dst : Nat
  len : Nat
  rows : Nat
  ctrl : BitVec 16
  spitch : Nat
  dpitch : Nat
  eve : Bool
  ec : Nat
  /-- R225; model. Bytes copied or sent so far, row by row. -/
  pos : Nat
  /-- R227; model. The status that ends the copy, once it is known. -/
  status : Option (Nat × Nat)
  /-- R231; model. Address of the unmapped page that ends the copy with ADDRESS_FAULT. -/
  faultAt : Option Nat
  deriving DecidableEq, Repr

/-- State of one target of a multicast (R62, R63). -/
structure McTarget where
  /-- R62; model; reset empty. Packets written, by number. -/
  got : List Nat
  /-- R63, R69; 1 bit; reset 0. The target is marked undelivered. -/
  undelivered : Bool
  /-- R63; Tide ns; reset 0. Tide at which the port stopped accepting, plus 1; 0 while it accepts. -/
  blocked : Nat
  /-- R70; packets; reset 0. The operation's share of the ejection port's buffer. -/
  buffered : Nat
  deriving DecidableEq, Repr

/-- A multicast in progress (R60-R65, Table 05.9). -/
structure McastOp where
  id : Nat
  gid : Nat
  krn : Nat
  core : Nat
  part : Nat
  targets : List Nat
  ctr : BitVec 16
  dst : Nat
  packets : Nat
  /-- R130; the operation breaks a condition and sends nothing. -/
  invalid : Bool
  payload : List Byte
  record : Nat
  state : Tbl McTarget
  eve : Bool
  ec : Nat
  deriving DecidableEq, Repr

end Sys2Proof.Machine
end

