-- ==== Sys2Proof/Machine/StateMem.lean ====
section
/-! DEFINITION. Machine/StateMem.lean: the state of the memory system (chapters 09, 10 and 20): HBM, the slices and their
directories, the remote-line caches, the coherence messages in flight, read-ahead and the HBM units. -/

namespace Sys2Proof.Machine

/-- The states of Table 10.1 that an RLC records; I is "no entry". -/
inductive RlcSt where
  | m | e | f | s
  deriving DecidableEq, Repr

/-- A line held by an LLC slice (R213); for a host line (R254) `host` is its state toward the host. -/
structure LlcLine where
  /-- R213; 64 bytes; reset not held. Data; its Tail is `Machine.tailOf`. -/
  data : LineData
  /-- R213; 1 bit; reset not held. Dirty with respect to HBM. -/
  dirty : Bool
  /-- R522; 1 bit; reset not held. The line carries the poison Tail. -/
  poison : Bool
  /-- R213; 4 bits; reset not held. Way. -/
  way : Nat
  /-- R213; model; reset not held. Stamp of the last use, by which the least recently used way is known. -/
  lru : Nat
  /-- R407; model; reset not held. Partition plus 1 whose prefetch filled the line and that no demand has hit; else 0. -/
  ra : Nat
  /-- R254; 2 bits; reset not held. State toward the host of a host line. -/
  host : HostGrant
  deriving DecidableEq, Repr

/-- A line held by an RLC (R216, R239). -/
structure RlcLine where
  /-- R239; Table 10.1; reset not held. State. -/
  st : RlcSt
  /-- R216; 64 bytes; reset not held. Data. -/
  data : LineData
  /-- R522; 1 bit; reset not held. The line carries the poison Tail. -/
  poison : Bool
  /-- R216; 4 bits; reset not held. Way. -/
  way : Nat
  /-- R216; model; reset not held. Stamp of the last use. -/
  lru : Nat
  /-- R217; model; reset not held. Partition plus 1 whose read-ahead filled the line and that no demand has hit; else 0. -/
  ra : Nat
  deriving DecidableEq, Repr

/-- Directory states (R241); Uncached is "no entry". -/
inductive DirSt where
  | shared | ownedRlc | ownedHost
  deriving DecidableEq, Repr

/-- A directory entry (R241). -/
structure DirEntry where
  /-- R241; 2 bits; reset no entry. State. -/
  st : DirSt
  /-- R241; 8 bits; reset no entry. Sharer vector. -/
  sharers : BitVec 8
  /-- R241; 4 bits; reset no entry. F holder or owner, an RLC number plus 1; 0 for none. -/
  f : Nat
  /-- R241; 1 bit; reset no entry. Host bit. -/
  host : Bool
  /-- R241; 1 bit; reset no entry. Owner-ordered. -/
  ownerOrd : Bool
  /-- R256; model; reset no entry. Stamp of the last use. -/
  lru : Nat
  deriving DecidableEq, Repr

/-- Requests that reach a home (Table 10.2), and the host's accesses (R253). -/
inductive HomeKind where
  | rds (ra : Bool) | rdx | upgr | rdcur
  | wrline (data : LineData) (poison : Bool)
  | wrpart (data : LineData) (mask : DWord) (bad : Bool)
  | atom (op : AtomOp) (offset : Nat) (wide : Bool) (opnd cmp : DWord) (bad : Bool)
  | flush
  | hostRd (mv : MetaValue)
  | hostWr (data : LineData)
  /-- R249, R256: the home takes every copy back: an entry is evicted, or an agent's access waits on the host. -/
  | takeBack
  /-- R261: the line's entry failed its parity check. -/
  | rebuild
  deriving DecidableEq, Repr

/-- A request at its home (R242): the agent (0-7 an RLC, 8 the host, others name non-caching agents) and line. -/
structure HomeReq where
  kind : HomeKind
  agent : Nat
  line : Nat
  deriving DecidableEq, Repr

/-- An open transaction of a home (R242, R246). -/
structure Txn where
  /-- R242; model. The request being served. -/
  req : HomeReq
  /-- R245; model. Holders whose answers are awaited: RLC numbers, 8 for the host. -/
  waits : List Nat
  /-- R246; model. The requester's data is awaited at the requester. -/
  dataWait : Bool
  /-- R245; model. A forward has been sent, so the holder sends the data. -/
  forwarded : Bool
  /-- R242; model. The line was Shared when the transaction opened, and the request only reads: another read may pass. -/
  clean : Bool
  /-- R250; model. The state that a forward which found the line evicted would have given. -/
  grant : Option RlcSt
  /-- R261; model. Holders that have returned M data. -/
  dirties : Nat
  deriving DecidableEq, Repr

/-- Snoops and forwards (Table 10.2). -/
inductive SnoopKind where
  | snpInv | snpData | recall | fwdS | fwdX
  deriving DecidableEq, Repr

/-- Evictions (Table 10.2). -/
inductive EvictKind where
  | wb | eve | evf
  deriving DecidableEq, Repr

/-- A coherence message in flight (R243). -/
inductive CohMsg where
  /-- To RLC `rlc`; `req` is the requester of a forward; `own` marks an owner-ordered forward (R247). -/
  | snoop (k : SnoopKind) (rlc line req : Nat) (own : Bool) (since : Nat)
  | bisnp (inv : Bool) (line since : Nat) (sent : Bool)
  /-- Line data for an RLC; `since` is the Tide, plus 1, at which a forward was answered with it, 0 for the home's own (R259). -/
  | data (st : RlcSt) (rlc line : Nat) (d : LineData) (poison : Bool) (since : Nat)
  | rspI (rlc line since : Nat)
  | rspS (rlc line since : Nat)
  | rspData (rlc line : Nat) (d : LineData) (poison : Bool) (since : Nat)
  | wbInFlight (rlc line req : Nat) (st : RlcSt) (own : Bool) (since : Nat)
  | cmp (agent line : Nat)
  | wback (rlc line : Nat)
  | evict (k : EvictKind) (rlc line : Nat) (d : LineData) (poison : Bool)
  deriving DecidableEq, Repr

/-- A request of an RLC that has no data yet (R244, R248). -/
structure RlcReq where
  rlc : Nat
  line : Nat
  kind : HomeKind
  /-- R248; model. The home has recorded the RLC as holder and data is on its way. -/
  served : Bool
  /-- R214; model. Partition whose way mask applies. -/
  part : Nat
  /-- R406; model. Sequence entry plus 1 whose prefetch sent the request; else 0. -/
  entry : Nat
  /-- R250; model. Forwards on their way to the RLC that were sent before the home granted this request: they concern a line that it
  has evicted. -/
  old : Nat
  /-- R407; model. The prediction of the prefetch was dropped: its bytes count in RUNAHEAD_BYTES when it ends. -/
  dropped : Bool
  deriving DecidableEq, Repr

/-- A line that read-ahead (`entry` 0) or the prefetch for sequence entry `entry` - 1 still has to fetch (R217, R406). -/
structure RaFetch where
  rlc : Nat
  line : Nat
  part : Nat
  entry : Nat
  deriving DecidableEq, Repr

/-- A read-ahead tracker (R217). -/
structure Tracker where
  rlc : Nat
  /-- R217; 35 bits. Aligned 8 KiB block. -/
  block : Nat
  part : Nat
  /-- R217; 7 bits. Line within the block of the last ascending miss. -/
  last : Nat
  /-- R217; 3 bits. Ascending misses seen. -/
  count : Nat
  triggered : Bool
  /-- R217; Tide ns. Tide of the last miss. -/
  lastMiss : Nat
  deriving DecidableEq, Repr

/-- Who holds an HBM unit (R348, R302, R211, R543). -/
inductive UnitUse where
  | free | part (p : Nat) | firmware | hostPool | retired
  deriving DecidableEq, Repr

/-- A 1 GiB HBM unit (R211, R348). -/
structure HbmUnit where
  /-- R348; model; reset free. Use. -/
  use : UnitUse
  /-- R362; 1 bit; reset 0. The unit awaits or undergoes its scrub. -/
  scrub : Bool
  /-- R381; 1 bit; reset 0. A scrub write failed: the unit is retired though its partition still counts it. -/
  failed : Bool
  deriving DecidableEq, Repr

/-- What a shoot-down does when it completes (R224, R359, R367). -/
inductive ShootKind where
  /-- MEM.UNMAP, MEM.PROTECT with the new access, PART.APERTURE unmap: the command of channel `ch` completes. -/
  | unmap (fn : Fn) (ch : Nat)
  | protect (fn : Fn) (ch : Nat) (access : Nat)
  | aperture (fn : Fn) (ch : Nat)
  deriving DecidableEq, Repr

/-- A shoot-down in progress (R224): translation has stopped for virtual range `va .. va+len` of a space. -/
structure Shoot where
  id : Nat
  space : Nat
  va : Nat
  len : Nat
  kind : ShootKind
  /-- Operations in flight when translation stopped. -/
  waits : List Nat
  /-- R224; model. Prefetches and read-aheads (RLC, line) in flight over the pages when translation stopped. -/
  fetches : List (Nat × Nat)
  deriving DecidableEq, Repr

/-- The memory system. -/
structure Mem where
  /-- R211, R213; 288 GiB; reset unlisted bytes read 0 (R561 writes zeros in phase 4; before that DESIGN CHOICE, log 3). HBM. -/
  hbm : Tbl Byte
  /-- R522; 1 bit per line; reset empty. Lines that HBM holds with the poison Tail. -/
  hbmPoison : Tbl Bool
  /-- R219, R497; model; reset empty (0). The key under which HBM holds a line, as `Mach.keyOf` numbers it; 0 for the zeros of R561 and
  R362, which read as such under every key. -/
  lineKey : Tbl Nat
  /-- R548; 2 bits per line; reset 0. Errors injected into HBM: 1 correctable, 2 uncorrectable. -/
  hbmErr : Tbl Nat
  /-- R213; 128 slices x 65,536 lines; reset empty. Slice lines by line address; host lines at `hostKey`. -/
  llc : Tbl LlcLine
  /-- R216; 8 RLCs x 262,144 lines; reset empty. RLC lines, key 8*line + rlc. -/
  rlc : Tbl RlcLine
  /-- R241; 128 slices x 32,768 entries; reset empty. Directory by line address. -/
  dir : Tbl DirEntry
  /-- R242; 128 per slice; reset empty. Open transactions. -/
  txns : List Txn
  /-- R242; model; reset empty. Requests that wait at their homes, oldest first. -/
  homeQ : List HomeReq
  /-- R243; model; reset empty. Messages in flight, oldest first. -/
  msgs : List CohMsg
  /-- R244; model; reset empty. Outstanding requests of the RLCs. -/
  reqs : List RlcReq
  /-- R250, R251; model; reset empty. Evictions (rlc, line, kind) sent and not acknowledged. -/
  evicting : List (Nat × Nat × EvictKind)
  /-- R248; model; reset empty. Accesses (rlc, line, operation) that waited when data arrived and go before a forward. -/
  first : List (Nat × Nat × Nat)
  /-- R217; 32 per RLC; reset empty. Read-ahead trackers. -/
  trackers : List Tracker
  /-- R217, R406; model; reset empty. Lines that read-ahead or a prefetch still has to fetch. -/
  raTodo : List RaFetch
  /-- R213, R256; model; reset 0. Stamp for the least-recently-used orders. -/
  clock : Nat
  /-- R348; 288 units; reset free, not scrubbing. HBM units by number. -/
  units : Tbl HbmUnit
  /-- R221, R258; 1 bit per 64 KiB page; reset 0 (home-ordered). Ordering attribute of the page's last mapping. -/
  pageOrd : Tbl Bool
  /-- R542, R543; 4,096 entries; reset as secure flash holds it: empty (DESIGN CHOICE, log 6). Retired pages (64 KiB). -/
  retired : List Nat
  /-- R542; model; reset empty. Poison events (page, Tide) since cold start. -/
  poisonHist : List (Nat × Nat)
  /-- R542; model; reset empty. Pages to retire when next free. -/
  retireWhenFree : List Nat
  /-- R224; model; reset empty. Shoot-downs in progress. -/
  shoots : List Shoot
  /-- R223; 8,192 entries per I/O die; reset empty. Address translation caches: key `atcKey` of die, function's space and host page
  (64 KiB), value the translated page plus 1, or 0 for "no translation". -/
  atc : Tbl Nat
  /-- R223; model; reset empty. ATS translation requests (space, host page) that await the host. -/
  atsWait : List (Nat × Nat)
  /-- R223, R306; 32 per function; reset empty. ATS invalidations (space, host page, translated page plus 1) that accesses in flight hold
  up. -/
  atsInv : List (Nat × Nat × Nat)
  /-- R218; 8 bits; reset 0. Stacks limited to half bandwidth (R463). -/
  stackHalf : BitVec 8
  /-- R548; 1 bit; reset 0. KIND 3 injection: the line's next slice-port write mismatches, as line plus 1. -/
  injectWrite : Nat
  deriving DecidableEq, Repr

/-- The memory system with nothing held. -/
def Mem.reset : Mem :=
  { hbm := [], hbmPoison := [], lineKey := [], hbmErr := [], llc := [], rlc := [], dir := [], txns := [], homeQ := [], msgs := [], reqs := [],
    evicting := [], first := [], trackers := [], raTodo := [], clock := 0, units := [], pageOrd := [], retired := [],
    poisonHist := [], retireWhenFree := [], shoots := [], atc := [], atsWait := [], atsInv := [], stackHalf := 0,
    injectWrite := 0 }

end Sys2Proof.Machine
end

