-- ==== Sys2Proof/Machine/StateHost.lean ====
section
/-! DEFINITION. Machine/StateHost.lean: the state of host ports, functions, mailboxes, partitions, the sequence table and
the step builders (chapters 12 to 15). -/

namespace Sys2Proof.Machine

/-- A command that Moon has taken, or its parts (R328, R330). -/
structure Cmd where
  opcode : Nat
  tag : Nat
  /-- R329; the bytes of the parameter area. -/
  params : List Byte
  /-- R322; the doorbell's sequence number in P mode. -/
  seq : Nat
  /-- R330; the block's virtual address in P mode. -/
  ptr : Nat
  pmode : Bool
  deriving DecidableEq, Repr

/-- A response that Moon holds until it is posted (R331). -/
structure Reply where
  opcode : Nat
  tag : Nat
  status : Nat
  detail : Nat
  result : List Byte
  seq : Nat
  ptr : Nat
  pmode : Bool
  /-- R331; model. The P-mode block is completed in memory and only the notice waits. -/
  written : Bool
  /-- R340; model. The channel hardware made it during a restart. -/
  hw : Bool := false
  /-- R340; model. The TAG of its P-mode block is still to be read. -/
  unread : Bool := false
  /-- R333; model. An unsolicited notice. -/
  notice : Bool := false
  /-- R343; model. INSTANCE of the KRN.WAIT that it answers. -/
  num : Nat := 0
  deriving DecidableEq, Repr

/-- What a command whose answer is deferred waits for (R332, R343, R352, R368, R394, R405, R517, R224). -/
inductive Defer where
  | krn (part num : Nat) (deadline : Option Nat)
  | freeze (part : Nat)
  | destroy (part : Nat)
  | step (part : Nat)
  | admitSeq (part entry : Nat)
  | shoot (id : Nat)
  deriving DecidableEq, Repr

/-- A mailbox channel (R319 to R333). -/
structure Chan where
  /-- R319; 1 bit; reset 0. MBX_CTL.MODE: P mode. -/
  mode : Bool
  /-- R319; 1 bit; reset 0. MBX_CTL.IRQ_EN. -/
  irqEn : Bool
  /-- R319; 1 bit; reset 1. MBX_CTL.ENABLE. -/
  enable : Bool
  /-- R322; 16 words; reset empty. Inbound queue. -/
  inq : List Word
  /-- R328; model; reset 0. Parameter words still to come of the newest command in `inq`. -/
  need : Nat
  /-- R322; 16 words; reset empty. Outbound queue. -/
  outq : List Word
  /-- R322; 8 entries; reset empty. Inbound doorbells with their sequence numbers. -/
  dbq : List (Nat × Nat)
  /-- R322; 8 entries; reset empty. Outbound notices. -/
  notices : List DWord
  /-- R319; 1 bit; reset 0. MBX_STATUS.OVERRUN. -/
  overrun : Bool
  /-- R319; 1 bit; reset 0. MBX_STATUS.ABANDONED. -/
  abandoned : Bool
  /-- R319; 1 bit; reset 0. MBX_STATUS.TICKET_SKIP. -/
  ticketSkip : Bool
  /-- R319; 16 bits; reset 0. MBX_TICKET.NEXT. -/
  next : BitVec 16
  /-- R319; 16 bits; reset 0. MBX_TICKET.SERVING. -/
  serving : BitVec 16
  /-- R322; 16 bits; reset 0. Sequence number of the next doorbell. -/
  seqNo : BitVec 16
  /-- R328; Tide ns; reset 0. Tide at which the header of the partial command arrived. -/
  headerTide : Nat
  /-- R326; Tide ns; reset 0. Tide at which SERVING last advanced, or a ticket was taken while it stood still. -/
  servingTide : Nat
  /-- R332; model; reset none. The command being performed whose answer is deferred. -/
  cur : Option (Cmd × Defer)
  /-- R331; model; reset empty. Responses and notices held for posting, oldest first. -/
  held : List Reply
  /-- R299; 32 bits; reset 0. Lower half of MBX_DOORBELL most recently written. -/
  dbLow : Word
  /-- R344; model; reset empty. Resets that began while commands were in flight: the partition, and how many commands at the front of the
  channel then were. -/
  abort : List (Nat × Nat)
  deriving DecidableEq, Repr

/-- The reset values of a channel (R319). -/
def Chan.reset : Chan :=
  { mode := false, irqEn := false, enable := true, inq := [], need := 0, outq := [], dbq := [], notices := [],
    overrun := false, abandoned := false, ticketSkip := false, next := 0, serving := 0, seqNo := 0, headerTide := 0,
    servingTide := 0, cur := none, held := [], dbLow := 0, abort := [] }

/-- An MSI-X table entry (R307). -/
structure MsixEntry where
  /-- R307; 64 bits; reset 0. Message address. -/
  addr : DWord
  /-- R307; 32 bits; reset 0. Message data. -/
  data : Word
  /-- R307, R351; 1 bit; reset 1. Masked. -/
  masked : Bool
  deriving DecidableEq, Repr

/-- TDISP state of a VF (R311). -/
inductive Tdisp where
  | unlocked | locked | run | error
  deriving DecidableEq, Repr

/-- A function's configuration and MSI-X state (R305, R307, R311, R315, R316). -/
structure FnState where
  /-- R315; 1 bit; reset 0. Memory Space Enable. -/
  mse : Bool
  /-- R307; 1 bit; reset 0. MSI-X Enable. -/
  msixEn : Bool
  /-- R307; 1 bit; reset 0. MSI-X Function Mask. -/
  msixMask : Bool
  /-- R315; 1 bit; reset 0. The function is in D3hot. -/
  d3hot : Bool
  /-- R307; table entries by vector; reset masked. MSI-X table. -/
  table : Tbl MsixEntry
  /-- R307; 1 bit per vector; reset 0. PBA. -/
  pba : Tbl Bool
  /-- R297; GiB; reset 1. Size of BAR2 in force. -/
  bar2 : Nat
  /-- R316; GiB; reset 1. Size of BAR2 last written. -/
  bar2New : Nat
  /-- R311; Table 12.3; reset unlocked. TDISP state. -/
  tdisp : Tdisp
  /-- R311; model; reset 0. IDE stream bound to the interface, plus 1. -/
  stream : Nat
  /-- R305; model; reset 0. A VF that stays enabled for its partition though VF Enable or NumVFs no longer covers it. -/
  kept : Bool
  /-- R297; 64 bits each; reset 0 (DESIGN CHOICE 0, log 6). Base addresses of BAR0 and BAR2. -/
  bar0 : DWord
  bar2At : DWord
  /-- R305; 64 bits each; reset 0 (DESIGN CHOICE 0, log 6). Base addresses of the VF BARs, of a physical function. -/
  vfBar0 : DWord
  vfBar2 : DWord
  /-- R311; model; reset 0. Selective IDE stream that carries the host's requests to the function, plus 1; 0 for none. -/
  via : Nat
  /-- R306, R311; 1 bit; reset 0. ATS Enable. -/
  atsEn : Bool
  /-- R292; bytes; reset 128 and 512 (PRESUMED, log 6). Max payload and max read request in force. -/
  payload : Nat
  readReq : Nat
  /-- R308; 4 bits; reset 0. AER status: Unsupported Request, Poisoned TLP, Uncorrectable Internal Error, IDE Check Failed. -/
  aer : BitVec 4
  /-- R308; 4 bits; reset 4 (PRESUMED, log 6). AER severity by the same bits, 1 for fatal. -/
  aerSev : BitVec 4
  /-- R308; 1 bit; reset 0. An advisory non-fatal error is logged. -/
  aerAdvisory : Bool
  deriving DecidableEq, Repr

/-- The reset values of a function (R297, R307, R351). -/
def FnState.reset : FnState :=
  { mse := false, msixEn := false, msixMask := false, d3hot := false, table := [], pba := [], bar2 := 1, bar2New := 1,
    tdisp := .unlocked, stream := 0, kept := false, bar0 := 0, bar2At := 0, vfBar0 := 0, vfBar2 := 0, via := 0, atsEn := false, payload := 128,
    readReq := 512, aer := 0, aerSev := 4, aerAdvisory := false }

/-- An IDE stream (R310, R308). -/
structure IdeStream where
  /-- R310; 256 bits; reset none. Key. -/
  key : BitVec 256
  /-- R308; 1 bit; reset not present. Secure (else Insecure). -/
  secure : Bool
  deriving DecidableEq, Repr

/-- An upstream link (R292 to R295, R305, R309, R312, R317). -/
structure HLink where
  /-- R292; 1 bit; reset 0. The link is up. -/
  up : Bool
  /-- R292; half GT/s; reset 0. Trained rate (128 for 64 GT/s, 5 for 2.5 GT/s). -/
  rate : Nat
  /-- R292; lanes; reset 0. Trained width. -/
  width : Nat
  /-- R294; 1 bit; reset 0. CXL configuration. -/
  cxl : Bool
  /-- R37, R293; 1 bit; reset 1. The port's fundamental reset is asserted. -/
  perst : Bool
  /-- R312; 1 bit; reset 0. Configuration space is ready. -/
  cfgReady : Bool
  /-- R312; 1 bit; reset 0. The Device Readiness Status message has been sent. -/
  drs : Bool
  /-- R305; 1 bit; reset 0. VF Enable. -/
  vfEnable : Bool
  /-- R305; 16 bits; reset 0. NumVFs. -/
  numVfs : Nat
  /-- R317; Tide ns; reset 0. Tide at which the link went down without a reset, plus 1; 0 otherwise. -/
  downAt : Nat
  /-- R309; 1 bit; reset 0. A secured SPDM session is established. -/
  session : Bool
  /-- R496; 1 bit; reset 0. GET_VERSION has negotiated SPDM 1.3. -/
  spdm : Bool
  /-- R309; model; reset 0. DOE Discovery index to return next. -/
  doe : Nat
  /-- R310; streams by number; reset none. IDE streams: 0 the link stream, 1 to 8 selective, 9 CXL IDE. -/
  ide : Tbl IdeStream
  /-- R310; Table 12.1; reset off. Mode of CXL IDE. -/
  cxlIde : CxlIdeMode
  /-- R292; Table 12.1; reset L0. Power state of the link. -/
  power : LinkPower
  deriving DecidableEq, Repr

/-- The reset values of an upstream link. -/
def HLink.reset : HLink :=
  { up := false, rate := 0, width := 0, cxl := false, perst := true, cfgReady := false, drs := false, vfEnable := false,
    numVfs := 0, downAt := 0, session := false, spdm := false, doe := 0, ide := [], cxlIde := .off, power := .l0 }

/-- A host access through a BAR that has not been performed (R282, R298): a write or a read of BAR2, or a register write. -/
inductive HostAcc where
  | write2 (va : Nat) (data : List Byte)
  | read2 (va n : Nat) (direct tailBad : Bool)
  | reg (off size : Nat) (value : DWord)
  deriving DecidableEq, Repr

/-- A host access that waits, and the function it names (R282). -/
structure Posted where
  /-- R282; a function; reset not held. The function. -/
  fn : Fn
  /-- R282; an access; reset not held. What it does. -/
  acc : HostAcc
  deriving DecidableEq, Repr

/-- An HDM decoder (R302). -/
structure HdmDecoder where
  /-- R302; 1 bit; reset 0. Committed. -/
  committed : Bool
  /-- R302; 1 bit; reset 0. Commit Error. -/
  error : Bool
  /-- R302; 64 bits; reset 0. Host physical base. -/
  base : Nat
  /-- R302; bytes; reset 0. Size. -/
  size : Nat
  /-- R302; bytes; reset 0. Offset in the host pool. -/
  pool : Nat
  deriving DecidableEq, Repr

/-- A mapping range (R220, R591): what one MEM.MAP created, less what has been unmapped. -/
structure MapRange where
  /-- R220; 52 bits. First virtual address. -/
  va : Nat
  /-- Table 13.4; bytes. -/
  len : Nat
  /-- Table 13.4; 0 HBM, 1 host, 2 link window. -/
  target : Nat
  /-- Table 13.4, R430; allotment offset, host address, or the window's TARGET word. -/
  tgt : Nat
  /-- Table 13.4; 0 read, 1 read-write, 2 execute-only. -/
  access : Nat
  /-- R221; 1 bit. -/
  ownerOrd : Bool
  /-- R220; 1 bit. 2 MiB pages. -/
  large : Bool
  /-- R224; 1 bit. Translation has stopped for a shoot-down. -/
  stopped : Bool
  /-- R367; partition plus 1 whose allotment an aperture maps; else 0. -/
  aperture : Nat
  deriving DecidableEq, Repr

/-- A loaded KGI (R131 to R133, R399). -/
structure Kgi where
  handle : Nat
  /-- R119; 52 bits. Virtual address of word 0 of CODE. -/
  code : Nat
  kernels : List KernelDesc
  /-- R399, R400; the GRAPH section. -/
  graph : List Byte
  deriving DecidableEq, Repr

/-- States of a sequence-table entry (Table 15.2, Table 15.4). -/
inductive SeqSt where
  | free | admitted | prefill | decode | paused | retiring
  deriving DecidableEq, Repr

/-- A sequence-table entry (R392 to R396). -/
structure SeqEntry where
  /-- R392; Table 15.2; reset FREE. State. -/
  st : SeqSt
  /-- R392; Table 15.2; reset FREE. State held before PAUSED. -/
  prev : SeqSt
  /-- R392; 1 bit; reset 0. Cause HOLD. -/
  hold : Bool
  /-- R392; 1 bit; reset 0. Cause DRAW. -/
  draw : Bool
  /-- R393; 52 bits; reset 0. Descriptor address. -/
  desc : Nat
  /-- Table 15.3; reset 0. -/
  prompt : Nat
  /-- Table 15.3; reset 0. -/
  promptLen : Nat
  /-- Table 15.3; reset 0. -/
  maxNew : Nat
  /-- Table 15.3; reset 0. Output area. -/
  out : Nat
  /-- Table 15.3; reset 0. -/
  outMax : Nat
  /-- Table 15.3; 1 bit; reset 0. FLAGS[0]. -/
  hostMode : Bool
  /-- Table 15.3; 1 bit; reset 0. FLAGS[1]. -/
  keyValid : Bool
  /-- Table 15.3; reset empty. Stop tokens in use. -/
  stops : List Nat
  /-- Table 15.3; 32 bits; reset 0. -/
  temp : Word
  /-- Table 15.3; reset 0. -/
  hostK : Nat
  /-- R393; 128 bits; reset 0. Key. -/
  key : BitVec 128
  /-- Table 15.3; reset 0. -/
  kvTable : Nat
  /-- Table 15.3; reset 0. -/
  kvPages : Nat
  /-- R395; 32 bits; reset 0. Tokens appended. -/
  tokens : Nat
  /-- R404; reset 0. Prompt tokens processed. -/
  processed : Nat
  /-- R404; Tide ns; reset 0. Admission Tide. -/
  admitted : Nat
  /-- R404; model; reset 0. Step stamp of the last run. -/
  lastRun : Nat
  /-- R395; 8 bits; reset 0. STOP_REASON. -/
  stop : Nat
  /-- R395, R127; reset 0. STATUS at retirement. -/
  status : Nat
  /-- R127, R526; reset 0. Detail of STATUS at retirement. -/
  detail : Nat
  /-- R395; Tide ns; reset 0. Tide of the last append. -/
  lastAppend : Nat
  deriving DecidableEq, Repr

/-- A FREE entry. -/
def SeqEntry.reset : SeqEntry :=
  { st := .free, prev := .free, hold := false, draw := false, desc := 0, prompt := 0, promptLen := 0, maxNew := 0,
    out := 0, outMax := 0, hostMode := false, keyValid := false, stops := [], temp := 0, hostK := 0, key := 0,
    kvTable := 0, kvPages := 0, tokens := 0, processed := 0, admitted := 0, lastRun := 0, stop := 0, status := 0,
    detail := 0, lastAppend := 0 }

/-- A position of a step's work list (Table 15.6). -/
structure WorkPos where
  entry : Nat
  pos : Nat
  count : Nat
  sample : Bool
  deriving DecidableEq, Repr

/-- A graph node (Table 15.8). -/
structure GNode where
  kernel : Nat
  clusters : DWord
  arg : Nat
  blocks : Nat
  deps : List Nat
  deriving DecidableEq, Repr

/-- A command or admission that takes effect at the next step boundary (R403). -/
inductive Boundary where
  | pause (entry : Nat)
  | resume (entry : Nat)
  | cancel (entry : Nat)
  /-- Admission of descriptor `desc` into `entry`; `chan` is the channel whose SEQ.ADMIT it is, plus 1, or 0 for the ring's. -/
  | admitSeq (entry desc chan : Nat)
  deriving DecidableEq, Repr

/-- A partition's step builder (R394, R399 to R407). -/
structure StepB where
  /-- R394; 1 bit; reset 0. Configured. -/
  conf : Bool
  /-- R399; 32 bits; reset 0. HANDLE of the configuration. -/
  handle : Nat
  /-- Table 13.4; 1 bit; reset 0. Host-listed mode. -/
  hostListed : Bool
  /-- R402; 128 bits; reset 0. Step key. -/
  key : BitVec 128
  /-- R402; 1 bit; reset 0. KEY_VALID. -/
  keyValid : Bool
  /-- Table 15.5; reset 0. B_MAX. -/
  bMax : Nat
  /-- Table 15.5; reset 0. T_MAX. -/
  tMax : Nat
  /-- Table 15.5; reset 0. CTX_MAX. -/
  ctxMax : Nat
  /-- Table 15.5; reset 0. VOCAB. -/
  vocab : Nat
  /-- Table 15.5; reset 0. WORKLIST_VA. -/
  worklist : Nat
  /-- Table 15.5; reset 0. LOGITS_VA. -/
  logits : Nat
  /-- Table 15.5; reset 0. PREFETCH_PAGES. -/
  prefetch : Nat
  /-- Table 15.8; reset empty. Graph nodes. -/
  nodes : List GNode
  /-- R402; reset 0. Step number. -/
  step : Nat
  /-- R402; 1 bit; reset 0. A step runs. -/
  running : Bool
  /-- R401; reset empty. Work list of the running step. -/
  list : List WorkPos
  /-- R400; model; reset empty. Nodes launched, in order. -/
  launched : List Nat
  /-- R400; model; reset empty. Nodes whose launch has completed. -/
  done : List Nat
  /-- R414; model; reset 0. A launch of the running step ended with ABORTED. -/
  failed : Bool
  /-- R406; reset empty. Predicted entries. -/
  predicted : List Nat
  /-- R406; 1 bit; reset 0. The prediction table holds a step. -/
  predValid : Bool
  /-- R403; model; reset empty. Commands and admissions for the next boundary, oldest first. -/
  boundary : List Boundary
  /-- R404; model; reset 0. Stamp for "least recently run". -/
  stamp : Nat
  /-- R404; model; reset 0. Positions of the running step whose result has been applied. -/
  applied : Nat
  /-- R456; 1 bit; reset 0. A step ran in the present phase interval, and whether a position had COUNT > 1. -/
  ranStep : Bool
  ranPrefill : Bool
  /-- R397; 64 bits; reset 0. QD_BASE. -/
  qdBase : DWord
  /-- R397; 16 bits; reset 0. QD_SIZE.ENTRIES. -/
  qdSize : Nat
  /-- R397; 16 bits; reset 0. QD_TAIL.TAIL. -/
  qdTail : Nat
  /-- R397; 16 bits; reset 0. QD_HEAD.HEAD. -/
  qdHead : Nat
  /-- R398; 1 bit; reset 0. QD_ERR.ERR. -/
  qdErr : Bool
  /-- R346; model; reset empty. Commands to Moon that are not sent in full: the channel, and the words still to send. -/
  toMoon : List (Nat × List Word)
  deriving DecidableEq, Repr

/-- A step builder that is not configured. -/
def StepB.reset : StepB :=
  { conf := false, handle := 0, hostListed := false, key := 0, keyValid := false, bMax := 0, tMax := 0, ctxMax := 0,
    vocab := 0, worklist := 0, logits := 0, prefetch := 0, nodes := [], step := 0, running := false, list := [],
    launched := [], done := [], failed := false, predicted := [], predValid := false, boundary := [], stamp := 0,
    applied := 0, ranStep := false, ranPrefill := false, qdBase := 0, qdSize := 0, qdTail := 0, qdHead := 0,
    qdErr := false, toMoon := [] }

/-- PART.QUERY's states (Table 13.4). -/
inductive PartSt where
  | absent | running | frozen | resetting
  deriving DecidableEq, Repr

/-- A record of a RAS ring (R545). -/
structure RasRec where
  /-- R545; 64 bits. Sequence number. -/
  seq : Nat
  /-- R545; 64 bits. Tide. -/
  tide : Nat
  /-- R545; 16 bits. Code (Table 20.6). -/
  code : Nat
  /-- R545; 8 bits. Severity (Table 20.3). -/
  sev : Nat
  /-- R545; 8 bits. Partition, or 0. -/
  part : Nat
  /-- R545; 32 bits. INSTANCE, or 0. -/
  krn : Nat
  /-- R545; 64 bits. Address and its kind. -/
  addr : Nat
  kind : Nat
  /-- R545; 8 bits each. Die, half/cluster/link and core. -/
  die : Nat
  place : Nat
  core : Nat
  /-- R546; 16 bits. Fault code. -/
  fault : Nat
  /-- R545; 16 bits. Status code. -/
  status : Nat
  /-- R545; 20 bytes. Detail. -/
  detail : List Byte
  /-- R546; the core entries of an abort record, 192 bytes each. -/
  body : List Byte
  deriving DecidableEq, Repr

/-- The end status of a launch (R343). -/
structure EndStatus where
  num : Nat
  status : Nat
  tide : Nat
  replayed : Bool
  deriving DecidableEq, Repr

/-- The phase of a function-level reset (R357 to R360). -/
inductive Flr where
  | none
  /-- R358: quiesce since the Tide given. -/
  | quiesce (since : Nat)
  /-- R359: the clusters are quiet; Moon's steps are done or wait for the true-random source (R520). -/
  | quiet (since : Nat) (keyWaits : Bool)
  deriving DecidableEq, Repr

/-- The phase learner's history of a partition (R457). -/
structure Learner where
  /-- R457; 16 x 8 bits; reset 0. Transition counts, key 4*from + to. -/
  trans : Tbl Nat
  /-- R457; 4 figures, mW per cluster; reset 0. Demand per phase. -/
  demand : Tbl Nat
  /-- R457; reset 0. Tagged intervals, saturating at 64. -/
  tagged : Nat
  /-- R456; 2 bits; reset none. Tag of the last interval plus 1. -/
  tag : Nat
  /-- R456; reset 0. Counter values at the last interval's end: 0 ENGINE_TIME, 2-5 the byte counters, 10 the estimate. -/
  last : Tbl Nat
  deriving DecidableEq, Repr

/-- A partition (1-64), or the address space of a physical function (65 + link). -/
structure Part where
  /-- Table 13.4; 2 bits; reset 0 (absent). State. -/
  st : PartSt
  /-- Table 13.4; 2 bits; reset 0. LINK. -/
  link : Nat
  /-- R214; 16 bits; reset 0. LLC way mask. -/
  ways : BitVec 16
  /-- R348; reset 0. Sequence granules. -/
  granules : Nat
  /-- R348; 64 bits; reset 0. Clusters. -/
  clusters : DWord
  /-- R348; reset 0. MSI-X vectors. -/
  msix : Nat
  /-- R348; GB/s; reset 0. HBM read share. -/
  shHbmRd : Nat
  /-- R348; GB/s; reset 0. HBM write share. -/
  shHbmWr : Nat
  /-- R348; GB/s; reset 0. Link share. -/
  shLink : Nat
  /-- R348; GB/s; reset 0. Host share. -/
  shHost : Nat
  /-- R476; 16 bits; reset 0. Owner generation. -/
  gen : Nat
  /-- R497; 1 bit; reset 0. A partition key is in the controllers' key tables. -/
  keyed : Bool
  /-- R497; model; reset 0. Index of the key drawn from the true-random source. -/
  keyId : Nat
  /-- R220; reset empty. Mappings. -/
  maps : List MapRange
  /-- R591; reset empty. Loaded KGIs. -/
  kgis : List Kgi
  /-- R392; 64 per granule; reset FREE. Sequence-table entries. -/
  seqs : Tbl SeqEntry
  /-- R402; reset not configured. Step builder. -/
  sb : StepB
  /-- R408; 11 x 64 bits; reset 0. Accounting counters. -/
  acct : Tbl Nat
  /-- R409; 4 bits; reset 0. ACCT_THRESH_CTL.SEL. -/
  thrSel : BitVec 4
  /-- R409; 1 bit; reset 0. ACCT_THRESH_CTL.ARMED. -/
  thrArmed : Bool
  /-- R409; 64 bits; reset 0. ACCT_THRESH_VAL. -/
  thrVal : DWord
  /-- R354; 5 bits; reset 0. VF_IRQ_CAUSE. -/
  irqCause : BitVec 5
  /-- R544; 256 KiB; reset empty. Partition ring, newest first. -/
  ring : List RasRec
  /-- R544; 64 bits; reset 0. Next sequence number of the ring. -/
  ringNext : Nat
  /-- R343; 1,024; reset empty. End statuses, oldest first. -/
  ends : List EndStatus
  /-- R364; 1 bit; reset 0. The dirty-page log runs. -/
  logOn : Bool
  /-- R364; 1 bit per 64 KiB granule of the allotment; reset 0. Dirty-page log. -/
  log : Tbl Bool
  /-- R357; reset none. Function-level reset in progress. -/
  flr : Flr
  /-- R368; Tide ns; reset 0. Tide at which a freeze was requested, plus 1; 0 for none. -/
  freezing : Nat
  /-- R352; 1 bit; reset 0. PART.DESTROY has been accepted: the reset in progress ends in the partition's destruction. -/
  doomed : Bool
  /-- R512; 1 bit; reset 0. The freeze in force or in progress is D3hot's. -/
  d3Froze : Bool
  /-- R368; Tide ns; reset 0. Tide of the freeze boundary. -/
  boundary : Nat
  /-- R389; bytes per resource (0 HBM read, 1 HBM write, 2 link transmit, 3 link receive, 4 host transmit, 5 host receive),
  key 16*resource + place (controller, X die, 0); reset 0. Token buckets. -/
  buckets : Tbl Nat
  /-- R431; 20 bits; reset 0. PART_LINK.DOMAIN. -/
  domain : BitVec 20
  /-- R431; 1 bit; reset 0. PART_LINK.INGRESS_EN. -/
  ingress : Bool
  /-- R457; reset empty. Phase learner. -/
  learn : Learner
  /-- R371, R372; model; reset empty. Launches restored that resume or end at PART.THAW, by launch key. -/
  restored : List Nat
  /-- R372; 64 bits; reset 0. Source cluster mask of the restored blob. -/
  srcMask : DWord
  /-- R373; model; reset empty. The channels of the commands captured by a freeze that Moon has not taken since the thaw, in order. -/
  captured : List Nat
  deriving DecidableEq, Repr

/-- An absent partition. -/
def Part.reset : Part :=
  { st := .absent, link := 0, ways := 0, granules := 0, clusters := 0, msix := 0, shHbmRd := 0, shHbmWr := 0, shLink := 0,
    shHost := 0, gen := 0, keyed := false, keyId := 0, maps := [], kgis := [], seqs := [], sb := StepB.reset, acct := [],
    thrSel := 0, thrArmed := false, thrVal := 0, irqCause := 0, ring := [], ringNext := 0, ends := [], logOn := false,
    log := [], flr := .none, freezing := 0, doomed := false, d3Froze := false, boundary := 0, buckets := [], domain := 0, ingress := false,
    learn := { trans := [], demand := [], tagged := 0, tag := 0, last := [] }, restored := [], srcMask := 0, captured := [] }

/-- The host side of the device. -/
structure HostSt where
  /-- R292; 4 upstream links; reset down. Links by number. -/
  links : Tbl HLink
  /-- R305, R307; reset as the function's configuration space resets. Functions by `fnKey`. -/
  fns : Tbl FnState
  /-- R319; 8 per function; reset as Table 13.1's registers. Channels, key 8*fnKey + channel. -/
  chans : Tbl Chan
  /-- R302; 2; reset uncommitted. HDM decoders. -/
  hdm0 : HdmDecoder
  hdm1 : HdmDecoder
  /-- R302; units; reset 0. Host pool size. -/
  pool : Nat
  /-- R295, R293; 1 bit; reset 0. Host port 1 is bifurcated (the BIFURC_X1 strap at cold start). -/
  bifurc : Bool
  /-- R360; 64 bits; reset 0. PART_RESET_DONE. -/
  resetDone : DWord
  /-- R389; us of Tide; reset 0. The 1 us boundary at which the buckets were last refilled. -/
  refillAt : Nat
  /-- R282, R298; reset none. Host accesses that have arrived and not been performed, oldest first. -/
  posted : List Posted
  /-- R308; 1 bit; reset 0. The CXL RAS capability has recorded an uncorrectable internal error. -/
  cxlRas : Bool
  deriving DecidableEq, Repr

/-- The host side at reset. -/
def HostSt.reset : HostSt :=
  { links := [], fns := [], chans := [], hdm0 := ⟨false, false, 0, 0, 0⟩, hdm1 := ⟨false, false, 0, 0, 0⟩, pool := 0,
    bifurc := false, resetDone := 0, refillAt := 0, posted := [], cxlRas := false }

end Sys2Proof.Machine
end

