-- ==== Sys2Proof/Machine/StateSys.lean ====
section
/-! DEFINITION. Machine/StateSys.lean: the state of Moon, the scale-out links, power control, Crescent, RAS, security, start-up
and the pins (chapters 02, 03, 13 and 16 to 21), and what the block sends out. -/

namespace Sys2Proof.Machine

/-- A core of the Moon complex (R335 to R337). -/
structure MoonCore where
  /-- R335; 64 bits; reset 0 (DESIGN CHOICE, log 4). Program counter. -/
  pc : DWord
  /-- R335; 64 bits; reset 0 (DESIGN CHOICE, log 4). Status, EMERG apart. -/
  status : DWord
  /-- R336; 1 bit; reset 0. Status bit EMERG. -/
  emerg : Bool
  /-- R335; 1 bit; reset 0, kernel. Task mode. -/
  task : Bool
  /-- R335; 64 bits; reset 0 (DESIGN CHOICE, log 4). Stack pointer. -/
  sp : DWord
  /-- R335; 3 x 64 bits; reset 0 (DESIGN CHOICE, log 4). Scratch registers. -/
  scratch : List DWord
  /-- R335; 64 bits; reset 0 (DESIGN CHOICE, log 4). Kernel-mode stack bounds. -/
  kLow : DWord
  kHigh : DWord
  /-- R335; 64 bits; reset 0 (DESIGN CHOICE, log 4). Task-mode stack bounds. -/
  tLow : DWord
  tHigh : DWord
  /-- R336; 8 x 64 bits; reset 0 (DESIGN CHOICE, log 4). Shadow-frame registers. -/
  shadow : List DWord
  /-- R336; 1 bit; reset 0. Locked up. -/
  locked : Bool
  deriving DecidableEq, Repr

/-- A firmware slot's preference word (R492). -/
inductive Pref where
  | plain | preferred | trial (booted : Bool)
  deriving DecidableEq, Repr

/-- A firmware slot of secure flash (R492, R494). -/
structure FwSlot where
  /-- R492; reset plain (slot A preferred; DESIGN CHOICE, log 6). Preference word. -/
  pref : Pref
  /-- R492; 1 bit; reset 0. The image verified when last checked. -/
  valid : Bool
  /-- Table 19.6; 64 bits; reset 0. Firmware version. -/
  version : DWord
  /-- Table 19.6; 32 bits; reset 0. Security version. -/
  svn : Word
  /-- Table 19.6; 1 bit; reset 0. COMMIT_SVN. -/
  commit : Bool
  /-- R495; 384 bits; reset 0. SHA-384 of the image. -/
  digest : BitVec 384
  deriving DecidableEq, Repr

/-- A Moon crash record (R547). -/
structure CrashRec where
  index : Nat
  core : Nat
  cause : Nat
  tide : Nat
  version : DWord
  shadow : List DWord
  /-- model. Draw that names the captured general registers. -/
  capture : Nat
  deriving DecidableEq, Repr

/-- The Moon complex (R335 to R341, R492, R547). -/
structure Moon where
  /-- R333, R339; 1 bit; reset 0. MBX_STATUS.FW_READY. -/
  ready : Bool
  /-- R338; Tide ns; reset 0. Tide of the lock-up or expiry that began the restart in progress, plus 1; 0 for none. -/
  restart : Nat
  /-- Table 13.4; reset 0. Cause of the restart: 0 lock-up, 1 watchdog, 2 FW.ACTIVATE. -/
  cause : Nat
  /-- Table 13.4; reset 0. Core that locked up. -/
  failed : Nat
  /-- R341; Tide ns; reset empty. Tides at which restarts began, newest first. -/
  history : List Nat
  /-- R377; Tide ns; reset empty. Beginnings and ends of the restarts that have ended, newest first. -/
  ended : List (Nat × Nat)
  /-- Table 13.4; 32 bits; reset 0. Restarts since cold start. -/
  count : Nat
  /-- R335; 4; reset as `MoonCore`. Cores. -/
  cores : Tbl MoonCore
  /-- R335; 2 MiB; reset 0 (DESIGN CHOICE, log 3). Shared SRAM. -/
  sram : Tbl Byte
  /-- R337; Tide ns; reset 0. Tide at which the firmware last began to run or serviced the watchdog (DESIGN CHOICE, log 139). -/
  wdog : Nat
  /-- R547; 16; reset empty. Crash records, newest first. -/
  crashes : List CrashRec
  /-- R547; reset 0. Next crash index. -/
  crashNext : Nat
  /-- R492; reset `FwSlot`. Slots A and B. -/
  slotA : FwSlot
  slotB : FwSlot
  /-- R492; 1 bit; reset 0. Slot B runs. -/
  runsB : Bool
  /-- R493; 1 bit; reset 0. The unused slot holds a staged image. -/
  staged : Bool
  /-- R553; reset empty. Records a restart interrupted, as (ring, record); ring 0 is the device's. -/
  heldRecs : List (Nat × RasRec)
  /-- R583; reset empty. What PART_STATE (0-63) and PWR_HALF.LIMIT (64-71) held when the restart in progress began. -/
  shown : Tbl Nat
  deriving DecidableEq, Repr

/-- States of a scale-out link (R418). -/
inductive LinkSt where
  | down | training | up
  deriving DecidableEq, Repr

/-- A scale-out link (R417 to R419). -/
structure YLink where
  /-- R418; reset down. State. -/
  st : LinkSt
  /-- Table 13.4; 2 bits; reset 0. Mode: 0 off, 1 YLP direct, 2 YLP over UDP/IPv6. -/
  mode : Nat
  /-- R429; 16 bits; reset 47931. UDP port. -/
  port : Nat
  /-- R419; reset 4. Lanes. -/
  lanes : Nat
  /-- R419; 4 bits; reset 0. Lanes that have failed. -/
  bad : BitVec 4
  /-- R419; 1 bit; reset 0. The training in progress is a degraded retraining. -/
  degrading : Bool
  /-- R418; Tide ns; reset 0. Tide at which the training attempt began. -/
  since : Nat
  /-- R499; 64 bits; reset 0. Fabric prefix in force. -/
  pfx : DWord
  /-- R498, R502; 256 bits; reset 0. Fabric key that the link's training took. -/
  fabric : BitVec 256
  /-- LINK.STATUS; 32 bits; reset 0. Retries. -/
  retries : Nat
  /-- LINK.STATUS; 64 bits; reset 0. Bytes sent. -/
  sent : Nat
  /-- R421; reset 0. Error count (frames discarded). -/
  errors : Nat
  deriving DecidableEq, Repr

/-- The reset values of a link. -/
def YLink.reset : YLink :=
  { st := .down, mode := 0, port := 47931, lanes := 4, bad := 0, degrading := false, since := 0, pfx := 0, fabric := 0, retries := 0,
    sent := 0, errors := 0 }

/-- The retry and key state of a link, or of a mode 2 peer (R422, R423, R429, R437, R498). -/
structure Peer where
  /-- R423; 12 bits; reset 0. SEQ of the next frame sent. -/
  txSeq : BitVec 12
  /-- R423; 12 bits; reset 0. SEQ expected next. -/
  rxSeq : BitVec 12
  /-- R423; 256 KiB; reset empty. Retry buffer, oldest first. -/
  buf : List Frame
  /-- R423; Tide ns; reset 0. Tide of the last transmission or acknowledgement. -/
  lastTx : Nat
  /-- R437; reset 0. Successive retries of the oldest frame. -/
  tries : Nat
  /-- R437; reset 0. Successive GCM failures. -/
  gcm : Nat
  /-- R422; 64 bits; reset 0. Transmit counter. -/
  txCount : Nat
  /-- R498; 31 bits; reset 0. Transmit key epoch. -/
  txEpoch : Nat
  /-- R422; 64 bits; reset 0. Last counter accepted. -/
  rxCount : Nat
  /-- R498; 31 bits; reset 0. Receive key epoch. -/
  rxEpoch : Nat
  /-- R429; reset 0. Link that leads to the peer. -/
  link : Nat
  deriving DecidableEq, Repr

/-- The reset values of a peer's retry state. -/
def Peer.reset : Peer :=
  { txSeq := 0, rxSeq := 0, buf := [], lastTx := 0, tries := 0, gcm := 0, txCount := 0, txEpoch := 0, rxCount := 0,
    rxEpoch := 0, link := 0 }

/-- A route entry (Table 16.3). -/
structure Route where
  links : BitVec 12
  valid : Bool
  dateline : Bool
  isLocal : Bool
  ip : BitVec 128
  deriving DecidableEq, Repr

/-- Who waits for a remote operation (R433). -/
inductive RemoteFor where
  | mem (op : Nat)
  /-- R431; `pos` is the byte of the copy that the frame's first byte is. -/
  | copy (op pos : Nat)
  | none
  deriving DecidableEq, Repr

/-- The UDP datagram over IPv6 that carries a frame on a mode 2 link (R429, R499). -/
structure Datagram where
  src : BitVec 128
  dst : BitVec 128
  /-- Both ports. -/
  port : Nat
  checksum : BitVec 16
  deriving DecidableEq, Repr

/-- A remote operation that no CMP has answered (R433). -/
structure Remote where
  tag : Nat
  frame : Frame
  part : Nat
  krn : Nat
  who : RemoteFor
  /-- R433; Tide ns. Tide of the last transmission. -/
  sentAt : Nat
  /-- R433; Tide ns. Tide of the first BUSY or FULL answer, plus 1; 0 for none. -/
  busyAt : Nat
  /-- R433; 1 bit. The frame waits 10 us to be resent; `sentAt` is then the answer's Tide. -/
  holding : Bool
  /-- R433; Tide ns. Time without an answer before `sentAt`, BUSY and FULL waits apart. -/
  flown : Nat
  /-- R438; 1 bit. The origin partition has been reset or destroyed: the CMP is discarded. -/
  gone : Bool := false
  deriving DecidableEq, Repr

/-- The scale-out side (chapter 16). -/
structure Links where
  /-- R418; 12; reset down. Links. -/
  links : Tbl YLink
  /-- R423, R429; reset empty. Retry state: key the link, or 12 + device ID for a mode 2 peer. -/
  peers : Tbl Peer
  /-- R425; 17 bits; reset 0. Own device ID. -/
  devId : Nat
  /-- R427; model; reset empty. The link, plus 1, that the frames of an origin to a granule of a destination took, by `flowKey`. -/
  flows : Tbl Nat
  /-- R426; 131,072 entries; reset not VALID. Unicast table. -/
  unicast : Tbl Route
  /-- R426; 4,096 entries; reset not VALID. Group table. -/
  group : Tbl Route
  /-- R433; reset empty. Remote operations. -/
  remotes : List Remote
  /-- R420; 16 bits; reset 0. Next TAG. -/
  nextTag : Nat
  /-- R563; reset as flash holds it: empty (DESIGN CHOICE, log 6). Recorded LINK.CONFIG: (mode, port, device ID). -/
  recs : Tbl (Nat × Nat × Nat)
  /-- R563; reset as flash holds it: empty. Recorded routes. -/
  recUni : Tbl Route
  recGrp : Tbl Route
  /-- TIDE_SYNC.GM; 17 bits; reset 0. -/
  gm : Nat
  /-- TIDE_SYNC.HOPS; 5 bits; reset 0. -/
  hops : Nat
  /-- TIDE_SYNC.LOCKED; 1 bit; reset 0. -/
  locked : Bool
  /-- TIDE_SYNC.ERR_NS; 16 bits; reset 0. -/
  err : Int
  /-- R442; signed ns; reset 0. Fabric offset. -/
  offset : Int
  /-- R441; reset none. Parent link plus 1. -/
  parent : Nat
  /-- R441; reset empty. Announces heard per link: (grandmaster, hops) packed as 64*gm + hops + 1. -/
  heard : Tbl Nat
  /-- R443; Tide ns; reset 0. Tide since which the offset has held within 20 ns, plus 1. -/
  within : Nat
  deriving DecidableEq, Repr

/-- A die half's power state (chapter 17). -/
structure Half where
  /-- R452, PWR_HALF.OP; 3 bits; reset 2. Current OP, or the target while a change is in progress. -/
  op : Nat
  /-- R32; reset 2. OP whose voltage the rail held when the change in progress was written, and holds when there is none. -/
  old : Nat
  /-- R453; reset 2. OP whose voltage was last written to the rail. -/
  set : Nat
  /-- R453; Tide ns; reset 0. Tide at which VOUT_COMMAND was written, plus 1; 0 when no change is in progress. -/
  changing : Nat
  /-- R462; 3 bits; reset 7. Thermal limit. -/
  thermal : Nat
  /-- R462; Tide ns; reset 0. Tide of the last change of the thermal limit. -/
  thermalAt : Nat
  /-- R460; reset 0. Droop hold's limit plus 1; 0 for none. -/
  hold : Nat
  /-- R460; 1 bit; reset 0. VCORE is below the warning level. -/
  below : Bool
  /-- R460; Tide ns; reset 0. Tide of the last fall below, and of the last recovery above, the warning level. -/
  fellAt : Nat
  recovered : Nat
  /-- R460; 1 bit; reset 0. Tensor issue is halved by droop. -/
  halved : Bool
  /-- R454; reset 0. Fast OP limit in force plus 1. -/
  fast : Nat
  /-- R454; 3 bits; reset 0. Sources of the fast limit: THROT_N, excursion, restart. -/
  fastSrc : BitVec 3
  /-- PWR_HALF.PACED; 1 bit; reset 0. -/
  paced : Bool
  /-- R44, R467; 1 bit; reset 0. The rail is unresponsive. -/
  dead : Bool
  /-- PWR_HALF.BUDGET; 16 bits; reset 0. 0.1 W. -/
  budget : Nat
  /-- PWR_HALF.POWER; 16 bits; reset 0. 0.1 W. -/
  power : Nat
  /-- PWR_HALF.TJ; 8 bits; reset 0. -/
  tj : Nat
  /-- PWR_DROOP.COUNT; 16 bits; reset 0. -/
  dCount : Nat
  /-- PWR_DROOP.MIN_MV; 16 bits; reset 0. -/
  dMin : Nat
  /-- PWR_DROOP.DUR_NS; 16 bits; reset 0. -/
  dDur : Nat
  /-- R449; mW; reset 0. Leakage supplied for the last period. -/
  leak : Nat
  /-- PWR_HALF.LIMIT; 3 bits; reset 7. Highest OP that the last control period found admissible (R451, R452). -/
  limit : Nat
  /-- PWR_HALF.CAUSE[0]; 1 bit; reset 0. The cap lowers the limit. -/
  capLimited : Bool
  /-- R44; reset 0. Reads of STATUS_VOUT of the change in progress that have not been acknowledged. -/
  statusTries : Nat
  /-- R44; Tide ns; reset 0. Tide before which STATUS_VOUT is not read again. -/
  statusAt : Nat
  /-- R47; Tide ns; reset 0. Tide of the last write or completion of a set point, plus 1. -/
  movedAt : Nat
  deriving DecidableEq, Repr

/-- The reset values of a half. -/
def Half.reset : Half :=
  { op := 2, old := 2, set := 2, changing := 0, thermal := 7, thermalAt := 0, hold := 0, below := false, fellAt := 0, recovered := 0,
    halved := false, fast := 0, fastSrc := 0, paced := false, dead := false, budget := 0, power := 0, tj := 0, dCount := 0,
    dMin := 0, dDur := 0, leak := 0, limit := 7, capLimited := false, statusTries := 0, statusAt := 0, movedAt := 0 }

/-- A write of the control segment that waits (R453, R454): half, OP, and whether the sequencer writes it. -/
structure VoutCmd where
  half : Nat
  op : Nat
  hw : Bool
  /-- R44; transmissions not acknowledged so far. -/
  tries : Nat
  deriving DecidableEq, Repr

/-- The power controller (chapter 17). -/
structure Power where
  /-- R448; W; reset 600. Cap. -/
  cap : Nat
  /-- R448; 1 bit; reset 0. Phase-learner mode. -/
  learner : Bool
  /-- R450; reset empty. Share table by TARGET. -/
  shares : Tbl Nat
  /-- R448; reset none. PWR.* values that take effect at the next period. -/
  capNext : Nat
  learnerNext : Bool
  sharesNext : Tbl Nat
  /-- chapter 17; 8 halves; reset `Half.reset`. -/
  halves : Tbl Half
  /-- PWR_OP_MAX; 8 x 3 bits; reset 7 each. MAX_h, key h. -/
  opMax : Tbl Nat
  /-- R453; reset empty. Writes of the control segment in order. -/
  vout : List VoutCmd
  /-- R453; Tide ns; reset 0. Tide at which the control segment becomes free. -/
  voutFree : Nat
  /-- R446; 100 periods, mW; reset empty. Board power per period, newest first. -/
  hist : List Nat
  /-- PWR.QUERY; mW; reset 0. Board power of the last period. -/
  board : Nat
  /-- R455; 1 bit; reset 0. The controller halves tensor issue. -/
  capHalf : Bool
  /-- R452; Tide ns; reset 0. Tide of the last control period, plus 1. -/
  periodAt : Nat
  /-- R465; Tide ns; reset 0. Tide of the last estimate. -/
  estimateAt : Nat
  /-- R469; 1 bit; reset 0. The controller uses the estimate. -/
  stale : Bool
  /-- R464; 1 bit; reset 0. Issue is stopped on every core by the thermal trip. -/
  tripped : Bool
  /-- R460; Table 18.2; reset empty. Droop events since the last ledger record: half, minimum mV, duration, Tide. -/
  droops : List (Nat × Nat × Nat × Nat)
  deriving DecidableEq, Repr

/-- A rail as Crescent keeps it (R474, R475, R488). -/
structure Rail where
  /-- R474; 32 bits; reset not read. Last accumulator value, plus 1; 0 before the first read. -/
  last : Nat
  /-- R474; 64 bits, nJ; reset 0. Energy of the interval so far. -/
  energy : Nat
  /-- R475; mW; reset 0. Average power over the last sample period. -/
  power : Nat
  /-- R475; 16 bits; reset 0. Sample number. -/
  sample : BitVec 16
  /-- R488; 1 bit; reset 0. No valid read for 1 ms. -/
  stale : Bool
  /-- R488; us; reset 0. Crescent time of the last valid read. -/
  validAt : Nat
  /-- R488; 1 bit; reset 0. Code 5 has been recorded since Crescent started. -/
  logged : Bool
  /-- R488; 1 bit; reset 0. The rail was stale during the present interval. -/
  faulted : Bool
  deriving DecidableEq, Repr

/-- The reset values of a rail. -/
def Rail.reset : Rail :=
  { last := 0, energy := 0, power := 0, sample := 0, stale := false, validAt := 0, logged := false, faulted := false }

/-- A METER_RAIL register of the mirror (R475). -/
structure MeterRail where
  /-- METER_RAIL.POWER_MW; 32 bits; reset 0. -/
  power : Nat
  /-- METER_RAIL.SAMPLE; 16 bits; reset 0. -/
  sample : BitVec 16
  /-- METER_RAIL.STALE; 1 bit; reset 0. -/
  stale : Bool
  deriving DecidableEq, Repr

/-- An audit-trail record (R480). -/
structure TrailRec where
  time : Nat
  seq : Nat
  code : Nat
  events : Nat
  detail : Nat
  deriving DecidableEq, Repr

/-- A ledger record (Table 18.2). -/
structure Ledger where
  number : Nat
  start : Nat
  stop : Nat
  droops : List (Nat × Nat × Nat × Nat)
  /-- Per cluster: owner, generation and ENGINE_TIME. -/
  owners : List (Nat × Nat × Nat)
  deriving DecidableEq, Repr

/-- What Crescent's non-volatile memory holds (R489). -/
structure CrescentNv where
  /-- R482; nJ. Cumulative energy of each partition, key 1-64. -/
  cum : Tbl Nat
  gens : Tbl Nat
  genStart : Tbl Nat
  marks : Tbl Nat
  /-- R478; nJ. Unattributed account, and all rails since commissioning. -/
  unattributed : Nat
  total : Nat
  seq : Nat
  events : Nat
  interval : Nat
  trail : List TrailRec
  deriving DecidableEq, Repr

/-- Nothing committed. -/
def CrescentNv.reset : CrescentNv :=
  { cum := [], gens := [], genStart := [], marks := [], unattributed := 0, total := 0, seq := 0, events := 0, interval := 0,
    trail := [] }

/-- Crescent's condition (R556, R557). -/
inductive CrescentSt where
  | absent | starting (since : Nat) | ready
  deriving DecidableEq, Repr

/-- A signed reading (R482), its fields; `Machine.readingBytes` lays it out. -/
structure Reading where
  part : Nat
  seq : Nat
  interval : Nat
  tide : Nat
  time : Nat
  cum : Nat
  last : Nat
  unattributed : Nat
  marks : Nat
  flags : Nat
  genStart : Nat
  checksum : Word
  events : Nat
  deriving DecidableEq, Repr

/-- Crescent (chapter 18). -/
structure Crescent where
  /-- R556; reset absent. Condition. -/
  st : CrescentSt
  /-- R473, R489; 1 bit; reset 0. Metering is available as far as Crescent knows. -/
  good : Bool
  /-- R557; 1 bit; reset 0. Metering is available as Moon decided in phase 7. -/
  metering : Bool
  /-- R557; reset ready. What the boot ROM's probe found. -/
  probe : CrescentProbe
  /-- R480; us; reset 0. Crescent time since its start. -/
  time : Nat
  /-- R472; 24 rails; reset `Rail.reset`. -/
  rails : Tbl Rail
  /-- R482, R489; reset as its non-volatile memory. Counters, sequence number and trail. -/
  live : CrescentNv
  /-- R489; reset empty. The last commit (on standby loss or hourly). -/
  nv : CrescentNv
  /-- R489; 1 bit; reset 0. Standby was lost, so code 4 is recorded at the next start. -/
  lost : Bool
  /-- R489; 1 bit; reset 0. The commit on standby loss failed, so first readings set flag [3]. -/
  failedCommit : Bool
  /-- R482; reset empty. Readings (0 device, else partition) that still owe flag [3]. -/
  owed : Tbl Bool
  /-- R489; us; reset 0. Crescent time of the last hourly commit and of the last checksum. -/
  commitAt : Nat
  checkAt : Nat
  /-- R479; 64 bits; reset 0 (DESIGN CHOICE, log 6). Firmware identifier. -/
  fwId : DWord
  /-- R479; 32 bits; reset 0 (DESIGN CHOICE, log 6). Recorded checksum. -/
  checksum : Word
  /-- R487; us; reset 0. Crescent time of the last close. -/
  closeAt : Nat
  /-- R477; reset none. Ledger records received and not used, oldest first. -/
  ledger : List Ledger
  /-- R476; reset 0. Next ledger interval number, and the Tide and ENGINE_TIMEs at which the interval began. -/
  ledgerNo : Nat
  ledgerAt : Nat
  /-- R476; reset empty. ENGINE_TIME of each cluster's owner in the ledger interval so far, key the cluster. -/
  engine : Tbl Nat
  /-- R481; reset empty. Latest readings, key 0 device or the partition. -/
  readings : Tbl Reading
  /-- R477; 1 bit; reset 0. A sample has been taken since the ledger record arrived. -/
  sampled : Bool
  /-- R475, R469; Tide ns; reset 0. Tide at which the METER mirror was last refreshed. -/
  mirrorAt : Nat
  /-- METER_RAIL; 24 x (POWER_MW, SAMPLE, STALE); reset 0. The METER mirror on X0. -/
  mirror : Tbl MeterRail
  /-- METER_STATUS.INTERVAL; 32 bits; reset 0. -/
  mirrorInterval : Word
  /-- METER_STATUS.EVENTS; 32 bits; reset 0. -/
  mirrorEvents : Word
  deriving DecidableEq, Repr

/-- The rows of a die's repair map (R539, R541). -/
structure RowMap where
  /-- R539, R541; reset empty. SRAM rows that spare rows replace from the next start on. -/
  spare : List Nat
  /-- R539, R541; reset empty. HBM rows marked for post-package repair at the next start. -/
  hbm : List Nat
  deriving DecidableEq, Repr

/-- A map with no row in it. -/
def RowMap.reset : RowMap := { spare := [], hbm := [] }

/-- Error log state of the device (chapter 20). -/
structure Ras where
  /-- R544; 16 MiB; reset empty. Device ring, newest first. -/
  ring : List RasRec
  /-- RAS_LOG_SEQ.NEXT; reset 0. -/
  next : Nat
  /-- RAS_LOG_SEQ.OLDEST; reset 0. -/
  oldest : Nat
  /-- R544; 16; reset as flash holds it: empty (DESIGN CHOICE, log 6). Fatal records, newest first. -/
  fatals : List RasRec
  /-- RAS_SUMMARY; 16 bits; reset 0. -/
  corrected : Nat
  /-- RAS_SUMMARY; 16 bits; reset 0. -/
  deferred : Nat
  /-- RAS_SUMMARY; 16 bits; reset 0. -/
  contained : Nat
  /-- RAS_SUMMARY; 8 bits; reset 0. -/
  fatal : Nat
  /-- RAS_ALERT_MASK; 5 bits; reset 0x0E. -/
  mask : BitVec 5
  /-- RAS_ALERT_PEND; 5 bits; reset 0. -/
  pend : BitVec 5
  /-- R584; 5 conditions; reset 0: rail at start, unresponsive rail, fuses, Tide PLL, out of service. -/
  direct : BitVec 5
  /-- RAS_RETIRED.UNITS; 16 bits; reset as flash holds it: 0 (DESIGN CHOICE, log 6). Units retired. -/
  unitsRetired : Nat
  /-- RAS_INJECT.LINE; 42 bits; reset 0. -/
  injLine : BitVec 42
  /-- RAS_INJECT.KIND; 2 bits; reset 0. -/
  injKind : BitVec 2
  /-- RAS_INJECT.GO; 1 bit; reset 0. -/
  injGo : Bool
  /-- R540; 1,088 cores; reset good. State of each physical core, key 17*cluster + physical. -/
  phys : Tbl PhysCore
  /-- R539; reset as flash holds it: good. The repair maps' core states in flash. -/
  flash : Tbl PhysCore
  /-- R539, R555; reset as flash holds it: empty (DESIGN CHOICE, log 6). Retired pages in the repair map in flash. -/
  flashPages : List Nat
  /-- R539; Tide ns per die; reset 0. Tide at which an update of the die's map became due, plus 1. -/
  mapDue : Tbl Nat
  /-- R555; per die; reset 0. Failed map writes. -/
  mapFails : Tbl Nat
  /-- R534; reset 0. Next line the patrol reads. -/
  patrol : Nat
  /-- R534; reset empty. Tide plus 1 of a page's last individual corrected record. -/
  corrAt : Tbl Nat
  /-- R539, R541; per die; reset as flash holds it: empty (DESIGN CHOICE, log 6). The rows of the repair maps. -/
  rows : Tbl RowMap
  /-- R539; per die; reset as flash holds it: empty (DESIGN CHOICE, log 6). The same in flash. -/
  flashRows : Tbl RowMap
  /-- R541; reset empty. Tides of an SRAM row's corrections of the last 24 h. -/
  rowCorr : Tbl (List Nat)
  /-- R541; reset 0. Uncorrectable events of an HBM row. -/
  hbmRows : Tbl Nat
  deriving DecidableEq, Repr

/-- Lifecycle states (R506). -/
inductive Lifecycle where
  | blank | provisioned | deployed | rma
  deriving DecidableEq, Repr

/-- Debug levels (R507). -/
inductive DbgLevel where
  | none | observe | invasive
  deriving DecidableEq, Repr

/-- A key-vault slot (R501). -/
structure VaultSlot where
  /-- R501; 64 bits; reset 0. Generation. -/
  gen : Nat
  /-- R501; 1 bit; reset 0. The MAC verifies and the commit word is right. -/
  valid : Bool
  /-- R501; 256 bits; reset 0. Fabric key. -/
  fabric : BitVec 256
  /-- R501; 256 bits; reset 0. Current migration key. -/
  mig : BitVec 256
  /-- R501; 256 bits; reset 0. Previous migration key. -/
  migPrev : BitVec 256
  /-- R501; 64 bits; reset 0. Fabric prefix. -/
  pfx : DWord
  deriving DecidableEq, Repr

/-- Security and debug state (chapter 19). -/
structure Sec where
  /-- R490; fused; reset BLANK (DESIGN CHOICE, log 6). Lifecycle. -/
  life : Lifecycle
  /-- R490; 128 bits, fused; reset 0. Device serial number. -/
  serial : BitVec 128
  /-- R490; fused; reset 0. Minimum security version. -/
  minSvn : Nat
  /-- R490; 384 bits, fused; reset 0. Owner key hash. -/
  owner : BitVec 384
  /-- DBG_STATE.LEVEL; 2 bits; reset NONE. -/
  level : DbgLevel
  /-- DBG_STATE.EXPIRY; Tide ns; reset 0. Tide at which the level expires; 0 for none. -/
  expiry : Nat
  /-- DBG_NONCE; 64 bits; reset 0 before the first start (DESIGN CHOICE, log 6); each start draws it from the true-random source. -/
  nonce : DWord
  /-- DBG_STATE.RECOVERY; 1 bit; reset 0. -/
  recovery : Bool
  /-- DBG_STATE.VAULT_VALID; 1 bit; reset 0. -/
  vaultValid : Bool
  /-- R504, R509; reset none. The keys in use: slot plus 1 (1 A, 2 B); 0 when none are loaded. -/
  loaded : Nat
  /-- R501; reset empty. Slots A and B of the vault. -/
  vaultA : VaultSlot
  vaultB : VaultSlot
  /-- R495; 8 x 384 bits; reset 0. Measurement registers 1-8. -/
  meas : Tbl (BitVec 384)
  /-- R520; 1 bit; reset 1. The true-random source passes its health tests. -/
  trngOk : Bool
  /-- R497; 1 bit; reset 0. A device key is in use. -/
  devKey : Bool
  deriving DecidableEq, Repr

/-- Where the start stands (R558, R575, R576). -/
inductive Phase where
  /-- PWRGD_MAIN low, or reset held. -/
  | held
  /-- Phase 1 to 8 in progress. -/
  | run (n : Nat)
  /-- DEVICE_READY has been posted. -/
  | ready
  /-- R519: the boot ROM serves the management channel. -/
  | romOnly
  /-- R576. -/
  | outOfService
  deriving DecidableEq, Repr

/-- Start-up and reset state (chapter 21). -/
structure Start where
  /-- R558; reset held. Where the start stands. -/
  phase : Phase
  /-- R558, R566; Tide ns; reset 0. Tide from which the latest ends of Table 21.1 count. -/
  base : Nat
  /-- R566; 1 bit; reset 0. The start in progress is a warm one. -/
  warm : Bool
  /-- R566; Tide ns; reset 0. Tide at which step 2 of the warm reset begins, plus 1; 0 when none is due. -/
  warmAt : Nat
  /-- R576; reset 0. Consecutive failed starts. -/
  fails : Nat
  /-- R512, R518; 1 bit; reset 0. A warm reset of R510 waits for the return to D0. -/
  warmOnD0 : Bool
  /-- R512; 1 bit; reset 0. D3hot entry has begun (the port 0 physical function is in D3hot). -/
  d3hot : Bool
  /-- R512; Tide ns; reset 0. Tide of the D3hot entry. -/
  d3At : Nat
  /-- R211, Table 13.4; units; reset 0. Units that Moon reserves. -/
  reserved : Nat
  /-- R563; Tide ns; reset 0. Tide at which phase 7 began its work and the recorded links' training, plus 1; 0 before. -/
  initAt : Nat
  deriving DecidableEq, Repr

/-- Pins and clocks (chapter 02, Table 02.4). -/
structure Pins where
  /-- R37; reset 0. PWRGD_MAIN. -/
  pwrgd : Bool
  /-- R37; reset 1 (DESIGN CHOICE, log 6). DEV_RST_N. -/
  devRst : Bool
  /-- R37; reset 1 (not asserted). THROT_N. -/
  throt : Bool
  /-- R40, R464; reset 1 (not asserted). THERMTRIP_N, latched low. -/
  thermtrip : Bool
  /-- R43; reset 1. TIDE_REFCLK present. -/
  tideRef : Bool
  /-- R41; reset 0. VSTBY_CR in tolerance. -/
  vstby : Bool
  /-- R37, R295; reset 0 (DESIGN CHOICE, log 6). Level of the strap BIFURC_X1. -/
  bifurc : Bool
  /-- R30; 25 bits; reset 0. Rails of steps 1 to 6 that the monitors found out of tolerance, in the order of Table 02.2. -/
  badRails : BitVec 25
  deriving DecidableEq, Repr

/-- Time and telemetry (chapter 03). -/
structure Clock where
  /-- R51, R52; 6 x 64 bits; reset 0. Tide counters: dies C0-C3, X0, X1. -/
  tide : Tbl Nat
  /-- R36, R568; 1 bit; reset 0. The Tide PLL is locked. -/
  locked : Bool
  /-- R51; 1 bit; reset 0. Every die's counter has been preset and runs. -/
  aligned : Bool
  /-- TELEM_LC_LATE; 8 x 48 bits; reset 0. Late latency-critical packets per half. -/
  lcLate : Tbl Nat
  deriving DecidableEq, Repr

/-- What the block sends out.  The log grows at the front. -/
inductive Output where
  /-- A read completes with data (least significant byte first). -/
  | readData (fn : Nat) (data : List Byte)
  /-- R308: a completion with EP set. -/
  | readPoisoned (fn : Nat) (data : List Byte)
  /-- R300: a completion with Unsupported Request. -/
  | ur (fn : Nat)
  /-- R308: an error that a function's AER logs: 0 UR, 1 advisory UR, 2 poisoned TLP, 3 uncorrectable internal, 4 IDE check; with the severity
  that its registers select. -/
  | aer (fn code : Nat) (fatal : Bool)
  /-- R312: Request Retry Status. -/
  | retry (link : Nat)
  /-- A configuration read's data, or a configuration write's completion. -/
  | config (fn : Nat) (data : Nat)
  | drs (link : Nat)
  /-- R307, R355: an MSI-X message. -/
  | msix (fn vector : Nat) (addr : DWord) (data : Word)
  /-- R304: a device write to host memory, and a read request of so many bytes, with their No Snoop and Relaxed Ordering attributes. -/
  | hostWrite (link : Nat) (addr : Nat) (data : List Byte) (noSnoop relaxed : Bool)
  | hostRead (link : Nat) (addr n : Nat) (noSnoop : Bool)
  /-- An ATS translation request, or an invalidation's completion (R223). -/
  | atsRequest (space page : Nat)
  | atsInvDone (fn page : Nat)
  /-- CXL.mem data or completion, a BISnp, a CXL.cache request or a snoop response (R253, R254). -/
  | memData (line : Nat) (data : LineData) (poison : Bool)
  | memCmp (line : Nat)
  | bisnp (inv : Bool) (line : Nat)
  | cacheReq (hline : Nat) (own : Bool)
  | cacheRsp (hline : Nat) (dirty : Bool) (data : LineData) (poison : Bool)
  | cacheWb (hline : Nat) (data : LineData) (poison : Bool)
  /-- Data of a home's answer to an agent that keeps no copy (RdCur, an atomic's old value). -/
  | homeData (agent line : Nat) (data : LineData) (poison : Bool)
  /-- A YLP frame on a link: what it says, its bytes, and on a mode 2 link the datagram that carries them (R420, R422, R429). -/
  | frame (link : Nat) (f : Frame) (wire : List Byte) (udp : Option Datagram)
  /-- The answer to a frame. -/
  | ack (peer : Nat) (seq : BitVec 12) (nak : Bool)
  /-- A PMBus write of a VCORE set point, in mV (R453). -/
  | vout (half mv : Nat)
  /-- An SPDM, DOE or PLDM answer. -/
  | spdm (link code : Nat) (data : List Byte)
  | doe (link : Nat) (data : List Byte)
  | pldm (data : List Byte)
  | tap (data : Nat)
  deriving DecidableEq, Repr

end Sys2Proof.Machine
end

