-- ==== Sys2Proof/Machine/State.lean ====
section
/-! DEFINITION. Machine/State.lean: the whole state, the reasons a step can stop, and the state after reset.

`Mach` is everything the spec gives the device; `State` adds the queue of waiting commands.  No meaning touches the queue
(`State.run`), so what a command does is what it does to `Mach`. -/

namespace Sys2Proof.Machine

/-- Why a command stops with a fault. -/
inductive Fault where
  /-- A command names a line at a device physical address outside HBM, which Table 09.1 gives as not mappable: raised by
  the coherence, patrol and injection commands.  Safe: the device has no such line. -/
  | notMappable
  deriving DecidableEq, Repr

/-- Why a command is turned away. -/
inductive Refusal where
  /-- The command has no meaning yet: raised by `exec`'s refused arms.  Safe. -/
  | notModelled (mnemonic : String)
  /-- A core instruction's fields form a word that R118 refuses at load, so no loaded kernel holds it: raised by the
  meanings of core instructions.  Safe. -/
  | illFormed
  /-- The command names a core, group, cluster, die, half, link, channel or other unit that the device does not have: raised
  by every meaning with such an operand.  Safe. -/
  | noSuchUnit
  deriving DecidableEq, Repr

/-- Everything the device holds. -/
structure Mach where
  /-- R75; 48 per core; reset no resident group. Groups, key 48*core + slot. -/
  groups : Tbl Group
  /-- R81; 16 per core; reset no resident block. Blocks, key 16*core + slot. -/
  blocks : Tbl Block
  /-- R343; model; reset empty. Kernel launches by launch key. -/
  krns : Tbl Krn
  /-- R75; 1,024; reset as `Core.reset`. Logical cores, key 16*cluster + logical. -/
  cores : Tbl Core
  /-- R15; 64; reset as `Cluster.reset`. Clusters. -/
  clusters : Tbl Cluster
  /-- R263; model; reset empty. Accesses in flight, oldest first. -/
  ops : List MemOp
  /-- R89; model; reset empty. EVT.SIGs in the network. -/
  sigs : List Sig
  /-- R123; model; reset empty. FLUSHes in progress. -/
  flushes : List FlushOp
  /-- R225; 8 per engine; reset empty. Copy-engine queues, key 4*half + engine. -/
  copies : Tbl (List CopyOp)
  /-- R60; model; reset empty. Multicasts in progress. -/
  mcasts : List McastOp
  /-- Chapters 09, 10; reset `Mem.reset`. -/
  mem : Mem
  /-- Chapters 12, 13; reset `HostSt.reset`. -/
  host : HostSt
  /-- R348, R591; 64 partitions and 4 physical functions' address spaces (65 + link); reset absent. -/
  parts : Tbl Part
  /-- R335 to R341; reset as `Moon`. -/
  moon : Moon
  /-- Chapter 16; reset down. -/
  links : Links
  /-- Chapter 17; reset 600 W, OP 2. -/
  power : Power
  /-- Chapter 18; reset absent. -/
  cres : Crescent
  /-- Chapter 20; reset empty. -/
  ras : Ras
  /-- Chapter 19; reset BLANK, NONE. -/
  sec : Sec
  /-- Chapter 21; reset held. -/
  start : Start
  /-- Chapter 02. -/
  pins : Pins
  /-- Chapter 03; reset 0. -/
  clk : Clock
  /-- model; reset 0. Next identifier of an operation, block, group or launch. -/
  nextId : Nat
  /-- model; reset empty. What the block has sent out, newest first. -/
  out : List Output
  /-- model (the model's own, not the spec's); reset 0 (DESIGN CHOICE, log 1). Number of free values drawn. -/
  free : Nat
  deriving DecidableEq, Repr

/-- The machine: the device and the commands that wait, first in first out. -/
structure State where
  /-- The device. -/
  m : Mach
  /-- model; reset empty. The commands that wait, oldest first. -/
  pending : List Instr
  deriving DecidableEq, Repr

/-- A core at reset. -/
def Core.reset : Core :=
  { halted := false, haltedAt := 0, haltedSteps := 0, loc := [], l1 := [], plru := [], icache := [], ctr := [],
    ctrTide := [], ejected := 0, tq := [], acc := [], tlb := [], issueTide := 0 }

/-- A cluster at reset (R47 gives OP 2). -/
def Cluster.reset : Cluster :=
  { owner := 0, gated := false, idleSince := 0, fenced := false, live := 0, spare := 0, spareValid := false, pending := 0,
    pendingValid := false, phys := [], steps := 0, rate := { steps := 0, tj := 0, op := 2, mixed := false, valid := false },
    bank0 := 0, bank1 := 0, ordq := [], tlb := [], poweredAt := 0, stepsTide := 0 }

/-- A multicast's target that has received nothing. -/
def mcTarget0 : McTarget := { got := [], undelivered := false, blocked := 0, buffered := 0 }

/-- A slot that holds no group. -/
def Group.reset : Group :=
  { live := false, exited := false, block := 0, index := 0, age := 0, sub := 0, pc := 0, v := [], u := [], p := [],
    wait := .none, seeding := .unseeded, lanes := [], lent := false }

/-- A slot that holds no block. -/
def Block.reset : Block :=
  { live := false, krn := 0, id := 0, age := 0, launched := 0, stepsAt := 0, base := 0, granules := 0, usesAcc := false,
    paused := 0, pausedSteps := 0 }

/-- A kernel descriptor of zeros. -/
def KernelDesc.reset : KernelDesc :=
  { entry := 0, length := 0, n := 0, g := 0, replayable := false, usesAcc := false, localBytes := 0, blocks := 0,
    argBytes := 0, counters := 0, nameOff := 0, recvBytes := 0 }

/-- No launch. -/
def Krn.reset : Krn :=
  { live := false, part := 0, num := 0, fromStep := false, node := 0, handle := 0, kernel := 0, desc := KernelDesc.reset,
    code := 0, clusters := 0, args := 0, key := 0, epoch := 0, keyValid := false, lc := false, accepted := 0, total := 0,
    next := 0, ended := 0, replay := [], unseeded := false, replayed := false, stopped := false, banks := [], recv := [],
    holdSince := [], holding := [], netTide := 0, opTide := [], leftTide := [] }

/-- A Moon core at reset (log 4). -/
def MoonCore.reset : MoonCore :=
  { pc := 0, status := 0, emerg := false, task := false, sp := 0, scratch := [0, 0, 0], kLow := 0, kHigh := 0, tLow := 0,
    tHigh := 0, shadow := [0, 0, 0, 0, 0, 0, 0, 0], locked := false }

/-- A firmware slot as flash holds it before the first start (log 6). -/
def FwSlot.reset : FwSlot :=
  { pref := .plain, valid := false, version := 0, svn := 0, commit := false, digest := 0 }

/-- Moon at reset. -/
def Moon.reset : Moon :=
  { ready := false, restart := 0, cause := 0, failed := 0, history := [], ended := [], count := 0, cores := [], sram := [], wdog := 0,
    crashes := [], crashNext := 0, slotA := { FwSlot.reset with pref := .preferred }, slotB := FwSlot.reset, runsB := false,
    staged := false, heldRecs := [], shown := [] }

/-- The scale-out side at reset (R418, R443). -/
def Links.reset : Links :=
  { links := [], peers := [], devId := 0, flows := [], unicast := [], group := [], remotes := [], nextTag := 0, recs := [], recUni := [],
    recGrp := [], gm := 0, hops := 0, locked := false, err := 0, offset := 0, parent := 0, heard := [], within := 0 }

/-- Power control at reset (R448). -/
def Power.reset : Power :=
  { cap := 600, learner := false, shares := [], capNext := 600, learnerNext := false, sharesNext := [], halves := [],
    opMax := [], vout := [], voutFree := 0, hist := [], board := 0, capHalf := false, periodAt := 0, estimateAt := 0,
    stale := false, tripped := false, droops := [] }

/-- Crescent before its first start. -/
def Crescent.reset : Crescent :=
  { st := .absent, good := false, metering := false, probe := .silent, time := 0, rails := [], live := CrescentNv.reset,
    nv := CrescentNv.reset, lost := false, failedCommit := false, owed := [], commitAt := 0, checkAt := 0, fwId := 0,
    checksum := 0, closeAt := 0, ledger := [], ledgerNo := 0, ledgerAt := 0, engine := [], readings := [], sampled := false,
    mirrorAt := 0, mirror := [], mirrorInterval := 0, mirrorEvents := 0 }

/-- RAS state at reset (RAS_ALERT_MASK 0x0E). -/
def Ras.reset : Ras :=
  { ring := [], next := 0, oldest := 0, fatals := [], corrected := 0, deferred := 0, contained := 0, fatal := 0,
    mask := 0x0E, pend := 0, direct := 0, unitsRetired := 0, injLine := 0, injKind := 0, injGo := false, phys := [],
    flash := [], flashPages := [], mapDue := [], mapFails := [], patrol := 0, corrAt := [], rows := [], flashRows := [],
    rowCorr := [], hbmRows := [] }

/-- An empty vault slot. -/
def VaultSlot.reset : VaultSlot := { gen := 0, valid := false, fabric := 0, mig := 0, migPrev := 0, pfx := 0 }

/-- Security at reset (log 6). -/
def Sec.reset : Sec :=
  { life := .blank, serial := 0, minSvn := 0, owner := 0, level := .none, expiry := 0, nonce := 0, recovery := false,
    vaultValid := false, loaded := 0, vaultA := VaultSlot.reset, vaultB := VaultSlot.reset, meas := [], trngOk := true,
    devKey := false }

/-- Start-up state before PWRGD_MAIN rises. -/
def Start.reset : Start :=
  { phase := .held, base := 0, warm := false, warmAt := 0, fails := 0, warmOnD0 := false, d3hot := false, d3At := 0,
    reserved := 0, initAt := 0 }

/-- The pins before power-up: PWRGD_MAIN low, no input asserted (log 6). -/
def Pins.reset : Pins :=
  { pwrgd := false, devRst := true, throt := true, thermtrip := true, tideRef := true, vstby := false, bifurc := false, badRails := 0 }

/-- The clocks before the Tide PLL locks. -/
def Clock.reset : Clock := { tide := [], locked := false, aligned := false, lcLate := [] }

/-- The device right after reset: in the cold reset that holds it while PWRGD_MAIN is low (R42, R558), every register at its
Reset column (R11). -/
def Mach.reset : Mach :=
  { groups := [], blocks := [], krns := [], cores := [], clusters := [], ops := [], sigs := [], flushes := [], copies := [],
    mcasts := [], mem := Mem.reset, host := HostSt.reset, parts := [], moon := Moon.reset, links := Links.reset,
    power := Power.reset, cres := Crescent.reset, ras := Ras.reset, sec := Sec.reset, start := Start.reset,
    pins := Pins.reset, clk := Clock.reset, nextId := 0, out := [], free := 0 }

/-- The machine right after reset: the device in cold reset, and no command waiting. -/
def State.reset : State := { m := Mach.reset, pending := [] }

/-- What a meaning answers about the device. -/
abbrev Res := Host.Outcome Mach Fault Refusal

/-- What a command answers. -/
abbrev Out := Host.Outcome State Fault Refusal

/-- Runs a meaning over the device and leaves the queue alone. -/
def State.run (s : State) (f : Mach → Res) : Out :=
  match f s.m with
  | .next m => .next { s with m := m }
  | .fault r => .fault r
  | .refused r => .refused r

end Sys2Proof.Machine
end

