-- ==== Sys2Proof/Machine/Ops.lean ====
section
/-! DEFINITION. Machine/Ops.lean: the named operations over the device that every meaning shares: reading and changing its
parts by number, Tide, what is sent out, free values, interrupts (R307, R355) and RAS records (R529, R533, R544, R584). -/

namespace Sys2Proof.Machine

/-! Numbering. -/

/-- The cluster of core `c`. -/
def clusterOf (core : Nat) : Nat := core / 16

/-- The logical number of core `c` in its cluster. -/
def logicalOf (core : Nat) : Nat := core % 16

/-- The core of group `g`. -/
def coreOf (g : Nat) : Nat := g / 48

/-- The core of block slot `b`. -/
def blockCore (b : Nat) : Nat := b / 16

/-- The die of cluster `c`: clusters 16 d to 16 d + 15 (R15). -/
def dieOfCluster (c : Nat) : Nat := c / 16

/-- The half of cluster `c`: 2 x die + (0 west, 1 east), eight clusters each (R15, Table 18.1). -/
def halfOfCluster (c : Nat) : Nat := c / 8

/-- The half of core `c`. -/
def halfOfCore (core : Nat) : Nat := halfOfCluster (clusterOf core)

/-- The key of a function. -/
def fnKey : Fn → Nat
  | .pf l => l
  | .vf l p => 4 + 64 * l + p

/-- The upstream link of a function. -/
def fnLink : Fn → Nat
  | .pf l => l
  | .vf l _ => l

/-- The key of channel `ch` of a function. -/
def chanKey (fn : Fn) (ch : Nat) : Nat := 8 * fnKey fn + ch

/-- The address space of a function: a VF's partition, or 65 + link for a physical function (R591). -/
def spaceOf : Fn → Nat
  | .pf l => 65 + l
  | .vf _ p => p

/-- The function names a link and, for a VF, a partition number that exist (R296, R305). -/
def fnOk : Fn → Bool
  | .pf l => decide (l < 4)
  | .vf l p => decide (l < 4) && decide (1 ≤ p) && decide (p ≤ 64)

/-! Parts of the device by number. -/

def Mach.grp (m : Mach) (g : Nat) : Group := tget Group.reset m.groups g
def Mach.setGrp (m : Mach) (g : Nat) (x : Group) : Mach := { m with groups := tput Group.reset m.groups g x }
def Mach.blk (m : Mach) (b : Nat) : Block := tget Block.reset m.blocks b
def Mach.setBlk (m : Mach) (b : Nat) (x : Block) : Mach := { m with blocks := tput Block.reset m.blocks b x }
def Mach.krn (m : Mach) (k : Nat) : Krn := tget Krn.reset m.krns k
def Mach.setKrn (m : Mach) (k : Nat) (x : Krn) : Mach := { m with krns := tput Krn.reset m.krns k x }
def Mach.core (m : Mach) (c : Nat) : Core := tget Core.reset m.cores c
def Mach.setCore (m : Mach) (c : Nat) (x : Core) : Mach := { m with cores := tput Core.reset m.cores c x }
def Mach.clu (m : Mach) (c : Nat) : Cluster := tget Cluster.reset m.clusters c
def Mach.setClu (m : Mach) (c : Nat) (x : Cluster) : Mach := { m with clusters := tput Cluster.reset m.clusters c x }
def Mach.part (m : Mach) (p : Nat) : Part := tget Part.reset m.parts p
def Mach.setPart (m : Mach) (p : Nat) (x : Part) : Mach := { m with parts := tput Part.reset m.parts p x }
def Mach.modPart (m : Mach) (p : Nat) (f : Part → Part) : Mach := m.setPart p (f (m.part p))
def Mach.modSb (m : Mach) (p : Nat) (f : StepB → StepB) : Mach := m.modPart p (fun q => { q with sb := f q.sb })
def Mach.modCore (m : Mach) (c : Nat) (f : Core → Core) : Mach := m.setCore c (f (m.core c))
def Mach.modClu (m : Mach) (c : Nat) (f : Cluster → Cluster) : Mach := m.setClu c (f (m.clu c))
def Mach.modGrp (m : Mach) (g : Nat) (f : Group → Group) : Mach := m.setGrp g (f (m.grp g))
def Mach.modKrn (m : Mach) (k : Nat) (f : Krn → Krn) : Mach := m.setKrn k (f (m.krn k))
def Mach.modMem (m : Mach) (f : Mem → Mem) : Mach := { m with mem := f m.mem }
def Mach.hlink (m : Mach) (l : Nat) : HLink := tget HLink.reset m.host.links l
def Mach.modLink (m : Mach) (l : Nat) (f : HLink → HLink) : Mach :=
  { m with host := { m.host with links := tmod HLink.reset m.host.links l f } }
def Mach.fnSt (m : Mach) (k : Nat) : FnState := tget FnState.reset m.host.fns k
def Mach.modFn (m : Mach) (k : Nat) (f : FnState → FnState) : Mach :=
  { m with host := { m.host with fns := tmod FnState.reset m.host.fns k f } }
def Mach.chan (m : Mach) (k : Nat) : Chan := tget Chan.reset m.host.chans k
def Mach.setChan (m : Mach) (k : Nat) (x : Chan) : Mach :=
  { m with host := { m.host with chans := tput Chan.reset m.host.chans k x } }
def Mach.modChan (m : Mach) (k : Nat) (f : Chan → Chan) : Mach := m.setChan k (f (m.chan k))
def Mach.ylink (m : Mach) (l : Nat) : YLink := tget YLink.reset m.links.links l
def Mach.modYlink (m : Mach) (l : Nat) (f : YLink → YLink) : Mach :=
  { m with links := { m.links with links := tmod YLink.reset m.links.links l f } }
def Mach.peer (m : Mach) (k : Nat) : Peer := tget Peer.reset m.links.peers k
def Mach.modPeer (m : Mach) (k : Nat) (f : Peer → Peer) : Mach :=
  { m with links := { m.links with peers := tmod Peer.reset m.links.peers k f } }
def Mach.half (m : Mach) (h : Nat) : Half := tget Half.reset m.power.halves h
def Mach.modHalf (m : Mach) (h : Nat) (f : Half → Half) : Mach :=
  { m with power := { m.power with halves := tmod Half.reset m.power.halves h f } }
def Mach.rail (m : Mach) (r : Nat) : Rail := tget Rail.reset m.cres.rails r
def Mach.modCres (m : Mach) (f : Crescent → Crescent) : Mach := { m with cres := f m.cres }
def Mach.modRas (m : Mach) (f : Ras → Ras) : Mach := { m with ras := f m.ras }
def Mach.modSec (m : Mach) (f : Sec → Sec) : Mach := { m with sec := f m.sec }
def Mach.modStart (m : Mach) (f : Start → Start) : Mach := { m with start := f m.start }
def Mach.modMoon (m : Mach) (f : Moon → Moon) : Mach := { m with moon := f m.moon }
def Mach.modPower (m : Mach) (f : Power → Power) : Mach := { m with power := f m.power }
def Mach.modLinks (m : Mach) (f : Links → Links) : Mach := { m with links := f m.links }
def Mach.modHost (m : Mach) (f : HostSt → HostSt) : Mach := { m with host := f m.host }
def Mach.unit (m : Mach) (u : Nat) : HbmUnit := tget ⟨.free, false, false⟩ m.mem.units u
def Mach.setUnit (m : Mach) (u : Nat) (x : HbmUnit) : Mach :=
  m.modMem (fun a => { a with units := tput ⟨.free, false, false⟩ a.units u x })

/-- The queue of a copy engine, key 4*half + engine (R225). -/
def Mach.copyQ (m : Mach) (e : Nat) : List CopyOp := tget [] m.copies e
def Mach.setCopyQ (m : Mach) (e : Nat) (q : List CopyOp) : Mach := { m with copies := tput [] m.copies e q }

/-! Time (R51, R52). -/

/-- The Tide counter of die `d` (0-3 C0-C3, 4 X0, 5 X1). -/
def Mach.tideOf (m : Mach) (d : Nat) : Nat := tget 0 m.clk.tide d

/-- X0's Tide counter. -/
def Mach.now (m : Mach) : Nat := m.tideOf 4

/-- The Tide counter of a core's die (R128). -/
def Mach.coreTide (m : Mach) (core : Nat) : Nat := m.tideOf (dieOfCluster (clusterOf core))

/-- Nanoseconds. -/
def us : Nat := 1000
def ms : Nat := 1000000
def sec1 : Nat := 1000000000

/-! Bookkeeping. -/

/-- Sends something out. -/
def Mach.emit (m : Mach) (o : Output) : Mach := { m with out := o :: m.out }

/-- Takes the next identifier. -/
def Mach.bumpId (m : Mach) : Mach := { m with nextId := m.nextId + 1 }

/-- The next draw of the true-random source or of another free value (log 1). -/
def Mach.bumpFree (m : Mach) : Mach := { m with free := m.free + 1 }

/-- Status codes (Table 05.8). -/
def stOk : Nat := 0
def stBusy : Nat := 1
def stFull : Nat := 2
def stInvalid : Nat := 3
def stDenied : Nat := 4
def stNoResource : Nat := 5
def stFwRestarted : Nat := 6
def stPoisoned : Nat := 7
def stDegraded : Nat := 8
def stAborted : Nat := 9
def stTimeout : Nat := 10
def stMcastPartial : Nat := 11
def stUnseeded : Nat := 12

/-- A status word (R127). -/
def statusWord (code detail : Nat) : DWord := BitVec.ofNat 64 (code % 65536 + 65536 * (detail % 65536))

/-- Fault codes (Table 20.7). -/
def fUniform : Nat := 1
def fAddress : Nat := 2
def fPoison : Nat := 3
def fTail : Nat := 4
def fDeadlock : Nat := 5
def fWatchdog : Nat := 6
def fRemote : Nat := 7
def fAbort : Nat := 8
def fFence : Nat := 9
def fParity : Nat := 10
def fTrng : Nat := 11

/-! Conditions. -/

/-- The device serves commands: DEVICE_READY has been posted and issue has not been stopped for a reset (R313, R566). -/
def Mach.up (m : Mach) : Bool := m.start.phase == .ready

/-- A core may issue: the device runs and the thermal trip has not stopped issue (R464, R566). -/
def Mach.mayIssue (m : Mach) : Bool := m.up && !m.power.tripped

/-- Moon serves commands: the firmware runs and no restart is in progress (R332, R338); in the out-of-service state it serves
the management channel without FW_READY (R576). -/
def Mach.moonServes (m : Mach) : Bool := (m.moon.ready || m.start.phase == .outOfService) && m.moon.restart == 0

/-- The lowest-numbered cluster of a mask. -/
def firstBit (w : DWord) : Nat := ((List.range 64).find? (fun i => w.getLsbD i)).getD 64

/-- The bits set in a mask, lowest first. -/
def bitsOf (w : DWord) : List Nat := (List.range 64).filter (fun i => w.getLsbD i)

/-- The clusters of a partition, lowest first. -/
def Mach.clustersOf (m : Mach) (p : Nat) : List Nat := bitsOf (m.part p).clusters

/-- The 16 logical cores of a cluster. -/
def coresOfCluster (c : Nat) : List Nat := (List.range 16).map (fun l => 16 * c + l)

/-- The logical cores of a partition's clusters. -/
def Mach.coresOf (m : Mach) (p : Nat) : List Nat := (m.clustersOf p).flatMap coresOfCluster

/-- Active cores of a cluster (R20). -/
def Mach.liveCores (m : Mach) (c : Nat) : Nat := (List.range 16).countP (fun l => (m.clu c).live.getLsbD l)

/-- Whether a core is served (R96). -/
def Mach.coreLive (m : Mach) (core : Nat) : Bool := (m.clu (clusterOf core)).live.getLsbD (logicalOf core)

/-- The slots of block and group of a core. -/
def blockSlots (core : Nat) : List Nat := (List.range 16).map (fun i => 16 * core + i)
def groupSlots (core : Nat) : List Nat := (List.range 48).map (fun i => 48 * core + i)

/-- The resident blocks of a core, of a cluster, of a launch. -/
def Mach.blocksOfCore (m : Mach) (core : Nat) : List Nat := (tkeys m.blocks).filter (fun b => blockCore b == core && (m.blk b).live)
def Mach.blocksOfCluster (m : Mach) (c : Nat) : List Nat :=
  (tkeys m.blocks).filter (fun b => clusterOf (blockCore b) == c && (m.blk b).live)
def Mach.blocksOfKrn (m : Mach) (k : Nat) : List Nat := (tkeys m.blocks).filter (fun b => (m.blk b).live && (m.blk b).krn == k)

/-- The resident groups of a block. -/
def Mach.groupsOfBlock (m : Mach) (b : Nat) : List Nat :=
  (tkeys m.groups).filter (fun g => coreOf g == blockCore b && (m.grp g).live && (m.grp g).block == b)

/-- The partition of a launch, and whether the launch is latency-critical. -/
def Mach.krnPart (m : Mach) (k : Nat) : Nat := (m.krn k).part

/-- The resident blocks of a partition. -/
def Mach.blocksOfPart (m : Mach) (p : Nat) : List Nat :=
  (tkeys m.blocks).filter (fun b => (m.blk b).live && m.krnPart (m.blk b).krn == p)

/-- The launches of a partition that have not ended. -/
def Mach.krnsOfPart (m : Mach) (p : Nat) : List Nat := (tkeys m.krns).filter (fun k => (m.krn k).live && (m.krn k).part == p)

/-- The VF key of partition `p`. -/
def Mach.vfKey (m : Mach) (p : Nat) : Nat := 4 + 64 * (m.part p).link + p

/-! Accounting (R408). -/

/-- Adds to accounting counter `i` of partition `p` (none for p = 0). -/
def Mach.account (m : Mach) (p i n : Nat) : Mach :=
  if p = 0 then m else m.modPart p (fun q => { q with acct := tmod 0 q.acct i (· + n) })

/-- A partition's request takes its bytes from the bucket of a resource at a place, where it is in budget (R389, R390). -/
def Mach.spend (m : Mach) (p resource place n : Nat) : Mach :=
  let t := tget 0 (m.part p).buckets (16 * resource + place)
  if p = 0 || decide (t < n) then m else m.modPart p (fun q => { q with buckets := tput 0 q.buckets (16 * resource + place) (t - n) })

/-! Interrupts (R307, R355, R369). -/

/-- Sends an MSI-X message on a vector of a function, or sets its PBA bit where the entry is masked, the function has MSI-X
disabled or masked, or the function is in D3hot or is a VF whose Memory Space Enable is clear (R307, R315).  While the function's link is down a VF's message is discarded
(R317), and a physical function's stays pending until the link is up (R378). -/
def Mach.sendMsix (m : Mach) (key link vector : Nat) : Mach :=
  let f := m.fnSt key
  let e := tget (⟨0, 0, true⟩ : MsixEntry) f.table vector
  if !f.msixEn || f.msixMask || e.masked || f.d3hot || (decide (4 ≤ key) && !f.mse) || (decide (key < 4) && !(m.hlink link).up) then m.modFn key (fun f => { f with pba := tput false f.pba vector true })
  else if (m.hlink link).up then m.emit (.msix key vector e.addr e.data) else m

/-- Raises a vector of the port 0 physical function (R307). -/
def Mach.raisePf (m : Mach) (vector : Nat) : Mach := m.sendMsix 0 0 vector

/-- Raises role `role` (0-4, Table 14.4) for partition `p`: the cause bit and one message, on vector 0 where the partition
has no such vector (R355); nothing while the partition is frozen or resetting (R357, R369). -/
def Mach.raiseVf (m : Mach) (p role : Nat) : Mach :=
  if (m.part p).st == .running then
    let m := m.modPart p (fun q => { q with irqCause := q.irqCause ||| (1#5 <<< role) })
    m.sendMsix (m.vfKey p) (m.part p).link (if role < (m.part p).msix then role else 0)
  else m

/-- The bit of an AER status or severity register that stands for a code. -/
def aerBit (code : Nat) : Nat := code - 1

/-- Logs a device error in a function's AER, with the severity that its registers select (R308); an advisory error is non-fatal. -/
def Mach.logAer (m : Mach) (fn code : Nat) : Mach :=
  let f := m.fnSt fn
  (m.modFn fn (fun f => { f with aer := f.aer ||| (1#4 <<< aerBit code), aerAdvisory := f.aerAdvisory || code == 1 })).emit
    (.aer fn code (code != 1 && f.aerSev.getLsbD (aerBit code)))

/-- An uncorrectable internal error of port 0 that the CXL RAS capability records (R308). -/
def Mach.cxlError (m : Mach) : Mach := (m.logAer 0 3).modHost (fun h => { h with cxlRas := true })

/-! RAS records (R529, R544, R545, R584). -/

/-- A record with nothing beside its code, severity, partition, launch and Tide. -/
def RasRec.mk0 (code sev part num tide : Nat) : RasRec :=
  { seq := 0, tide := tide, code := code, sev := sev, part := part, krn := num, addr := 0, kind := 0, die := 0, place := 0,
    core := 0, fault := 0, status := 0, detail := List.replicate 20 0, body := [] }

/-- The length of a record in 64-byte units. -/
def RasRec.units (r : RasRec) : Nat := 1 + (r.body.length + 63) / 64

/-- The 64-byte header of a record as a ring holds it (Table 20.5). -/
def RasRec.header (r : RasRec) (units : Nat) : List Byte :=
  leBytes 8 r.seq ++ leBytes 8 r.tide ++ leBytes 2 r.code ++ leBytes 1 r.sev ++ leBytes 1 r.part ++ leBytes 4 r.krn ++
    leBytes 8 r.addr ++ leBytes 1 r.kind ++ leBytes 1 r.die ++ leBytes 1 r.place ++ leBytes 1 r.core ++ leBytes 2 r.fault ++
    leBytes 2 r.status ++ leBytes 4 units ++ (r.detail ++ List.replicate 20 0).take 20

/-- A sum that saturates at `top`. -/
def satAdd (top a b : Nat) : Nat := if a + b < top then a + b else top

/-- Counts a record in RAS_SUMMARY: corrected by severity 0, deferred by code 0x0010, contained by severity 2. -/
def Ras.count (r : Ras) (code sev : Nat) : Ras :=
  if sev = 0 then { r with corrected := satAdd 65535 r.corrected 1 }
  else if code = 0x10 then { r with deferred := satAdd 65535 r.deferred 1 }
  else if sev = 2 then { r with contained := satAdd 65535 r.contained 1 }
  else if sev = 3 then { r with fatal := satAdd 255 r.fatal 1 }
  else r

/-- Records the device ring holds at most: 16 MiB of 64-byte headers (R544). -/
def devRingCap : Nat := 262144

/-- Writes a record to the device ring, which holds its header; sets the pending bit of its severity where the mask bit is 1
(R584); counts it. -/
def Ras.log (s : Ras) (r : RasRec) : Ras :=
  let ring := ({ r with seq := s.next, body := [] } :: s.ring).take devRingCap
  let s := { s.count r.code r.sev with ring := ring, next := s.next + 1 }
  let s := { s with oldest := if s.next - s.oldest > devRingCap then s.next - devRingCap else s.oldest }
  if s.mask.getLsbD r.sev then { s with pend := s.pend ||| (1#5 <<< r.sev) } else s

/-- Keeps the newest records whose lengths fit 256 KiB (R544). -/
def fitRing : Nat → List RasRec → List RasRec
  | _, [] => []
  | room, r :: l => if r.units ≤ room then r :: fitRing (room - r.units) l else []

/-- Writes a record to a partition's ring in full (R544, R549). -/
def Mach.logPartNow (m : Mach) (p : Nat) (r : RasRec) : Mach :=
  m.modPart p (fun q =>
    { q with ring := fitRing 4096 ({ r with seq := q.ringNext } :: q.ring), ringNext := q.ringNext + 1 })

/-- Writes a record to the device ring; one that a firmware restart interrupts is held (R553). -/
def Mach.logDev (m : Mach) (r : RasRec) : Mach :=
  if m.moon.restart == 0 || r.sev == 3 then m.modRas (·.log r)
  else m.modMoon (fun a => { a with heldRecs := a.heldRecs ++ [(0, r)] })

/-- Writes a record to a partition's ring and then raises vector 1 (R533, R549); held during a restart (R553). -/
def Mach.logPart (m : Mach) (p : Nat) (r : RasRec) : Mach :=
  if m.moon.restart == 0 then (m.logPartNow p r).raiseVf p 1
  else m.modMoon (fun a => { a with heldRecs := a.heldRecs ++ [(p, r)] })

/-- An error notice (R89, R90, R354, R549): a record with its status, and vector 1 of the partition.  Table 20.6 gives it no code
(log 13). DEDUCED: log 55. -/
def Mach.notice (m : Mach) (p num status : Nat) : Mach :=
  let r := { RasRec.mk0 (Config.rasCode 12).1 (Config.rasCode 12).2 p num m.now with status := status }
  if p = 0 then (m.logDev r).raisePf 1 else (m.logDev r).logPart p r

/-- The vault slot whose keys are in use, if any (R504, R509). -/
def Mach.vault (m : Mach) : Option VaultSlot :=
  if m.sec.loaded = 1 then some m.sec.vaultA else if m.sec.loaded = 2 then some m.sec.vaultB else none

/-- A record of the device ring with Tide now. -/
def Mach.event (m : Mach) (code sev : Nat) : Mach := m.logDev (RasRec.mk0 code sev 0 0 m.now)

/-- The same, with a die byte and a place byte (Table 20.5). -/
def Mach.eventAt (m : Mach) (code sev die place core : Nat) : Mach :=
  m.logDev { RasRec.mk0 code sev 0 0 m.now with die := die, place := place, core := core }

/-- A mismatch that a second response put right is recorded as corrected (R526). -/
def Mach.reread (m : Mach) (check : ReadCheck) (die place : Nat) : Mach :=
  if check == .retried then m.eventAt 0x3 0 die place 0 else m

/-- The partition that owns a device physical address, 0 for none (R348). -/
def Mach.ownerOf (m : Mach) (pa : Nat) : Nat :=
  match (m.unit (pa / 2 ^ 30)).use with
  | .part p => p
  | _ => 0

/-- The units of a partition in ascending order (R350). -/
def Mach.unitsOf (m : Mach) (p : Nat) : List Nat := (tkeys m.mem.units).filter (fun u => (m.unit u).use == .part p)

/-- The allotment offset of a device physical address of partition `p` (R350). -/
def Mach.offsetOf (m : Mach) (p pa : Nat) : Nat :=
  2 ^ 30 * ((m.unitsOf p).countP (fun u => decide (u < pa / 2 ^ 30))) + pa % 2 ^ 30

/-- Some mapping of some function names a page (64 KiB) of HBM, an aperture included (R542). -/
def Mach.pageMapped (m : Mach) (page : Nat) : Bool :=
  let p := m.ownerOf (65536 * page)
  let o := m.offsetOf p (65536 * page)
  p != 0 && ((m.part p).maps.any (fun r => r.target == 0 && decide (r.tgt ≤ o) && decide (o < r.tgt + r.len)) ||
    m.parts.any (fun e => e.2.maps.any (fun r => r.aperture == p + 1)))

/-- An update of a die's repair map becomes due, within 1 s (R539). -/
def Mach.mapUpdate (m : Mach) (die : Nat) : Mach :=
  m.modRas (fun r => { r with mapDue := if tget 0 r.mapDue die = 0 then tput 0 r.mapDue die (m.now + 1) else r.mapDue })

/-- A contained record about a device physical address: the device ring, and the owner's ring and vector 1 (Table 20.3). -/
def Mach.contained (m : Mach) (code pa : Nat) : Mach :=
  let p := m.ownerOf pa
  let r := { RasRec.mk0 code 2 p 0 m.now with addr := pa, kind := 1 }
  if p = 0 then m.logDev r else (m.logDev r).logPart p { r with addr := m.offsetOf p pa, kind := 2 }

/-- Retires a page, where the list of 4,096 has room (R542, R543); the map of die C0 holds the list (log 21). -/
def Mach.retirePage (m : Mach) (page : Nat) : Mach :=
  if m.mem.retired.contains page then m
  else if 4096 ≤ m.mem.retired.length then m.modMem (fun a => { a with retireWhenFree := (a.retireWhenFree ++ [page]).eraseDups })
  else
    ((m.modMem (fun a => { a with retired := a.retired ++ [page], retireWhenFree := a.retireWhenFree.filter (· != page) })).mapUpdate 0).contained
      0x25 (65536 * page)

/-- Retires the pages that were to be retired once free and are free now (R542). -/
def Mach.retireFreed (m : Mach) : Mach :=
  (m.mem.retireWhenFree.filter (fun g => !m.pageMapped g)).foldl (fun m g => m.retirePage g) m

/-- A page's line has been poisoned by an uncorrectable error (R542): a free page is retired at once, a page with two events
within 24 h when it is next free. -/
def Mach.notePoison (m : Mach) (page : Nat) : Mach :=
  if !m.pageMapped page then m.retirePage page
  else
    let again := m.mem.poisonHist.any (fun e => e.1 == page && decide (m.now ≤ e.2 + 24 * 3600 * 1000000000))
    m.modMem (fun a =>
      { a with poisonHist := (page, m.now) :: a.poisonHist,
               retireWhenFree := if again then (a.retireWhenFree ++ [page]).eraseDups else a.retireWhenFree })

/-- A deferred record for a poisoned line (R533): the device ring, and the owner's ring and vector 1, or vector 1 of the port
0 physical function for an unowned page; the page's retirement where an uncorrectable error poisoned it (R542; DEDUCED: log 21).
`src` is detail byte 44. -/
def Mach.poisonEvent (m : Mach) (line src : Nat) : Mach :=
  let pa := 64 * line
  let p := m.ownerOf pa
  let r := { RasRec.mk0 0x10 1 p 0 m.now with addr := pa, kind := 1, detail := leBytes 20 src }
  let m := m.logDev r
  let m := if p = 0 then m.raisePf 1 else m.logPart p { r with addr := m.offsetOf p pa, kind := 2 }
  if decide (src ≤ 3) || src == 6 then m.notePoison (pa / 65536) else m

/-- A deferred record about a poisoned line that a consumer of partition `part` and launch `num` met: consumption (0x11) or a
discarded write (0x12, R532): the device ring, and the owner's ring and vector 1 (Table 20.3, R533). -/
def Mach.deferred (m : Mach) (code line part num : Nat) : Mach :=
  let pa := 64 * line
  let r := { RasRec.mk0 code 1 part num m.now with addr := pa, kind := 1 }
  let m := m.logDev r
  if m.ownerOf pa = 0 then m.raisePf 1 else m.logPart (m.ownerOf pa) { r with addr := m.offsetOf (m.ownerOf pa) pa, kind := 2 }

/-- ALERT_N is low (R584): asserted by a masked pending bit or by a direct condition. -/
def Mach.alertLow (m : Mach) : Bool := (m.ras.mask &&& m.ras.pend) != 0 || m.ras.direct != 0

/-- WAKE_N is low (Table 02.4): a function in D3hot holds an interrupt that it cannot send (PRESUMED: log 115). -/
def Mach.wakeLow (m : Mach) : Bool := m.host.fns.any (fun e => e.2.d3hot && !e.2.pba.isEmpty)

/-- A command that is not due leaves the device as it was (log 2). -/
def gate (m : Mach) (due : Bool) (effect : Mach) : Res := if due then .next effect else .next m

end Sys2Proof.Machine
end

