-- ==== Sys2Proof/Machine/Mmu.lean ====
section
/-! DEFINITION. Machine/Mmu.lean: mappings, translation and access checks (R220 to R223, R298, R350, R367, R430). -/

namespace Sys2Proof.Machine

/-- What an access needs of a page (Table 09.2). -/
inductive Acc where
  | read | write | fetch
  /-- Moon's read of an image, which the Access attribute does not bind (R131). -/
  | image
  deriving DecidableEq, Repr

/-- Whether a mapping's access code (0 read, 1 read-write, 2 execute-only) allows an access (R220, R222). -/
def accessOk : Acc → Nat → Bool
  | .read, a => a == 0 || a == 1
  | .write, a => a == 1
  | .fetch, a => a == 2
  | .image, _ => true

/-- The mapping that holds a virtual address, one whose translation has stopped apart (R222, R224). -/
def findMap (maps : List MapRange) (va : Nat) : Option MapRange :=
  maps.find? (fun r => decide (r.va ≤ va) && decide (va < r.va + r.len) && !r.stopped)

/-- The outcome of a translation. -/
inductive Tr where
  | ok (t : Target)
  | fault
  /-- The host's translation of host page `page` must be fetched first (R223). -/
  | ats (page : Nat)
  deriving DecidableEq, Repr

/-- The device physical address of an allotment offset of partition `p`, none beyond the allotment (R350). -/
def Mach.allotPa (m : Mach) (p off : Nat) : Option Nat :=
  ((m.unitsOf p)[off / 2 ^ 30]?).map (fun u => u * 2 ^ 30 + off % 2 ^ 30)

/-- The I/O die whose translation cache serves a space: X0 (0) for links of port 0, X1 (1) else (R223, R304). -/
def Mach.atcDie (m : Mach) (space : Nat) : Nat :=
  let link := if space < 65 then (m.part space).link else space - 65
  if link = 0 then 0 else 1

/-- The key of a host page in a die's translation cache. -/
def atcKey (die space page : Nat) : Nat := 2 ^ 60 * die + 2 ^ 50 * space + page

/-- The number of a window word's fields (R430). -/
def winDst (w : Nat) : Nat := w % 2 ^ 17
def winPart (w : Nat) : Nat := w / 2 ^ 17 % 2 ^ 7
def winMulticast (w : Nat) : Bool := w / 2 ^ 24 % 2 == 1
def winBase (w : Nat) : Nat := (w / 2 ^ 25 % 2 ^ 31) * 2 ^ 21
def winMailbox (w : Nat) : Bool := w / 2 ^ 56 % 2 == 1
def winEvent (w : Nat) : Bool := w / 2 ^ 57 % 2 == 1

/-- Where offset `o` of a mapping lies (R220, R350, R367, R430).  A page retired under R543 is absent from an aperture. -/
def Mach.targetOf (m : Mach) (space : Nat) (r : MapRange) (o : Nat) : Tr :=
  if r.target = 0 then
    match m.allotPa (if r.aperture = 0 then space else r.aperture - 1) (r.tgt + o) with
    | some pa => if r.aperture != 0 && m.mem.retired.contains (pa / 65536) then .fault else .ok (.hbm pa)
    | none => .fault
  else if r.target = 1 then
    let ha := r.tgt + o
    match tfind m.mem.atc (atcKey (m.atcDie space) space (ha / 65536)) with
    | some 0 => .fault
    | some t => .ok (.host ((t - 1) * 65536 + ha % 65536))
    | none => .ats (ha / 65536)
  else .ok (.window r.tgt (winPart r.tgt) (winBase r.tgt + o))

/-- The translation of a virtual address of a space for an access (R222). -/
def Mach.translate (m : Mach) (space : Nat) (a : Acc) (va : Nat) : Tr :=
  match findMap (m.part space).maps va with
  | some r => if accessOk a r.access then m.targetOf space r (va - r.va) else .fault
  | none => .fault

/-- The translation's mapping range, for its ordering attribute and kind. -/
def Mach.mapOf (m : Mach) (space va : Nat) : Option MapRange := findMap (m.part space).maps va

/-- Whether every byte of a range is mapped for an access, looked up page by page (64 KiB). -/
def Mach.mappedFor (m : Mach) (space : Nat) (a : Acc) (va len : Nat) : Bool :=
  len == 0 ||
    (List.range ((va + len - 1) / 65536 - va / 65536 + 1)).all (fun i =>
      match findMap (m.part space).maps (if i = 0 then va else (va / 65536 + i) * 65536) with
      | some r => accessOk a r.access
      | none => false)

/-- Sends an ATS translation request once (R223). -/
def Mach.askAts (m : Mach) (space page : Nat) : Mach :=
  if m.mem.atsWait.contains (space, page) then m
  else (m.modMem (fun a => { a with atsWait := a.atsWait ++ [(space, page)] })).emit (.atsRequest space page)

/-- Forgets the host's answer "no translation" once an access has faulted on it (R223). -/
def Mach.dropRefused (m : Mach) (space va : Nat) : Mach :=
  match m.mapOf space va with
  | some r =>
    if r.target = 1 then
      let k := atcKey (m.atcDie space) space ((r.tgt + (va - r.va)) / 65536)
      match tfind m.mem.atc k with
      | some 0 => m.modMem (fun a => { a with atc := tdel a.atc k })
      | _ => m
    else m
  | none => m

/-- Whether two ranges share a byte. -/
def overlap (a la b lb : Nat) : Bool := decide (a < b + lb) && decide (b < a + la)

end Sys2Proof.Machine
end

