-- ==== Sys2Proof/Machine/HomeMem.lean ====
section
/-! DEFINITION. Machine/HomeMem.lean: HBM, the slices, the directory, and accesses performed whole at a line's coherence point
(R212 to R216, R237 to R241, R245, R252, R256, R526 to R532). -/

namespace Sys2Proof.Machine

/-- Lines of device HBM (Table 09.1): 288 GiB / 64. -/
def hbmLines : Nat := 288 * 2 ^ 24

/-- The home slice of a line (R212), over the line address PA[47:6]. -/
def homeSlice (line : Nat) : Nat :=
  (line % 128) ^^^ (line / 2 ^ 7 % 128) ^^^ (line / 2 ^ 14 % 128) ^^^ (line / 2 ^ 21 % 128) ^^^ (line / 2 ^ 28 % 128) ^^^
    (line / 2 ^ 35 % 128)

/-- The key of a host line in the slices (R254). -/
def hostKey (hline : Nat) : Nat := 2 ^ 46 + hline

/-- The slice of a slice key: R212, and for a host line with address bits [51:48] XORed into s[3:0] (R254). -/
def sliceOf (key : Nat) : Nat :=
  if key < 2 ^ 46 then homeSlice key
  else homeSlice ((key - 2 ^ 46) % 2 ^ 42) ^^^ ((key - 2 ^ 46) / 2 ^ 42 % 16)

/-- The set of a slice key: PA[24:13] (R213). -/
def sliceSet (key : Nat) : Nat := key / 128 % 4096

/-- The compute die of a line's home slice (R212). -/
def homeDie (line : Nat) : Nat := homeSlice line / 32

/-- The stack of a line: s div 16 (R218). -/
def stackOf (line : Nat) : Nat := homeSlice line / 16

/-- The controller of a line in its stack: 0 for channels 0-15 (R218). -/
def controllerOf (line : Nat) : Nat := 2 * stackOf line + line / 128 % 2

/-- The stack-local address of a line's first byte (R218). -/
def stackAddr (line : Nat) : Nat := (line / 128) * 1024 + (homeSlice line % 16) * 64

/-- The channel of a line within its stack (R218). -/
def channelOf (line : Nat) : Nat := homeSlice line % 16 + 16 * (line / 128 % 2)

/-- Whether a line is remote for RLC `h`: homed on another die (R216). -/
def remoteFor (h line : Nat) : Bool := homeDie line != h / 2

/-- The key of a line at an RLC. -/
def rlcKey (h line : Nat) : Nat := 8 * line + h

/-- The set of a line at an RLC: PA[26:13] (R216). -/
def rlcSet (line : Nat) : Nat := line / 128 % 16384

/-- The ordering attribute of a line's page (R221). -/
def Mach.lineOrd (m : Mach) (line : Nat) : Bool := tget false m.mem.pageOrd (line / 1024)

/-- The way mask of a fill (R214): the requester's partition, else the page owner's, else way 0. -/
def Mach.wayMask (m : Mach) (part line : Nat) : BitVec 16 :=
  if part ≠ 0 then (m.part part).ways
  else if m.ownerOf (64 * line) ≠ 0 then (m.part (m.ownerOf (64 * line))).ways else 1

/-! HBM. -/

/-- The 64 bytes of a line in HBM. -/
def Mem.hbmLine (a : Mem) (line : Nat) : LineData := lineOf ((List.range 64).map (fun i => tget 0 a.hbm (64 * line + i)))

/-- Writes bytes to a memory table from an address. -/
def putBytes (t : Tbl Byte) (at_ : Nat) : List Byte → Tbl Byte
  | [] => t
  | b :: l => putBytes (tput 0 t at_ b) (at_ + 1) l

/-- Reads bytes of a memory table. -/
def getBytes (t : Tbl Byte) (at_ n : Nat) : List Byte := (List.range n).map (fun i => tget 0 t (at_ + i))

/-- Writes a line to HBM with its Tail, poisoned or not (R219). -/
def Mem.hbmPut (a : Mem) (line : Nat) (d : LineData) (poison : Bool) : Mem :=
  { a with hbm := putBytes a.hbm (64 * line) (lineBytes d), hbmPoison := tput false a.hbmPoison line poison,
           hbmErr := tput 0 a.hbmErr line 0 }

/-- The key under which the controllers read and write a line (R219, R497): 1 is the device key, of lines that no partition owns; a
partition's key is its draw's number plus 2; 0 is no key. -/
def Mach.keyOf (m : Mach) (line : Nat) : Nat :=
  let p := m.ownerOf (64 * line)
  if p = 0 then 1 else if (m.part p).keyed then (m.part p).keyId + 2 else 0

/-- Encrypts a line under its owner's key and writes it to HBM (R219). -/
def Mach.hbmStore (m : Mach) (line : Nat) (d : LineData) (poison : Bool) : Mach :=
  m.modMem (fun a => { a.hbmPut line d poison with lineKey := tput 0 a.lineKey line (m.keyOf line) })

/-- What HBM's line decrypts to under its owner's key, and whether it carries the poison Tail (R219, R497): a line written under another
key reads as a free value (log 126). -/
def Mach.hbmLoad (m : Mach) (line : Nat) : LineData × Bool :=
  let k := tget 0 m.mem.lineKey line
  if k = 0 || k = m.keyOf line then (m.mem.hbmLine line, tget false m.mem.hbmPoison line)
  else Config.garbled k (m.keyOf line) line (m.mem.hbmLine line)

/-- Writes a line to HBM, which counts in BYTES_HBM_WR of the page's owner (R408), unless an aperture asks for it (R367). -/
def Mach.hbmWriteFor (m : Mach) (line : Nat) (d : LineData) (poison charge : Bool) : Mach :=
  let m := m.hbmStore line d poison
  if charge then (m.account (m.ownerOf (64 * line)) 3 64).spend (m.ownerOf (64 * line)) 1 (controllerOf line) 64 else m

/-- A write-back that is charged. -/
def Mach.hbmWrite (m : Mach) (line : Nat) (d : LineData) (poison : Bool) : Mach := m.hbmWriteFor line d poison true

/-- An uncorrectable event in an HBM row (R541): the second marks it for post-package repair at the next start, while its stack has
resources for that; else the line's page is retired when it is free.  DESIGN CHOICE: log 141. -/
def Mach.hbmRowEvent (m : Mach) (line : Nat) : Mach :=
  let row := Config.hbmRow line
  let die := stackOf line / 2
  let n := tget 0 m.ras.hbmRows row + 1
  let map := tget RowMap.reset m.ras.rows die
  let m := m.modRas (fun r => { r with hbmRows := tput 0 r.hbmRows row n })
  if n < 2 || map.hbm.contains row then m
  else if map.hbm.length < Config.hbmRepairs (stackOf line) then
    (m.modRas (fun r => { r with rows := tput RowMap.reset r.rows die { map with hbm := map.hbm ++ [row] } })).mapUpdate die
  else if !m.pageMapped (line / 1024) then m.retirePage (line / 1024)
  else m.modMem (fun a => { a with retireWhenFree := (a.retireWhenFree ++ [line / 1024]).eraseDups })

/-- A copy of a line that an RLC holds good (R529). -/
def Mach.rlcCopy (m : Mach) (line : Nat) : Option LineData :=
  (((List.range 8).filterMap (fun h => tfind m.mem.rlc (rlcKey h line))).find? (fun l => !l.poison)).map (·.data)

/-- Reads a line from HBM for a partition (0 for none), which counts in BYTES_HBM_RD (R408).  An injected error is met here
(R529, R548): a correctable one is corrected and logged; a line with an uncorrectable one is recovered from an RLC's copy, or else
poisoned. -/
def Mach.hbmRead (m : Mach) (line part : Nat) : (LineData × Bool) × Mach :=
  let m := (m.account part 2 64).spend part 0 (controllerOf line) 64
  let d := m.hbmLoad line
  match tget 0 m.mem.hbmErr line with
  | 0 => (d, m)
  | 1 =>
    let m := m.modMem (fun a => { a with hbmErr := tput 0 a.hbmErr line 0 })
    (d, m.logDev { RasRec.mk0 0x2 0 0 0 m.now with addr := 64 * line, kind := 1 })
  | _ =>
    let m := m.hbmRowEvent line
    match m.rlcCopy line with
    | some x => ((x, false), (m.hbmStore line x false).logDev { RasRec.mk0 0x6 0 0 0 m.now with addr := 64 * line, kind := 1 })
    | none =>
      let m := m.modMem (fun a => { a with hbmErr := tput 0 a.hbmErr line 0, hbmPoison := tput false a.hbmPoison line true })
      ((d.1, true), m.poisonEvent line 3)

/-! Slices (R213). -/

/-- Charges a prefetched line that no demand hit to RUNAHEAD_BYTES (R217, R407). -/
def Mach.chargeRa (m : Mach) (ra : Nat) : Mach := if ra = 0 then m else m.account (ra - 1) 8 64

/-- Takes the next stamp of the least-recently-used orders. -/
def Mach.tickLru (m : Mach) : Mach := m.modMem (fun a => { a with clock := a.clock + 1 })

/-- Throws a line out of its slice: a dirty line goes to HBM, or to the host for a host line (R213, R254). -/
def Mach.sliceEvict (m : Mach) (key : Nat) (l : LlcLine) : Mach :=
  let m := (m.modMem (fun a => { a with llc := tdel a.llc key })).chargeRa l.ra
  if !l.dirty then m
  else if key < 2 ^ 46 then m.hbmWrite key l.data l.poison else m.emit (.cacheWb (key - 2 ^ 46) l.data l.poison)

/-- Allocates a line in its slice in the least recently used way of the mask, or a free one (R213, R214). -/
def Mach.sliceFill (m : Mach) (key : Nat) (mask : BitVec 16) (l : LlcLine) : Mach :=
  let m := m.tickLru
  let mask := if mask = 0 then 1 else mask
  let same := m.mem.llc.filter (fun e => sliceOf e.1 == sliceOf key && sliceSet e.1 == sliceSet key && e.1 != key)
  let freeWay := (List.range 16).find? (fun w => mask.getLsbD w && same.all (fun e => e.2.way != w))
  match freeWay with
  | some w => m.modMem (fun a => { a with llc := tins a.llc key { l with way := w, lru := a.clock } })
  | none =>
    match argMin (fun e => e.2.lru) (same.filter (fun e => mask.getLsbD e.2.way)) with
    | some v =>
      let m := m.sliceEvict v.1 v.2
      m.modMem (fun a => { a with llc := tins a.llc key { l with way := v.2.way, lru := a.clock } })
    | none => m

/-- A line's use: the newest stamp; the bytes of a prefetched line that a partition's demand hits count in its BYTES_HBM_RD (R407), which
an access charged to nobody leaves open (R367). -/
def Mach.sliceTouch (m : Mach) (key part : Nat) (l : LlcLine) : Mach :=
  let m := m.tickLru
  let hit := part != 0 && l.ra != 0
  let m := if hit then m.account (l.ra - 1) 2 64 else m
  m.modMem (fun a => { a with llc := tins a.llc key { l with lru := a.clock, ra := if hit then 0 else l.ra } })

/-- The slice's copy, or HBM's, which is then kept when `alloc` (R213, R214): the home's own value of the line. -/
def Mach.homeFetch (m : Mach) (line part : Nat) (alloc : Bool) : (LineData × Bool) × Mach :=
  match tfind m.mem.llc line with
  | some l => ((l.data, l.poison), m.sliceTouch line part l)
  | none =>
    let r := m.hbmRead line part
    (r.1, if alloc then r.2.sliceFill line (r.2.wayMask part line)
        { data := r.1.1, dirty := false, poison := r.1.2, way := 0, lru := 0, ra := 0, host := .invalid } else r.2)

/-- Writes a whole line at its home: into the slice, or to HBM when the slice does not hold it and does not allocate (R225). -/
def Mach.homeStore (m : Mach) (line part : Nat) (d : LineData) (poison alloc : Bool) : Mach :=
  match tfind m.mem.llc line with
  | some l =>
    let l := { l with data := d, dirty := true, poison := poison }
    m.sliceTouch line part l
  | none =>
    if alloc then m.sliceFill line (m.wayMask part line)
      { data := d, dirty := true, poison := poison, way := 0, lru := 0, ra := 0, host := .invalid }
    else m.hbmWrite line d poison

/-! RLCs and the directory (R216, R239, R241). -/

/-- A line at an RLC. -/
def Mach.rlcLine (m : Mach) (h line : Nat) : Option RlcLine := tfind m.mem.rlc (rlcKey h line)
def Mach.rlcSetLine (m : Mach) (h line : Nat) (l : RlcLine) : Mach :=
  m.modMem (fun a => { a with rlc := tins a.rlc (rlcKey h line) l })

/-- Removes a line from an RLC; a read-ahead line that no demand hit is charged (R217). -/
def Mach.rlcDrop (m : Mach) (h line : Nat) : Mach :=
  match m.rlcLine h line with
  | some l => (m.modMem (fun a => { a with rlc := tdel a.rlc (rlcKey h line) })).chargeRa l.ra
  | none => m

/-- The directory entry of a line; none is Uncached. -/
def Mach.dirOf (m : Mach) (line : Nat) : Option DirEntry := tfind m.mem.dir line

/-- Removes the directory entry: Uncached. -/
def Mach.dirDrop (m : Mach) (line : Nat) : Mach := m.modMem (fun a => { a with dir := tdel a.dir line })

/-- A message in flight concerns a line. -/
def CohMsg.line : CohMsg → Nat
  | .snoop _ _ l _ _ _ => l
  | .bisnp _ l _ _ => l
  | .data _ _ l _ _ _ => l
  | .rspI _ l _ => l
  | .rspS _ l _ => l
  | .rspData _ l _ _ _ => l
  | .wbInFlight _ l _ _ _ _ => l
  | .cmp _ l => l
  | .wback _ l => l
  | .evict _ _ l _ _ => l

/-! Transactions and messages (R242, R243). -/

/-- The first transaction open on a line. -/
def Mach.txnOf (m : Mach) (line : Nat) : Option Txn := m.mem.txns.find? (fun t => t.req.line == line)

/-- Changes the transaction of a line. -/
def Mach.modTxn (m : Mach) (line : Nat) (f : Txn → Txn) : Mach :=
  m.modMem (fun a => { a with txns := a.txns.map (fun (t : Txn) => if t.req.line == line then f t else t) })

/-- Closes the transaction of a line. -/
def Mach.closeTxn (m : Mach) (line : Nat) : Mach := m.modMem (fun a => { a with txns := a.txns.filter (fun (t : Txn) => t.req.line != line) })

/-- A transaction that awaits nothing yet. -/
def Txn.of (q : HomeReq) : Txn :=
  { req := q, waits := [], dataWait := false, forwarded := false, clean := false, grant := none, dirties := 0 }

/-- Opens a transaction. -/
def Mach.openTxn (m : Mach) (t : Txn) : Mach := m.modMem (fun a => { a with txns := a.txns ++ [t] })

/-- The slice of a key has a free transaction (R242). -/
def Mach.txnRoom (m : Mach) (key : Nat) : Bool := decide (m.mem.txns.countP (fun t => sliceOf t.req.line == sliceOf key) < 128)

/-- Puts a message in flight. -/
def Mach.post (m : Mach) (c : CohMsg) : Mach := m.modMem (fun a => { a with msgs := a.msgs ++ [c] })

/-- Takes a message out of flight. -/
def Mach.unpost (m : Mach) (c : CohMsg) : Mach := m.modMem (fun a => { a with msgs := a.msgs.erase c })

/-- Sends a snoop or a forward. -/
def Mach.sendSnoop (m : Mach) (k : SnoopKind) (rlc line req : Nat) (own : Bool) : Mach := m.post (.snoop k rlc line req own m.now)

/-- The RLCs of a sharer vector, one apart. -/
def sharersBut (e : DirEntry) (q : Nat) : List Nat := (List.range 8).filter (fun h => h != q && e.sharers.getLsbD h)

/-- A request only reads: a shared line serves it without a snoop. -/
def HomeReq.reads (q : HomeReq) : Bool :=
  match q.kind with
  | .rds _ | .rdcur | .flush | .hostRd .invalid | .hostRd .shared => true
  | _ => false

/-- Opens a transaction that snoops RLCs and, where asked, the host. -/
def Mach.snoopAll (m : Mach) (q : HomeReq) (k : SnoopKind) (holders : List Nat) (host inv : Bool) : Mach :=
  let m := m.openTxn { Txn.of q with waits := holders ++ (if host then [8] else []) }
  let m := holders.foldl (fun m h => m.sendSnoop k h q.line q.agent false) m
  if host then m.post (.bisnp inv q.line m.now false) else m

/-- Nothing concerns a line: no transaction is open, no message is in flight and no request waits at its home. -/
def Mach.settled (m : Mach) (line : Nat) : Bool :=
  m.mem.txns.all (fun t => t.req.line != line) && m.mem.msgs.all (fun c => c.line != line) && m.mem.homeQ.all (fun q => q.line != line)

/-- A read of a line that needs no snoop is not delayed (R242): the line is Uncached or Shared, what is open on it is a read that found it
so, and no request that would change it waits. -/
def Mach.readable (m : Mach) (line : Nat) : Bool :=
  (match m.dirOf line with | none => true | some e => e.st == .shared) &&
    (match m.txnOf line with | none => true | some t => t.clean) && m.mem.homeQ.all (fun q => q.line != line || q.reads)

/-- Takes every RLC copy of a line back (SnpInv or Recall to every holder): the data of an M holder is written into the slice
(R245), and the directory keeps the host alone. DEDUCED: log 75. -/
def Mach.takeBack (m : Mach) (line part : Nat) : Mach :=
  let m := (List.range 8).foldl (fun m h =>
    match m.rlcLine h line with
    | some l => (if l.st == .m then m.homeStore line part l.data l.poison true else m).rlcDrop h line
    | none => m) m
  match m.dirOf line with
  | some e =>
    if e.host then m.modMem (fun a => { a with dir := tins a.dir line { e with st := if e.st == .ownedHost then .ownedHost else .shared, sharers := 0, f := 0 } })
    else m.dirDrop line
  | none => m

/-- SnpData to an owner that is an RLC: an M holder's data is written into the slice, the owner keeps the line in F and the
line becomes Shared (Tables 10.3, 10.4). DEDUCED: log 75. -/
def Mach.snpOwner (m : Mach) (line part : Nat) (e : DirEntry) : Mach :=
  let o := e.f - 1
  match m.rlcLine o line with
  | some l =>
    let m := if l.st == .m then m.homeStore line part l.data l.poison true else m
    let m := m.rlcSetLine o line { l with st := .f }
    m.modMem (fun a => { a with dir := tins a.dir line { e with st := .shared, sharers := 1#8 <<< o } })
  | none => m.dirDrop line

/-- Two lines share a directory set (R241). -/
def sameDirSet (a b : Nat) : Bool := homeSlice a == homeSlice b && a / 128 % 2048 == b / 128 % 2048

/-- A line has an entry, or its set has a way for one: the ways of lines in a transaction that will record a holder are taken (R241). -/
def Mach.dirRoom (m : Mach) (line : Nat) : Bool :=
  (m.dirOf line).isSome || (m.txnOf line).isSome ||
    decide (m.mem.dir.countP (fun x => sameDirSet x.1 line) +
      m.mem.txns.countP (fun t => sameDirSet t.req.line line && (m.dirOf t.req.line).isNone && decide (t.req.agent ≤ 8)) < 16)

/-- Makes room in a full set (R256): every holder of the least recently used entry without an open transaction is snooped. -/
def Mach.evictEntry (m : Mach) (line : Nat) : Mach :=
  if m.mem.txns.any (fun t => t.req.kind == .takeBack && sameDirSet t.req.line line) then m
  else
    match argMin (fun x => x.2.lru) (m.mem.dir.filter (fun x => sameDirSet x.1 line && (m.txnOf x.1).isNone)) with
    | none => m
    | some v =>
      let e := v.2
      if !m.txnRoom v.1 then m
      else if e.st == .ownedRlc then m.snoopAll ⟨.takeBack, 9, v.1⟩ (if e.ownerOrd then .recall else .snpInv) [e.f - 1] false true
      else m.snoopAll ⟨.takeBack, 9, v.1⟩ .snpInv (sharersBut e 8) e.host true

/-- Records a directory entry (R241). -/
def Mach.dirPut (m : Mach) (line : Nat) (e : DirEntry) : Mach :=
  let m := m.tickLru
  m.modMem (fun a => { a with dir := tins a.dir line { e with lru := a.clock } })

/-- An entry without holders. -/
def DirEntry.blank (ord : Bool) : DirEntry := { st := .shared, sharers := 0, f := 0, host := false, ownerOrd := ord, lru := 0 }

/-- The host holds a line (R241). -/
def Mach.hostHolds (m : Mach) (line : Nat) : Bool :=
  match m.dirOf line with
  | some e => e.host
  | none => false

/-- The host owns a line (R253). -/
def Mach.hostOwns (m : Mach) (line : Nat) : Bool :=
  match m.dirOf line with
  | some e => e.st == .ownedHost
  | none => false

/-- The host reaches HDM: port 0 is up in its CXL configuration. -/
def Mach.cxlUp (m : Mach) : Bool := (m.hlink 0).up && (m.hlink 0).cxl && m.up

/-- Starts taking a line back from the host, where its slice has a free transaction: BISnpInv, or BISnpData for a read (Table 10.4). -/
def Mach.askHost (m : Mach) (line : Nat) (inv : Bool) : Mach :=
  if m.txnRoom line then m.snoopAll ⟨.takeBack, 9, line⟩ .snpInv [] true inv else m

/-! Accesses performed whole at the coherence point. -/

/-- Sets the dirty-page log bit of a written line (R364). -/
def Mach.logWrite (m : Mach) (line : Nat) : Mach :=
  let p := m.ownerOf (64 * line)
  if p ≠ 0 && (m.part p).logOn then
    m.modPart p (fun q => { q with log := tput false q.log (m.offsetOf p (64 * line) / 65536) true })
  else m

/-- What an access at a home meets. -/
inductive Perf (α : Type) where
  /-- Performed. -/
  | done (a : α) (m : Mach)
  /-- The line's transaction must end first, or the host must answer: the device as it then stands. -/
  | waits (m : Mach)

/-- A read of a line's current value that keeps no copy (RdCur), performed whole (Table 10.4). DEDUCED: log 64. -/
def Mach.cohRead (m : Mach) (line part : Nat) (alloc : Bool) : Perf (LineData × Bool) :=
  let home := fun (m : Mach) => let r := m.homeFetch line part alloc; Perf.done r.1 r.2
  if m.readable line then home m
  else if !m.settled line then .waits m
  else
    match m.dirOf line with
    | some e =>
      match e.st with
      | .ownedHost => .waits (m.askHost line false)
      | .ownedRlc => if !m.txnRoom line then .waits m else home (if e.ownerOrd then m.takeBack line part else m.snpOwner line part e)
      | .shared => home m
    | none => home m

/-- A record of code 0x12: a write discarded on a poisoned line (R532). -/
def Mach.discarded (m : Mach) (line part num : Nat) : Mach := m.deferred 0x12 line part num

/-- A write at the home once no copy is left elsewhere (WrLine, WrPart; R527, R528, R530, R532).  `bad` says that the line comes with a
mismatch or poison and is stored poisoned; `src` is detail byte 44. -/
def Mach.writeHome (m : Mach) (line part num : Nat) (d : LineData) (mask : DWord) (bad alloc : Bool) (src : Nat) : Mach :=
  let inj := m.mem.injectWrite == line + 1
  let m := if inj then (m.modMem (fun a => { a with injectWrite := 0 })).modRas (fun r => { r with injGo := false }) else m
  let bad := bad || inj
  if mask == BitVec.allOnes 64 then
    let m := (m.homeStore line part d bad alloc).logWrite line
    if bad then m.poisonEvent line src else m
  else
    let r := m.homeFetch line part alloc
    if r.1.2 then r.2.discarded line part num
    else
      let m := (r.2.homeStore line part (mergeLine r.1.1 d mask) bad alloc).logWrite line
      if bad then m.poisonEvent line src else m

/-- What a write at the home still waits for: none where it can be performed now (R242, R245). -/
def Mach.writeWaits (m : Mach) (line : Nat) : Option Mach :=
  if !m.settled line then some m
  else if m.hostHolds line then some (m.askHost line true)
  else if (m.dirOf line).isSome && !m.txnRoom line then some m else none

/-- A write performed whole at the home: every copy is taken back first (R245). -/
def Mach.cohWriteFrom (m : Mach) (line part num : Nat) (d : LineData) (mask : DWord) (bad alloc : Bool) (src : Nat) : Perf Unit :=
  match m.writeWaits line with
  | some m => .waits m
  | none => .done () ((m.takeBack line part).writeHome line part num d mask bad alloc src)

/-- The same for a write of the device's own: `bad` is a mismatch on the write path (R527). -/
def Mach.cohWrite (m : Mach) (line part num : Nat) (d : LineData) (mask : DWord) (bad alloc : Bool) : Perf Unit :=
  m.cohWriteFrom line part num d mask bad alloc 4

/-- The integer operations of the atomics (R124): the new value from the old one, the operand and the compare value, at
`w` bits.  FADD is `Num`'s and passed in. -/
def atomNew (op : AtomOp) (w : Nat) (fadd : Nat → Nat → Nat) (old opnd cmp : Nat) : Nat :=
  let s (x : Nat) : Int := if x < 2 ^ (w - 1) then x else (x : Int) - 2 ^ w
  match op with
  | .add => (old + opnd) % 2 ^ w
  | .mins => if s opnd < s old then opnd else old
  | .minu => Nat.min old opnd
  | .maxs => if s old < s opnd then opnd else old
  | .maxu => Nat.max old opnd
  | .and => old &&& opnd
  | .or => old ||| opnd
  | .xor => old ^^^ opnd
  | .xchg => opnd
  | .cas => if old = cmp then opnd else old
  | .fadd => fadd old opnd

/-- What an atomic at its home meets (R252, R527, R531, R532). -/
inductive AtomRes where
  | old (v : Nat)
  | poisoned
  | mismatch
  deriving DecidableEq, Repr

/-- An atomic on the slice's data once no copy is left elsewhere (R252).  A mismatched operand line is not performed (R527); a poisoned
line is left as it is (R531, R532). -/
def Mach.atomHome (m : Mach) (line part : Nat) (op : AtomOp) (fadd : Nat → Nat → Nat) (off bytes : Nat) (opnd cmp : Nat) (bad : Bool) :
    AtomRes × Mach :=
  if bad then (.mismatch, m)
  else
    let r := m.homeFetch line part true
    if r.1.2 then (.poisoned, r.2)
    else
      let old := ofLe (slice (lineBytes r.1.1) off bytes)
      let new := atomNew op (8 * bytes) fadd old opnd cmp
      (.old old, (r.2.homeStore line part (mergeLine r.1.1 (placeBytes off (leBytes bytes new)) (maskOf off bytes)) false true).logWrite line)

/-- The atomic performed whole at its home slice: every copy is taken back first (R252). -/
def Mach.cohAtom (m : Mach) (line part : Nat) (op : AtomOp) (fadd : Nat → Nat → Nat) (off bytes : Nat) (opnd cmp : Nat) (bad : Bool) :
    Perf AtomRes :=
  match m.writeWaits line with
  | some m => .waits m
  | none =>
    let r := (m.takeBack line part).atomHome line part op fadd off bytes opnd cmp bad
    .done r.1 r.2

/-! Remote-line caches (R214 to R217, R237, R238, R244, R251). -/

/-- A demand miss is noted by the tracker of its 8 KiB block, or takes a free tracker (R217). -/
def Mach.noteMiss (m : Mach) (rlc line part : Nat) : Mach :=
  let b := line / 128
  let i := line % 128
  if m.mem.trackers.any (fun t => t.rlc == rlc && t.block == b) then
    m.modMem (fun a => { a with trackers := a.trackers.map (fun (t : Tracker) =>
      if t.rlc == rlc && t.block == b then
        (if t.last < i then { t with last := i, count := Nat.min 4 (t.count + 1), lastMiss := m.now } else { t with lastMiss := m.now })
      else t) })
  else if m.mem.trackers.countP (fun t => t.rlc == rlc) < 32 then
    m.modMem (fun a =>
      { a with trackers := a.trackers ++ [{ rlc := rlc, block := b, part := part, last := i, count := 1, triggered := false, lastMiss := m.now }] })
  else m

/-- A use of a line at an RLC (R216, R217, R407): the newest stamp; a read-ahead line's bytes then count in BYTES_HBM_RD. -/
def Mach.rlcTouch (m : Mach) (h line : Nat) (l : RlcLine) : Mach :=
  let m := m.tickLru
  let m := if l.ra = 0 then m else m.account (l.ra - 1) 2 64
  m.modMem (fun a => { a with rlc := tins a.rlc (rlcKey h line) { l with lru := a.clock, ra := 0 } })

/-- A write performed at an RLC that holds the line in M or E (R238, R532); it is noted in the dirty-page log as at a home (R364). -/
def Mach.rlcStore (m : Mach) (h line part num : Nat) (l : RlcLine) (d : LineData) (mask : DWord) (bad : Bool) : Mach :=
  let whole := mask == BitVec.allOnes 64
  if l.poison && !whole then m.discarded line part num
  else
    let m := (m.rlcTouch h line l).rlcSetLine h line { l with st := .m, data := mergeLine l.data d mask, poison := bad, lru := m.mem.clock + 1, ra := 0 }
    let m := m.logWrite line
    if bad then m.poisonEvent line 4 else m

/-- The way that a fill of an RLC takes, and the line it displaces, with its number: the least recently used of the mask's ways, where none
is free; a line on which the RLC has a request outstanding stays (R214, R216).  None where no way can be had, or where the displaced line
is in M and a writeback of the RLC to its home slice is outstanding (R251). -/
def Mach.rlcVictim (m : Mach) (rlc line : Nat) (mask : BitVec 16) : Option (Nat × Option (Nat × RlcLine)) :=
  let mask := if mask = 0 then 1 else mask
  let same := m.mem.rlc.filter (fun e => e.1 % 8 == rlc && rlcSet (e.1 / 8) == rlcSet line && e.1 != rlcKey rlc line)
  match (List.range 16).find? (fun w => mask.getLsbD w && same.all (fun e => e.2.way != w)) with
  | some w => some (w, none)
  | none =>
    match argMin (fun e => e.2.lru) (same.filter (fun e => mask.getLsbD e.2.way && m.mem.reqs.all (fun r => r.rlc != rlc || r.line != e.1 / 8))) with
    | some v =>
      if v.2.st == .m && m.mem.evicting.any (fun e => e.1 == rlc && e.2.2 == .wb && homeSlice e.2.1 == homeSlice (v.1 / 8)) then none
      else some (v.2.way, some (v.1 / 8, v.2))
    | none => none

/-- An RLC evicts a line: S silently, the others with their message (Table 10.3). -/
def Mach.rlcEvict (m : Mach) (rlc line : Nat) (l : RlcLine) : Mach :=
  let m := m.rlcDrop rlc line
  let k := match l.st with | .m => some EvictKind.wb | .e => some .eve | .f => some .evf | .s => none
  match k with
  | some k =>
    (m.post (.evict k rlc line (if k == .wb then l.data else 0) (k == .wb && l.poison))).modMem (fun a => { a with evicting := a.evicting ++ [(rlc, line, k)] })
  | none => m

/-- A line fills the way that a victim gives it (R216). -/
def Mach.rlcFill (m : Mach) (rlc line : Nat) (v : Nat × Option (Nat × RlcLine)) (st : RlcSt) (d : LineData × Bool) (ra : Nat) : Mach :=
  let m := match v.2 with | some (vl, x) => m.rlcEvict rlc vl x | none => m
  let m := m.tickLru
  m.rlcSetLine rlc line { st := st, data := d.1, poison := d.2, way := v.1, lru := m.mem.clock, ra := ra }

/-- The RLC's copy in another state. -/
def Mach.rlcState (m : Mach) (rlc line : Nat) (st : RlcSt) : Mach :=
  match m.rlcLine rlc line with
  | some l => m.rlcSetLine rlc line { l with st := st }
  | none => m

/-- The answer of the home and the holders to a demand RdS of RLC `h`, performed whole (R240, R247, Table 10.4): the line, the state that it
grants, and the device with the directory after it. DEDUCED: log 75. -/
def Mach.grantRead (m : Mach) (h line part : Nat) : (LineData × Bool) × RlcSt × Mach :=
  let e := (m.dirOf line).getD (DirEntry.blank (m.lineOrd line))
  let me := 1#8 <<< h
  let home := fun (m : Mach) (st : RlcSt) (e : DirEntry) => let r := m.homeFetch line part true; (r.1, st, r.2.dirPut line e)
  let alone := { e with st := .ownedRlc, sharers := 0, f := h + 1 }
  let first := { e with st := .shared, sharers := e.sharers ||| me, f := h + 1 }
  let owner := if e.f = 0 then none else m.rlcLine (e.f - 1) line
  match e.st, owner with
  | .ownedRlc, some l =>
    if e.ownerOrd then ((l.data, l.poison), l.st, (m.rlcDrop (e.f - 1) line).dirPut line alone)
    else
      let m := if l.st == .m then m.homeStore line 0 l.data l.poison true else m
      ((l.data, l.poison), .f, (m.rlcState (e.f - 1) line .s).dirPut line { first with sharers := (1#8 <<< (e.f - 1)) ||| me })
  | .ownedRlc, none => home m .e alone
  | _, holder =>
    if (sharersBut e h).isEmpty && !e.host then home m .e alone
    else if (tfind m.mem.llc line).isSome then home m .s { e with sharers := e.sharers ||| me }
    else
      match holder with
      | some l => ((l.data, l.poison), .f, (m.rlcState (e.f - 1) line .s).dirPut line first)
      | none => home m .f first

/-- A read of a remote line by a unit of RLC `h`'s half (R215, R216): the RLC serves it, or fetches the line and keeps it. DEDUCED: log 64. -/
def Mach.rlcRead (m : Mach) (h line part : Nat) : Perf (LineData × Bool) :=
  match m.rlcLine h line with
  | some l => .done (l.data, l.poison) (m.rlcTouch h line l)
  | none =>
    if m.mem.reqs.any (fun r => r.rlc == h && r.line == line) || !m.settled line || !m.txnRoom line then .waits m
    else if m.hostOwns line then .waits (m.askHost line false)
    else if !m.dirRoom line then .waits (m.evictEntry line)
    else
      match m.rlcVictim h line (m.wayMask part line) with
      | none => .waits m
      | some v =>
        let r := (m.noteMiss h line part).grantRead h line part
        .done r.1 (r.2.2.rlcFill h line v r.2.1 r.1 0)

/-- A read of a line by a unit of a half, or by one that reaches homes alone (R215). -/
def Mach.lineRead (m : Mach) (half : Option Nat) (line part : Nat) : Perf (LineData × Bool) :=
  match half with
  | some h => if remoteFor h line then m.rlcRead h line part else m.cohRead line part true
  | none => m.cohRead line part true

/-- The RLC of a unit's half that is the coherence point of a line (R237): it holds the line in M or E. -/
def Mach.ownRlc (m : Mach) (half : Option Nat) (line : Nat) : Option (Nat × RlcLine) :=
  half.bind (fun h => (m.rlcLine h line).bind (fun l => if l.st == .m || l.st == .e then some (h, l) else none))

/-- A write of a line by a unit of a half (R215, R237): at the half's RLC where that is the coherence point, else at the home. -/
def Mach.lineWrite (m : Mach) (half : Option Nat) (line part num : Nat) (d : LineData) (mask : DWord) (alloc : Bool) : Perf Unit :=
  match m.ownRlc half line with
  | some (h, l) => .done () (m.rlcStore h line part num l d mask false)
  | none => m.cohWrite line part num d mask false alloc

/-- What that write still waits for. -/
def Mach.lineWaits (m : Mach) (half : Option Nat) (line : Nat) : Option Mach := if (m.ownRlc half line).isSome then none else m.writeWaits line

end Sys2Proof.Machine
end

