-- ==== Sys2Proof/Machine/Ranges.lean ====
section
/-! DEFINITION. Machine/Ranges.lean: byte ranges at the coherence point, host memory, and virtual ranges, for the units that read and write
whole ranges (R215, R225, R229, R254, R265, R283, R304, R317, R367, R408, R528). -/

namespace Sys2Proof.Machine

/-! Byte ranges at the coherence point, for units that read and write whole ranges (Moon, step builder, copy engines). -/

/-- The lines that hold bytes `pa .. pa+n`. -/
def linesOf (pa n : Nat) : List Nat := if n = 0 then [] else (List.range ((pa + n - 1) / 64 - pa / 64 + 1)).map (pa / 64 + ·)

/-- Reads bytes at the coherence point for a unit, of a half where it is an Ordering Unit or a copy engine (R215), with the poison flag;
the first poisoned line read is recorded, with the launch's number (Table 20.6, code 0x11). -/
def Mach.cohBytesFor (m : Mach) (half : Option Nat) (num pa n part : Nat) : Perf (List Byte × Bool) :=
  let go := (linesOf pa n).foldl (fun (acc : Perf (List Byte × Bool)) line =>
    match acc with
    | .waits m => .waits m
    | .done (bs, po) m =>
      match m.lineRead half line part with
      | .done (d, p) m => .done (bs ++ lineBytes d, po || p) (if p && !po then m.deferred 0x11 line part num else m)
      | .waits m => .waits m) (.done ([], false) m)
  match go with
  | .done (bs, po) m => .done (slice bs (pa % 64) n, po) m
  | .waits m => .waits m

/-- The same for a unit that reaches homes alone and runs for no launch. -/
def Mach.cohBytes (m : Mach) (pa n part : Nat) : Perf (List Byte × Bool) := m.cohBytesFor none 0 pa n part

/-- What a write of a physical range still waits for, before any line of it is written (R265). -/
def Mach.putWaits (m : Mach) (half : Option Nat) (pa n : Nat) : Option Mach := (linesOf pa n).findSome? (m.lineWaits half)

/-- Writes bytes at the coherence point, line by line, once every line of them can be: whole lines as WrLine and parts as WrPart (R528). -/
def Mach.cohPutFor (m : Mach) (half : Option Nat) (pa : Nat) (bytes : List Byte) (part num : Nat) (alloc : Bool) : Perf Unit :=
  match m.putWaits half pa bytes.length with
  | some m => .waits m
  | none =>
    (linesOf pa bytes.length).foldl (fun (acc : Perf Unit) line =>
      match acc with
      | .waits m => .waits m
      | .done _ m =>
        let lo := if line = pa / 64 then pa % 64 else 0
        let start := 64 * line + lo - pa
        let piece := slice bytes start (64 - lo)
        m.lineWrite half line part num (placeBytes lo piece) (maskOf lo piece.length) alloc) (.done () m)

/-- The same for a unit that reaches homes alone. -/
def Mach.cohPut (m : Mach) (pa : Nat) (bytes : List Byte) (part num : Nat) (alloc : Bool) : Perf Unit := m.cohPutFor none pa bytes part num alloc

/-- An RLC that owns a line keeps it in F, its data in the slice (Flush of Table 10.4). -/
def Mach.ownerToF (m : Mach) (line : Nat) : Mach :=
  match m.dirOf line with
  | some e => if e.st == .ownedRlc then m.snpOwner line 0 e else m
  | none => m

/-- A slice's dirty copy is written to HBM and stays clean (Flush of Table 10.4); `charge` as in R367. -/
def Mach.writeBackLine (m : Mach) (line : Nat) (charge : Bool) : Mach :=
  match tfind m.mem.llc line with
  | some l =>
    if l.dirty then (m.hbmWriteFor line l.data l.poison charge).modMem (fun a => { a with llc := tins a.llc line { l with dirty := false } }) else m
  | none => m

/-- One line of a flush performed whole at its home (Flush of Table 10.4, R245): the current value is written to HBM, and a
holder in M or E keeps the line in F. -/
def Mach.cohFlush (m : Mach) (line : Nat) (charge : Bool) : Perf Unit :=
  if !m.settled line || !m.txnRoom line then .waits m
  else if m.hostOwns line then .waits (m.askHost line false)
  else .done () ((m.ownerToF line).writeBackLine line charge)

/-- Flushes every line of a physical range that a slice or an RLC holds (R229). -/
def Mach.flushPa (m : Mach) (pa n : Nat) (charge : Bool) : Perf Unit :=
  let inside := fun line => decide (pa / 64 ≤ line) && decide (64 * line < pa + n)
  ((tkeys m.mem.llc ++ tkeys m.mem.dir).filter inside).eraseDups.foldl (fun (acc : Perf Unit) line =>
    match acc with
    | .done _ m => m.cohFlush line charge
    | w => w) (.done () m)

/-! Host memory (R254, R283, R304, R317). -/

/-- Host lines reached over a link are cached in the slices: port 0 in its CXL configuration (R254, R304). -/
def Mach.hostCached (m : Mach) (link : Nat) : Bool := link == 0 && (m.hlink 0).cxl

/-- Asks the host for a host line, to read or to own, for a partition (R254), where its slice has a free transaction: the request is open
until the host answers. -/
def Mach.askCache (m : Mach) (hline part : Nat) (own : Bool) : Mach :=
  if m.txnRoom (hostKey hline) then
    (m.openTxn { Txn.of ⟨if own then .rdx else .rds false, 16 + part, hostKey hline⟩ with waits := [8] }).emit (.cacheReq hline own)
  else m

/-- What an access to a cached host line still waits for: held for reading, or (`own`) in E or M (R254). -/
def Mach.hostWaits (m : Mach) (part : Nat) (own : Bool) (hline : Nat) : Option Mach :=
  if !m.settled (hostKey hline) then some m
  else
    match tfind m.mem.llc (hostKey hline) with
    | some l => if l.host == .invalid || (own && l.host == .shared) then some (m.askCache hline part own) else none
    | none => some (m.askCache hline part own)

/-- A cached host line. -/
def Mach.hostLine (m : Mach) (hline part : Nat) (own : Bool) : Perf (LineData × Bool) :=
  match m.hostWaits part own hline, tfind m.mem.llc (hostKey hline) with
  | some m, _ => .waits m
  | none, some l => .done (l.data, l.poison) (m.sliceTouch (hostKey hline) part l)
  | none, none => .waits m

/-- Changes a cached host line that is held in E or M: it is then M (R254). -/
def Mach.hostLinePut (m : Mach) (hline : Nat) (d : LineData) (poison : Bool) : Mach :=
  match tfind m.mem.llc (hostKey hline) with
  | some l => m.modMem (fun a => { a with llc := tins a.llc (hostKey hline) { l with data := d, poison := poison, dirty := true, host := .modified } })
  | none => m

/-- A record of the consumption of a poisoned host line (R254, R531). DEDUCED: log 125. -/
def Mach.hostPoison (m : Mach) (ha part num : Nat) : Mach :=
  let r := { RasRec.mk0 0x11 1 part num m.now with addr := ha, kind := 1 }
  let m := m.logDev r
  if part = 0 then m.raisePf 1 else m.logPart part { r with addr := 0, kind := 0 }

/-- Reads bytes of host memory for a partition (0 for none), which count in BYTES_HOST_RX: from the slice that caches the lines, or by
memory requests (R304); what the host's memory holds is a free value (log 15).  On a link that is down the read waits. -/
def Mach.hostRead (m : Mach) (link ha n part : Nat) : Perf (List Byte × Bool) :=
  if !(m.hlink link).up then .waits m
  else if m.hostCached link then
    let go := (linesOf ha n).foldl (fun (acc : Perf (List Byte × Bool)) hl =>
      match acc with
      | .waits m => .waits m
      | .done (bs, po) m =>
        match m.hostLine hl part false with
        | .done (d, p) m => .done (bs ++ lineBytes d, po || p) m
        | .waits m => .waits m) (.done ([], false) m)
    match go with
    | .done (bs, po) m => .done (slice bs (ha % 64) n, po) m
    | .waits m => .waits m
  else
    .done ((List.range n).map (fun i => Config.hostByte m.free (ha + i)), false)
      (((m.emit (.hostRead link ha n false)).bumpFree.account part 7 n).spend part 5 0 n)

/-- What a write of host memory still waits for, before any byte of it is written. -/
def Mach.hostPutWaits (m : Mach) (link ha n part : Nat) : Option Mach :=
  if (m.hlink link).up && m.hostCached link then (linesOf ha n).findSome? (m.hostWaits part true) else none

/-- Writes bytes of host memory for a partition: in the slices that cache the lines, or as a posted write (R283, R304); a link that is down
discards them (R317). DEDUCED: log 59. -/
def Mach.hostWrite (m : Mach) (link ha : Nat) (bytes : List Byte) (part : Nat) : Perf Unit :=
  match m.hostPutWaits link ha bytes.length part with
  | some m => .waits m
  | none =>
    if !(m.hlink link).up then .done () m
    else if m.hostCached link then
      (linesOf ha bytes.length).foldl (fun (acc : Perf Unit) hl =>
        match acc with
        | .waits m => .waits m
        | .done _ m =>
          let lo := if hl = ha / 64 then ha % 64 else 0
          let piece := slice bytes (64 * hl + lo - ha) (64 - lo)
          match m.hostLine hl part true with
          | .done (d, po) m =>
            if po && piece.length != 64 then .done () m
            else .done () (m.hostLinePut hl (mergeLine d (placeBytes lo piece) (maskOf lo piece.length)) false)
          | .waits m => .waits m) (.done () m)
    else .done () (((m.emit (.hostWrite link ha bytes false false)).account part 6 bytes.length).spend part 4 0 bytes.length)

/-- The upstream link of a space: its partition's, or its own for a physical function. -/
def Mach.spaceLink (m : Mach) (space : Nat) : Nat := if space < 65 then (m.part space).link else space - 65

/-- The partition of a space, 0 for a physical function's. -/
def spacePart (space : Nat) : Nat := if space < 65 then space else 0

/-- What reading virtual memory answers: the bytes, a fault of the mapping, poison, or a wait. -/
inductive VRead where
  | ok (b : List Byte) (m : Mach)
  | fault
  | poisoned (m : Mach)
  | waits (m : Mach)

/-- The pieces of a virtual range within 64 KiB pages, as (virtual address, length). -/
def pieces (va n : Nat) : List (Nat × Nat) :=
  if n = 0 then [] else
    (List.range ((va + n - 1) / 65536 - va / 65536 + 1)).map (fun i =>
      let lo := if i = 0 then va else (va / 65536 + i) * 65536
      (lo, Nat.min (va + n) ((va / 65536 + i + 1) * 65536) - lo))

/-- Reads a virtual range at the coherence point, or host memory through the space's link, for a unit of a half and a launch's number.  A
link window is not readable so. -/
def Mach.vreadFor (m : Mach) (half : Option Nat) (num space va n : Nat) (acc : Acc) : VRead :=
  (pieces va n).foldl (fun (r : VRead) pc =>
    match r with
    | .ok bs m =>
      let part := spacePart space
      match m.translate space acc pc.1 with
      | .ok (.hbm pa) =>
        match m.cohBytesFor half num pa pc.2 part with
        | .done (b, po) m => if po then .poisoned m else .ok (bs ++ b) m
        | .waits m => .waits m
      | .ok (.host ha) =>
        match m.hostRead (m.spaceLink space) ha pc.2 part with
        | .done (b, po) m => if po then .poisoned (m.hostPoison ha part num) else .ok (bs ++ b) m
        | .waits m => .waits m
      | .ats page => .waits (m.askAts space page)
      | _ => .fault
    | r => r) (.ok [] m)

/-- The same for a unit that reaches homes alone and runs for no launch (step builder, Moon). -/
def Mach.vread (m : Mach) (space va n : Nat) (acc : Acc) : VRead := m.vreadFor none 0 space va n acc

/-- What writing virtual memory answers. -/
inductive VWrite where
  | ok (m : Mach)
  | fault
  | waits (m : Mach)

/-- Flushes a virtual range to HBM (R229); bytes of host and window pages need nothing; a write-back through an aperture is charged to
nobody (R367). -/
def Mach.vflush (m : Mach) (space va n : Nat) (acc : Acc) : VWrite :=
  (pieces va n).foldl (fun (r : VWrite) pc =>
    match r with
    | .ok m =>
      match m.translate space acc pc.1 with
      | .ok (.hbm pa) =>
        match m.flushPa pa pc.2 (match m.mapOf space pc.1 with | some r => r.aperture == 0 | none => true) with
        | .done _ m => .ok m
        | .waits m => .waits m
      | .fault => .fault
      | _ => .ok m
    | r => r) (.ok m)

/-- What a write of a virtual range still waits for, before any byte of it is written. -/
def Mach.vwriteWaits (m : Mach) (half : Option Nat) (space va n : Nat) : Option Mach :=
  (pieces va n).findSome? (fun pc =>
    match m.translate space .write pc.1 with
    | .ok (.hbm pa) => m.putWaits half pa pc.2
    | .ok (.host ha) => m.hostPutWaits (m.spaceLink space) ha pc.2 (spacePart space)
    | .ats page => some (m.askAts space page)
    | _ => none)

/-- Writes a virtual range at the coherence point, or to host memory through the space's link (R304, R408), whole or not at all. -/
def Mach.vwriteFor (m : Mach) (half : Option Nat) (num space va : Nat) (bytes : List Byte) : VWrite :=
  match m.vwriteWaits half space va bytes.length with
  | some m => .waits m
  | none =>
    (pieces va bytes.length).foldl (fun (r : VWrite) pc =>
      match r with
      | .ok m =>
        let piece := slice bytes (pc.1 - va) pc.2
        let put := fun (p : Perf Unit) =>
          match p with
          | .done _ m => VWrite.ok m
          | .waits m => .waits m
        match m.translate space .write pc.1 with
        | .ok (.hbm pa) => put (m.cohPutFor half pa piece (spacePart space) num true)
        | .ok (.host ha) => put (m.hostWrite (m.spaceLink space) ha piece (spacePart space))
        | .ats page => .waits (m.askAts space page)
        | _ => .fault
      | r => r) (.ok m)

/-- The same for a unit that reaches homes alone and runs for no launch. -/
def Mach.vwrite (m : Mach) (space va : Nat) (bytes : List Byte) : VWrite := m.vwriteFor none 0 space va bytes

end Sys2Proof.Machine
end

