-- ==== Sys2Proof/Machine/Streams.lean ====
section
/-! DEFINITION. Machine/Streams.lean: random-number streams: shift registers, draws and seeding (R186 to R189). -/

namespace Sys2Proof.Machine

/-- k of hardware lane `L` (R186). -/
def lagA (lane : Nat) : Nat := nth 0 [1, 7, 15, 30, 63, 64, 97, 112, 120, 126] (lane % 10)

/-- j of hardware lane `L` (R186). -/
def lagB (lane : Nat) : Nat := nth 0 [3, 6, 7, 13, 18, 24, 25, 28] (lane % 8)

/-- One step of a lane's shift registers: bit 0 of each leaves, a(n+127) and b(n+31) enter (R186). -/
def shiftLane (lane : Nat) (x : RngLane) : RngLane :=
  { x with a := (x.a >>> 1) ||| (if x.a.getLsbD (lagA lane) != x.a.getLsbD 0 then 1#127 <<< 126 else 0),
           b := (x.b >>> 1) ||| (if x.b.getLsbD (lagB lane) != x.b.getLsbD 0 then 1#31 <<< 30 else 0) }

/-- `n` bits of a draw from bit `i` on, with the lane after them (R187). -/
def drawBits (lane : Nat) : Nat → Nat → RngLane → Nat × RngLane
  | 0, _, x => (0, x)
  | n + 1, i, x =>
    let r := drawBits lane n (i + 1) (shiftLane lane x)
    ((if x.a.getLsbD 0 != x.b.getLsbD 0 then 2 ^ i else 0) + r.1, r.2)

/-- One draw of a lane (R187). -/
def draw (lane : Nat) (x : RngLane) : Word × RngLane :=
  let r := drawBits lane 32 0 x
  (BitVec.ofNat 32 r.1, { r.2 with pos := x.pos + 1 })

/-- A lane that has drawn nothing and holds nothing. -/
def RngLane.zero : RngLane := { a := 0, b := 0, pos := 0 }

/-- `n` draws of a lane, oldest first. -/
def drawN (lane : Nat) : Nat → RngLane → List Word × RngLane
  | 0, x => ([], x)
  | n + 1, x =>
    let d := draw lane x
    let r := drawN lane n d.2
    (d.1 :: r.1, r.2)

/-- The seeding message of Table 08.1. -/
def seedMsg (block thread w : Nat) (epoch : Word) : List Byte :=
  leBytes 4 block ++ leBytes 2 thread ++ leBytes 1 w ++ [0] ++ leBytes 4 epoch.toNat ++ [0, 0, 0, 0]

/-- The stream of thread `t` of a block (R189). -/
def seedThread (key : BitVec 128) (block thread : Nat) (epoch : Word) : RngLane :=
  let h := fun w => sipHash13 key (seedMsg block thread w epoch)
  let a : BitVec 127 := BitVec.ofNat 127 ((h 0).toNat + 2 ^ 64 * (h 1).toNat)
  let b : BitVec 31 := BitVec.ofNat 31 (h 2).toNat
  { a := if a = 0 then 1 else a, b := if b = 0 then 1 else b, pos := 0 }

/-- The 32 streams of group `index` of a block (R189, R191). -/
def seedGroup (key : BitVec 128) (block index : Nat) (epoch : Word) : Tbl RngLane :=
  (List.range 32).map (fun l => (l, seedThread key block (32 * index + l) epoch))

/-- Lane `l` of a group's streams. -/
def laneOf (t : Tbl RngLane) (l : Nat) : RngLane := tget RngLane.zero t l

/-- One draw of every lane in a list, with the values by lane (R192). -/
def drawLanes (lanes : List Nat) (t : Tbl RngLane) : Tbl Word × Tbl RngLane :=
  lanes.foldl (fun acc l =>
    let d := draw l (laneOf acc.2 l)
    (tput 0 acc.1 l d.1, tput RngLane.zero acc.2 l d.2)) ([], t)

end Sys2Proof.Machine
end

