-- ==== Sys2Proof/Machine/Tiles.lean ====
section
/-! DEFINITION. Machine/Tiles.lean: tile formats, what TMMA, TZERO, TLOAD and TSTORE compute, and stopping the engine (R139, R143 to
R158). -/

namespace Sys2Proof.Machine

/-! Formats (R146, R148, R149). -/

/-- Bits of an element. -/
def tBits : TFmt → Nat
  | .mxfp4 | .int4 => 4
  | .mxfp6e2m3 | .mxfp6e3m2 => 6
  | .bf16 | .fp16 => 16
  | .fp32 => 32
  | _ => 8

/-- An MX format: a scale byte per 32 elements. -/
def tIsMx (f : TFmt) : Bool := decide (f.code ≤ 5)

/-- An integer format: the accumulator elements are s32. -/
def tIsInt : TFmt → Bool
  | .int4 | .int8 => true
  | _ => false

/-- The floating-point encoding of an element, if it has one. -/
def tFloat : TFmt → Option FFmt
  | .mxfp4 => some e2m1
  | .mxfp6e2m3 => some e2m3
  | .mxfp6e3m2 => some e3m2
  | .mxfp8e4m3 | .fp8e4m3 => some e4m3
  | .mxfp8e5m2 | .fp8e5m2 => some e5m2
  | .bf16 => some bf16
  | .fp16 => some fp16
  | .fp32 => some f32
  | _ => none

/-- The value of an element code; MXINT8 counts 2^-6. -/
def tValue (f : TFmt) (x : Nat) : Val :=
  match tFloat f with
  | some q => q.decode x
  | none =>
    let i := sgn (tBits f) x
    .fin (decide (i < 0)) i.natAbs (if f == .mxint8 then -6 else 0)

/-- The value of an E8M0 scale (R149). -/
def scaleValue (e : Nat) : Val := if e = 255 then .nan else .fin false 1 ((e : Int) - 127)

/-- K of a SHAPE (R144). -/
def shapeK (s : BitVec 3) : Nat := 32 * 2 ^ s.toNat

/-- Bytes of a tile of 128 rows of `k` elements (R146). -/
def tileBytes (f : TFmt) (k : Nat) : Nat := 16 * k * tBits f + (if tIsMx f then 4 * k else 0)

/-! Reading tiles. -/

/-- The code of element (row, col) of a tile of `k` columns (R146). -/
def tileCode (loc : Tbl Byte) (base : Nat) (f : TFmt) (k row col : Nat) : Nat :=
  let bit := (row * k + col) * tBits f
  ofLe (getBytes loc (base + bit / 8) 4) / 2 ^ (bit % 8) % 2 ^ tBits f

/-- The scale of an element's block, 1 for a format without scales. -/
def tileScale (loc : Tbl Byte) (base : Nat) (f : TFmt) (k row col : Nat) : Val :=
  if tIsMx f then scaleValue (tget 0 loc (base + 16 * k * tBits f + row * (k / 32) + col / 32)).toNat else .fin false 1 0

/-! Accumulation (R150 to R152). -/

/-- A sum of s32 values with saturation (R152). -/
def satS32 (acc : Nat) (x : Int) : Nat :=
  let y := sgn 32 acc + x
  wrapI 32 (if y < -(2 ^ 31) then -(2 ^ 31) else if 2 ^ 31 - 1 < y then 2 ^ 31 - 1 else y)

/-- One chunk of 32 added to an accumulator element (R150, R152). -/
def chunkAdd (loc : Tbl Byte) (a b : Nat) (f : FmtT) (k i j c acc : Nat) : Nat :=
  let ks := (List.range 32).map (32 * c + ·)
  if tIsInt f.afmt then
    satS32 acc ((ks.map (fun x => sgn (tBits f.afmt) (tileCode loc a f.afmt k i x) * sgn (tBits f.bfmt) (tileCode loc b f.bfmt k j x))).foldl (· + ·) 0)
  else
    let scale := Val.mul (tileScale loc a f.afmt k i (32 * c)) (tileScale loc b f.bfmt k j (32 * c))
    let sum := sumVals (ks.map (fun x =>
      Val.mul (Val.mul (tValue f.afmt (tileCode loc a f.afmt k i x)) (tValue f.bfmt (tileCode loc b f.bfmt k j x))) scale))
    f32.encode .nearest 0 (Val.add .nearest (f32.decode acc) sum)

/-- An element of D. -/
def tmmaElem (loc : Tbl Byte) (a b : Nat) (f : FmtT) (i j old : Nat) : Nat :=
  let k := shapeK f.shape
  (List.range (k / 32)).foldl (fun acc c => chunkAdd loc a b f k i j c acc) (if f.accz then 0 else old)

/-- An accumulator element. -/
def accAt (acc : Tbl Word) (t i j : Nat) : Nat := (tget 0 acc (16384 * t + 128 * i + j)).toNat

/-- Replaces a tile by a function of row and column. -/
def setTile (acc : Tbl Word) (t : Nat) (v : Nat → Nat → Nat) : Tbl Word :=
  let new := (List.range 16384).filterMap (fun n =>
    let w : Word := BitVec.ofNat 32 (v (n / 128) (n % 128))
    if w = 0 then none else some (16384 * t + n, w))
  acc.filter (fun e => decide (e.1 < 16384 * t)) ++ new ++ acc.filter (fun e => decide (16384 * (t + 1) ≤ e.1))

/-- TZERO's tile: every element zero (R153). -/
def zeroTile (acc : Tbl Word) (t : Nat) : Tbl Word := acc.filter (fun e => e.1 / 16384 != t)

/-- TLOAD's element (R154). -/
def tloadElem (loc : Tbl Byte) (base : Nat) (f : TFmt) (i j : Nat) : Nat :=
  let x := tileCode loc base f 128 i j
  match f with
  | .fp32 => x
  | .int8 => wrapI 32 (sgn 8 x)
  | _ => f32.encode .nearest 0 (tValue f x)

/-! TSTORE (R155 to R158). -/

/-- e_max of an MX element format (R156). -/
def mxEmax : TFmt → Int
  | .mxfp4 | .mxfp6e2m3 => 2
  | .mxfp6e3m2 => 4
  | .mxfp8e4m3 => 8
  | .mxfp8e5m2 => 15
  | _ => 0

/-- A finite value's floor(log2), none for zero. -/
def valLog : Val → Option Int
  | .fin _ m e => if m = 0 then none else some (e + (Nat.log2 m : Nat))
  | _ => none

/-- The scale code of a block of FP32 values (R156). -/
def mxScale (f : TFmt) (vs : List Val) : Nat :=
  if vs.any (fun v => match v with | .fin _ _ _ => false | _ => true) then 255
  else
    match (vs.filterMap valLog) with
    | [] => 0
    | x :: xs => (min 127 (max (-127) (xs.foldl max x - mxEmax f)) + 127).toNat

/-- An element of an MX block under its scale: rounded, and clamped to the largest finite value (R156). -/
def mxElem (f : TFmt) (rnd : Rnd) (r scale : Nat) (v : Val) : Nat :=
  if scale = 255 then 0
  else
    match v with
    | .fin s m e =>
      let e' := e - ((scale : Int) - 127)
      match tFloat f with
      | some q => q.encodeSat rnd r (.fin s m e')
      | none => if m = 0 then 0 else wrapI 8 ((if s then -1 else 1) * (Nat.min 127 (roundAt rnd r s m e' (-6)) : Int))
    | _ => 0

/-- An element of a format without scales (Table 06.3). -/
def plainElem (f : TFmt) (rnd : Rnd) (sat : Bool) (r x : Nat) : Nat :=
  match f with
  | .fp32 => x
  | .int4 | .int8 =>
    let w := tBits f
    if sat then wrapI w (max (-(2 ^ (w - 1) : Int)) (min (2 ^ (w - 1) - 1) (sgn 32 x))) else x % 2 ^ w
  | _ =>
    match tFloat f with
    | some q => if sat then q.encodeSat rnd r (f32.decode x) else q.encode rnd r (f32.decode x)
    | none => 0

/-- The draws of a stochastic TSTORE: 256 per lane (R158). -/
def tstoreDraws (lanes : Tbl RngLane) : Tbl Word :=
  (List.range 32).flatMap (fun l => (drawN l 256 (laneOf lanes l)).1.zipIdx.map (fun d => (256 * l + d.2, d.1)))

/-- The 16-bit random number of element (i, j) (R158). -/
def elemDraw (draws : Tbl Word) (i j : Nat) : Nat :=
  let k := 4 * i + j / 32
  let d := (tget 0 draws (256 * (j % 32) + k / 2)).toNat
  if k % 2 = 0 then d % 65536 else d / 65536

/-- Packs element codes of `b` bits, four at a time (R146). -/
def packCodes (b : Nat) : Nat → List Nat → List Byte
  | 0, _ => []
  | n + 1, l => leBytes (b / 2) (nth 0 l 0 + nth 0 l 1 * 2 ^ b + nth 0 l 2 * 2 ^ (2 * b) + nth 0 l 3 * 2 ^ (3 * b)) ++ packCodes b n (l.drop 4)

/-- The bytes of TSTORE's tile (R155). -/
def tstoreBytes (acc : Tbl Word) (f : FmtT) (draws : Tbl Word) : List Byte :=
  let rnd : Rnd := if f.opt.getLsbD 0 then .stochastic else .nearest
  let sat := f.opt.getLsbD 1
  let src := fun i j => accAt acc f.acc.toNat i j
  let scale := fun i c => mxScale f.afmt ((List.range 32).map (fun x => f32.decode (src i (32 * c + x))))
  let code := fun i j =>
    if tIsMx f.afmt then mxElem f.afmt rnd (elemDraw draws i j) (scale i (j / 32)) (f32.decode (src i j))
    else plainElem f.afmt rnd sat (elemDraw draws i j) (src i j)
  (List.range 128).flatMap (fun i => packCodes (tBits f.afmt) 32 ((List.range 128).map (code i))) ++
    (if tIsMx f.afmt then (List.range 128).flatMap (fun i => (List.range 4).map (fun c => BitVec.ofNat 8 (scale i c))) else [])

/-- The local byte address of a tile of a block. -/
def Mach.tileBase (m : Mach) (block : Nat) (b : BitVec 12) : Nat := 1024 * (m.blk block).base + 128 * b.toNat

/-- What a tensor instruction does to its core. -/
def Mach.runTensor (m : Mach) (t : TOp) (c : Core) : Core :=
  let a := m.tileBase t.block t.f.abase
  match t.kind with
  | .tmma => { c with acc := setTile c.acc t.f.acc.toNat (fun i j => tmmaElem c.loc a (m.tileBase t.block t.f.bbase) t.f i j (accAt c.acc t.f.acc.toNat i j)) }
  | .tzero => { c with acc := zeroTile c.acc t.f.acc.toNat }
  | .tload => { c with acc := setTile c.acc t.f.acc.toNat (tloadElem c.loc a t.f.afmt) }
  | .tstore => { c with loc := putBytes c.loc a (tstoreBytes c.acc t.f (tstoreDraws t.lanes)) }

/-! Stopping the engine (R139, R143). -/

/-- An access to local memory or a receive area. -/
def MemOp.isLocal (o : MemOp) : Bool := o.space == .localMem || o.space == .receive

/-- The earlier local accesses of a tensor instruction's group are performed: it may execute (R139). -/
def Mach.tensorReady (m : Mach) (t : TOp) : Bool :=
  m.ops.all (fun o => o.gid != t.gid || decide (t.id ≤ o.id) || !o.isLocal || o.lanes.all (·.done))

/-- A table with some of the entries of another: those at the keys that a test picks. -/
def tmix {α : Type} [DecidableEq α] (d : α) (pick : Nat → Bool) (old new : Tbl α) : Tbl α :=
  (tkeys new ++ tkeys old).foldl (fun t i => if pick i then tput d t i (tget d new i) else t) old

/-- Discards tensor instructions of a core.  The oldest of the queue may be executing: it then stops, and any of its writes may have
been made (R143; DESIGN CHOICE: log 120). -/
def Mach.stopTensor (m : Mach) (core : Nat) (hit : TOp → Bool) : Mach :=
  let part := match (m.core core).tq with
    | t :: _ =>
      if hit t && m.tensorReady t then
        let new := m.runTensor t (m.core core)
        (m.modCore core (fun c => { c with loc := tmix 0 (Config.stopWrote m.free) c.loc new.loc,
                                           acc := tmix 0 (fun i => Config.stopWrote m.free (2 ^ 20 + i)) c.acc new.acc })).bumpFree
      else m
    | [] => m
  part.modCore core (fun c => { c with tq := c.tq.filter (fun t => !hit t) })

end Sys2Proof.Machine
end

