-- ==== Sys2Proof/Machine/Kernels.lean ====
section
/-! DEFINITION. Machine/Kernels.lean: answers to commands (R331, R334), and how a kernel launch ends: its resources, its end
status, its abort record (R78, R93, R95, R106, R278, R286, R343, R546). -/

namespace Sys2Proof.Machine

/-- Moon's answer to the command it performs on a channel: held for posting (R331). -/
def Mach.answer (m : Mach) (key : Nat) (c : Cmd) (status detail : Nat) (result : List Byte) : Mach :=
  m.modChan key (fun ch =>
    { ch with cur := none,
              held := ch.held ++ [{ opcode := c.opcode, tag := c.tag, status := status, detail := detail, result := result,
                                    seq := c.seq, ptr := c.ptr, pmode := c.pmode, written := false,
                                    num := if c.opcode = 0x0502 then fieldAt c.params 0 4 else 0 }] })

/-- The channels whose command waits for something, with the command. -/
def Mach.waiting (m : Mach) (f : Defer → Bool) : List (Nat × Cmd) :=
  m.host.chans.filterMap (fun e =>
    match e.2.cur with
    | some (c, d) => if f d then some (e.1, c) else none
    | none => none)

/-- Answers every command that waits for something. -/
def Mach.answerAll (m : Mach) (f : Defer → Bool) (status detail : Nat) (result : List Byte) : Mach :=
  (m.waiting f).foldl (fun m e => m.answer e.1 e.2 status detail result) m

/-- KRN.WAIT's result: end Tide and FLAGS (Table 13.4). -/
def waitResult (e : EndStatus) : List Byte := leBytes 8 e.tide ++ leBytes 4 (if e.replayed then 1 else 0)

/-- Keeps an end status until a KRN.WAIT has returned it, at most 1,024 per partition (R343); every KRN.WAIT that waits for it is
answered now (DESIGN CHOICE: log 137). -/
def Mach.keepEnd (m : Mach) (p : Nat) (e : EndStatus) : Mach :=
  let isIt := fun d => match d with | Defer.krn q n _ => q == p && n == e.num | _ => false
  (m.answerAll isIt e.status 0 (waitResult e)).modPart p (fun q => { q with ends := (q.ends ++ [e]).drop (q.ends.length + 1 - 1024) })

/-- A group of a launch has exited on a core, or is gone from it (R91, R92). -/
def Mach.noteLeft (m : Mach) (k core : Nat) : Mach :=
  if (m.krn k).live then m.modKrn k (fun x => { x with leftTide := tput 0 x.leftTide core (m.coreTide core) }) else m

/-- Empties a block's slot and its groups' slots; what the tensor engine holds of it is discarded (R143). -/
def Mach.freeBlock (m : Mach) (b : Nat) : Mach :=
  let k := (m.blk b).krn
  let m := m.stopTensor (blockCore b) (fun t => t.krn == k && t.block == b)
  (((m.groupsOfBlock b).foldl (fun m g => m.setGrp g Group.reset) m).setBlk b Block.reset).noteLeft k (blockCore b)

/-- Releases a launch's bank and receive area in a cluster (R78). -/
def Mach.releaseBank (m : Mach) (k c : Nat) : Mach :=
  let m := m.modClu c (fun x =>
    { x with bank0 := if x.bank0 = k + 1 then 0 else x.bank0, bank1 := if x.bank1 = k + 1 then 0 else x.bank1 })
  m.modKrn k (fun x => { x with banks := tput 0 x.banks c 0,
                                recv := (coresOfCluster c).foldl (fun t i => tput 0 t i 0) x.recv })

/-- The bank that a launch holds in a cluster: 0 or 1 (R78). -/
def Mach.bankOf (m : Mach) (k c : Nat) : Option Nat :=
  if (m.clu c).bank0 = k + 1 then some 0 else if (m.clu c).bank1 = k + 1 then some 1 else none

/-- Global stores, atomics and reductions in flight outlive an abort: each is then performed whole or never (R286).
DEDUCED: logs 79 and 83. -/
def MemOp.outlives (o : MemOp) : Bool :=
  (match o.kind with | .load => false | _ => true) && (o.space == .global || o.space == .streaming)

/-- An access in flight of a space uses a translated host page (R223). -/
def Mach.usesHost (m : Mach) (space t : Nat) : Bool :=
  m.ops.any (fun o => o.part == space && o.lanes.any (fun l => !l.done && (match l.tgt with | .host ha => ha / 65536 + 1 == t | _ => false)))

/-- Completes the ATS invalidations whose translation no access in flight uses any longer (R223). -/
def Mach.endInvalidations (m : Mach) : Mach :=
  let over_ := m.mem.atsInv.filter (fun e => !m.usesHost e.1 e.2.2)
  let m := m.modMem (fun a => { a with atsInv := a.atsInv.filter (fun e => !over_.contains e) })
  over_.foldl (fun m e => m.emit (.atsInvDone (if e.1 < 65 then m.vfKey e.1 else e.1 - 65) e.2.1)) m

/-- Discards what a launch has in flight: accesses that do not outlive it, its flushes, copies, multicasts, tensor instructions and
Ordering Unit descriptors (R181, R286, R138; log 37). -/
def Mach.dropWork (m : Mach) (k : Nat) (core : Option Nat) : Mach :=
  let hit := fun k' c' => k' == k && (match core with | some c => c' == c | none => true)
  let m := { m with
    ops := (m.ops.filter (fun o => !hit o.krn o.core || o.outlives)),
    flushes := m.flushes.filter (fun o => !hit o.krn o.core),
    mcasts := m.mcasts.filter (fun o => !hit o.krn o.core),
    copies := (tmap m.copies (fun q => q.filter (fun o => !hit o.krn o.core))).filter (fun e => e.2 != []) }
  let m := { m with clusters := tmap m.clusters (fun x => { x with ordq := x.ordq.filter (fun d => !hit d.krn d.core) }) }
  ((tkeys m.cores).foldl (fun m c => m.stopTensor c (fun t => hit t.krn (coreOf t.gid))) m).endInvalidations

/-- What is known of a launch that has left, for what it still has in flight: its partition, INSTANCE and class, and whether a step launched
it (R166, R183, R283, R384). -/
def Krn.left (x : Krn) : Krn := { Krn.reset with part := x.part, num := x.num, lc := x.lc, fromStep := x.fromStep }

/-- A launch leaves: its blocks and banks go, and it is no longer live (R78). DEDUCED: log 83. -/
def Mach.leaveKrn (m : Mach) (k : Nat) : Mach :=
  let m := (m.blocksOfKrn k).foldl (fun m b => m.freeBlock b) m
  let m := (tkeys m.clusters).foldl (fun m c => m.releaseBank k c) m
  m.modKrn k Krn.left

/-- Ends an aborted launch: what it has in flight goes too (R106, R286). -/
def Mach.removeKrn (m : Mach) (k : Nat) : Mach := (m.dropWork k none).leaveKrn k

/-- Ends a launch with a status: the status is kept for KRN.WAIT, or the graph node is done (R278, R343, R400, R414).  Under a
function-level reset no end status is kept (R358). -/
def Mach.endKrn (m : Mach) (k status : Nat) : Mach :=
  let x := m.krn k
  let m := if status = stAborted then m.removeKrn k else m.leaveKrn k
  if (m.part x.part).st == .resetting then m
  else if x.fromStep then
    m.modSb x.part (fun b => { b with done := b.done ++ [x.node], failed := b.failed || status == stAborted })
  else m.keepEnd x.part { num := x.num, status := status, tide := m.now, replayed := x.replayed }

/-- The oldest resident group of a launch on a core (R83, R546). -/
def Mach.oldestGroup (m : Mach) (k core : Nat) : Option Nat :=
  argMin (fun g => (m.grp g).age) ((groupSlots core).filter (fun g => (m.grp g).live && (m.blk (m.grp g).block).krn == k))

/-- The counters of a launch on a core: the 32 of its bank, zero where it holds none (R93). -/
def Mach.countersOf (m : Mach) (k core : Nat) : List Word :=
  match m.bankOf k (clusterOf core) with
  | some b => (List.range 32).map (fun e => tget 0 (m.core core).ctr (32 * b + e))
  | none => List.replicate 32 0

/-- One 192-byte core entry of an abort record (R546). DEDUCED: log 105. -/
def Mach.coreEntry (m : Mach) (k core : Nat) : List Byte :=
  match m.oldestGroup k core with
  | some g =>
    let x := m.grp g
    leBytes 1 (clusterOf core) ++ leBytes 1 (logicalOf core) ++ leBytes 2 0 ++ leBytes 4 x.pc.toNat ++
      leBytes 4 (m.blk x.block).id ++ leBytes 4 x.index ++ (m.countersOf k core).flatMap (fun w => leBytes 4 w.toNat) ++
      List.replicate 48 0
  | none => []

/-- The cores that hold a resident group of a launch. -/
def Mach.coresOfKrn (m : Mach) (k : Nat) : List Nat :=
  ((m.blocksOfKrn k).map blockCore).eraseDups.filter (fun c => (m.oldestGroup k c).isSome)

/-- The abort record of a launch (R546): fault, address (virtual, where there is one), status, DST detail and core entries. -/
def Mach.abortRec (m : Mach) (k fault : Nat) (addr : Option Nat) (status detail : Nat) : RasRec :=
  let x := m.krn k
  { RasRec.mk0 0x20 2 x.part x.num m.now with
      addr := addr.getD 0, kind := if addr.isSome then 3 else 0, fault := fault, status := status,
      detail := leBytes 20 detail, body := (m.coresOfKrn k).flatMap (m.coreEntry k) }

/-- A record as the device ring holds it: with the physical address that a virtual one stands for, none where it stands for no HBM
(R545). -/
def Mach.physical (m : Mach) (r : RasRec) : RasRec :=
  if r.kind = 3 then
    match m.translate r.part .image r.addr with
    | .ok (.hbm pa) => { r with addr := pa, kind := 1 }
    | _ => { r with addr := 0, kind := 0 }
  else r

/-- Aborts a launch (R93, R95, R106): issue stops, the counters are snapshotted, the launch ends with ABORTED, the abort
record is written and vector 1 raised.  Under a function-level reset no record is written (R358). -/
def Mach.abortKrn (m : Mach) (k fault : Nat) (addr : Option Nat) : Mach :=
  if !(m.krn k).live then m else
  let p := (m.krn k).part
  let r := m.abortRec k fault addr stAborted 0
  let m := m.endKrn k stAborted
  if (m.part p).st == .resetting then m else (m.logDev (m.physical r)).logPart p r

/-- The abort of a launch by the answer to a remote access (R433, fault code 7). -/
def Mach.abortRemote (m : Mach) (k status dst addr : Nat) : Mach :=
  if !(m.krn k).live then m else
  let p := (m.krn k).part
  let r := m.abortRec k fRemote (some addr) status dst
  let m := m.endKrn k stAborted
  if (m.part p).st == .resetting then m else (m.logDev (m.physical r)).logPart p r

/-- The status a launch completes with: UNSEEDED_DRAW where its sticky flag is set (R195). -/
def Krn.okStatus (x : Krn) : Nat := if x.unseeded then stUnseeded else stOk

/-! Local memory, L1 and TLBs (R207, R209, R590). -/

/-- Invalidates a core's L1 in full; the pseudo-LRU bits read zero (R590). -/
def Core.dropL1 (c : Core) : Core := { c with l1 := [], plru := [] }

/-- Zeroes a core's local memory and accumulators, invalidates its L1, instruction cache and TLB, releases its event counters:
a cluster quiesce (Table 21.2). -/
def Core.quiesce (c : Core) : Core :=
  { c.dropL1 with loc := [], icache := [], tlb := [], acc := [], ctr := [], ctrTide := [], ejected := 0, tq := [] }

/-- Quiesces every core of a cluster (Table 21.2, R207). -/
def Mach.quiesceCluster (m : Mach) (c : Nat) : Mach :=
  let m := (coresOfCluster c).foldl (fun m i => m.modCore i Core.quiesce) m
  m.modClu c (fun x => { x with tlb := [], bank0 := 0, bank1 := 0 })

/-- The loads of a core that are in flight to lines the L1 has invalidated return their data and do not allocate (R264). -/
def Mach.noFill (m : Mach) (core : Nat) (hit : Nat → Bool) : Mach :=
  let mark := fun (l : LaneAcc) => { l with noFill := l.noFill || (match l.tgt with | .hbm pa => hit (pa / 64) | _ => false) }
  { m with ops := m.ops.map (fun (o : MemOp) => if o.core == core then { o with lanes := o.lanes.map mark } else o) }

/-- Invalidates the L1 of a core in full (R209). -/
def Mach.dropL1 (m : Mach) (core : Nat) : Mach := (m.modCore core Core.dropL1).noFill core (fun _ => true)

/-- Invalidates the L1 of every core of a partition (R224, step 4). -/
def Mach.dropL1s (m : Mach) (p : Nat) : Mach := (m.coresOf p).foldl (fun m i => m.dropL1 i) m

/-- Invalidates the instruction caches of a partition (R210). -/
def Mach.dropIcaches (m : Mach) (p : Nat) : Mach := (m.coresOf p).foldl (fun m i => m.modCore i (fun c => { c with icache := [] })) m

/-- Counter `e` (0-63) of a core changes to `w` (R91 counts from the change). -/
def Core.setCtr (c : Core) (e : Nat) (w : Word) (tide : Nat) : Core :=
  { c with ctr := tput 0 c.ctr e w, ctrTide := tput 0 c.ctrTide e tide }

/-- A saturating increment (R87). -/
def satInc (w : Word) (n : Nat) : Word := if w.toNat + n < 2 ^ 32 then BitVec.ofNat 32 (w.toNat + n) else 0xFFFFFFFF

/-- The kind that a launch declares counter `e` of its bank to be: 0 unused, 1 local, 2 device, 3 external (R89). -/
def Krn.ctrKind (x : Krn) (e : Nat) : Nat := x.desc.counters.toNat / 4 ^ e % 4

/-- Adds `n` to counter `e` of a launch's bank on a core (R87); discarded where the launch holds no bank there (R96, R100). -/
def Mach.incCtr (m : Mach) (k core e n : Nat) : Mach :=
  match m.bankOf k (clusterOf core) with
  | some b =>
    if m.coreLive core then
      m.modCore core (fun c => c.setCtr (32 * b + e) (satInc (tget 0 c.ctr (32 * b + e)) n) (m.coreTide core))
    else m
  | none => m

/-- The completion increment of an operation that names counter `ec` (R126, R138). -/
def Mach.complete (m : Mach) (eve : Bool) (k core ec : Nat) : Mach := if eve then m.incCtr k core ec 1 else m

end Sys2Proof.Machine
end

