-- ==== Sys2Proof/Machine/Mailbox.lean ====
section
/-! DEFINITION. Machine/Mailbox.lean: how a function's BAR answers (R296, R311, R313, R315, R357), and the mailbox channels
(R319 to R333, R346, R347). -/

namespace Sys2Proof.Machine

/-- How a function's BARs answer. -/
inductive BarGate where
  /-- The request is performed. -/
  | open_
  /-- Reads complete with Unsupported Request, writes are dropped. -/
  | ur
  /-- Reads return zero and writes are discarded; nothing is logged. -/
  | zero
  /-- No request can arrive. -/
  | closed
  deriving DecidableEq, Repr

/-- The block serves BAR0 in full: DEVICE_READY has been posted, or the state R519 or R576 serves the management channel. -/
def Mach.served (m : Mach) : Bool :=
  m.start.phase == .ready || m.start.phase == .romOnly || m.start.phase == .outOfService

/-- Partition `p` exists and is bound to link `l` (R296). -/
def Mach.bound (m : Mach) (l p : Nat) : Bool := (m.part p).st != .absent && (m.part p).link == l

/-- A function is enabled on its link: a physical function always, VF `p` while VF Enable and NumVFs cover it or R305 keeps it. -/
def Mach.present (m : Mach) : Fn → Bool
  | .pf _ => true
  | .vf l p => ((m.hlink l).vfEnable && decide (p ≤ (m.hlink l).numVfs)) || (m.bound l p && (m.fnSt (4 + 64 * l + p)).kept)

/-- How the BARs of a function answer: R313 before DEVICE_READY, R315 in D3hot or without Memory Space Enable, and for a VF
R296, R311 and R357. DEDUCED: log 97. -/
def Mach.barGate (m : Mach) (fn : Fn) : BarGate :=
  if !(m.hlink (fnLink fn)).up || !(m.hlink (fnLink fn)).cfgReady || !m.present fn then .closed
  else
    let f := m.fnSt (fnKey fn)
    match fn with
    | .pf _ => if !f.mse || f.d3hot then .ur else if m.served then .open_ else .zero
    | .vf l p =>
      if !m.served then .zero
      else if !m.bound l p then .zero
      else if (m.part p).st == .resetting || f.d3hot || !f.mse || f.tdisp == .error then .ur
      else if f.tdisp == .run && !(f.stream != 0 && f.via == f.stream && (tget ⟨0, false⟩ (m.hlink l).ide (f.stream - 1)).secure) then .ur
      else .open_

/-! Posted writes (R282, R298). -/

/-- The host port of an upstream link. -/
def portOf (l : Nat) : Nat := if l = 0 then 0 else 1

/-- A write, not a read. -/
def HostAcc.isWrite : HostAcc → Bool
  | .read2 _ _ _ _ => false
  | _ => true

/-- An earlier posted write of the function's port has not been performed. -/
def Mach.behind (m : Mach) (fn : Fn) : Bool := m.host.posted.any (fun e => portOf (fnLink e.fn) == portOf (fnLink fn) && e.acc.isWrite)

/-- An access waits behind those that have arrived before it. -/
def Mach.queueHost (m : Mach) (fn : Fn) (a : HostAcc) : Mach := m.modHost (fun h => { h with posted := h.posted ++ [⟨fn, a⟩] })

/-- A register write takes effect once every earlier posted write of its port has been performed (R282). DEDUCED: log 134. -/
def Mach.inPost (m : Mach) (fn : Fn) (off size : Nat) (v : DWord) (now : Mach) : Mach :=
  if m.behind fn then m.queueHost fn (.reg off size v) else now

/-! Channels. -/

/-- A channel exists: 8 per function (R319). -/
def chanOk (fn : Fn) (ch : Nat) : Bool := fnOk fn && decide (ch < 8)

/-- LEN of a command header; a LEN above 15 frames no parameter words (R328). DEDUCED: log 111. -/
def hdrLen (w : Word) : Nat := if w.toNat % 256 ≤ 15 then w.toNat % 256 else 0

/-- Free words of the inbound queue (MBX_STATUS.TX_FREE). -/
def Chan.txFree (c : Chan) : Nat := 16 - c.inq.length

/-- SERVING advances (R326). -/
def Chan.advance (c : Chan) (tide : Nat) : Chan := { c with serving := c.serving + 1, servingTide := tide }

/-- A word enters the inbound queue: a header opens a command, and the last word of a command advances SERVING (R326, R328). -/
def Chan.push (c : Chan) (w : Word) (tide : Nat) : Chan :=
  let c := if c.need = 0 then { c with inq := c.inq ++ [w], need := hdrLen w, headerTide := tide }
    else { c with inq := c.inq ++ [w], need := c.need - 1 }
  if c.need = 0 then c.advance tide else c

/-- The words of the inbound queue cut into commands, the last of which may be partial. -/
def cutCmds : Nat → List Word → List (List Word)
  | 0, _ => []
  | _, [] => []
  | n + 1, w :: l => (w :: l.take (hdrLen w)) :: cutCmds n (l.drop (hdrLen w))

/-- The partial command at the end of the inbound queue, if there is one, and the queue before it. -/
def Chan.partial_ (c : Chan) : List Word × List Word :=
  if c.need = 0 then (c.inq, [])
  else
    let whole := ((cutCmds 17 c.inq).dropLast).flatten
    (whole, c.inq.drop whole.length)

/-- Discards the partial command (R325, R328). -/
def Chan.dropPartial (c : Chan) : Chan := { c with inq := c.partial_.1, need := 0 }

/-- Parameters that no layout frames: what a malformed command is given (R329). -/
def malformedParams : List Byte := List.replicate 8192 0

/-- A Q-mode command from its words (R328, R329); a LEN above 15 is malformed (DEDUCED: log 111). -/
def qCmd (ws : List Word) : Cmd :=
  let h := (ws.headD 0).toNat
  { opcode := h / 65536, tag := h / 256 % 256, seq := 0, ptr := 0, pmode := false,
    params := if 15 < h % 256 then malformedParams else (ws.drop 1).flatMap (fun w => leBytes 4 w.toNat) }

/-- Raises vector 0 of a function for a mailbox event (R323): the role MAILBOX of a VF (R355). -/
def Mach.raiseMbx (m : Mach) (key : Nat) : Mach :=
  if key / 8 < 4 then m.sendMsix (key / 8) (key / 8) 0 else m.raiseVf ((key / 8 - 5) % 64 + 1) 0

/-- The address space of the function of a channel key. -/
def keySpace (key : Nat) : Nat := if key / 8 < 4 then 65 + key / 8 else (key / 8 - 5) % 64 + 1

/-- Answers a command that arrives during a firmware restart at once with BUSY, by hardware (R340); the TAG of a P-mode block is read
when the answer is posted. -/
def Mach.busyNow (m : Mach) (key : Nat) (c : Cmd) : Mach :=
  m.modChan key (fun x =>
    { x with held := x.held ++ [{ opcode := c.opcode, tag := c.tag, status := stBusy, detail := 0, result := [], seq := c.seq,
                                  ptr := c.ptr, pmode := c.pmode, written := false, hw := true, unread := c.pmode }] })

/-- A word that the channel accepts (R328); a command it completes during a restart is answered BUSY (R340). -/
def Mach.acceptWord (m : Mach) (key : Nat) (w : Word) : Mach :=
  let c := (m.chan key).push w m.now
  let m := m.setChan key c
  if c.need = 0 && m.moon.restart != 0 then
    let last := ((cutCmds 17 c.inq).getLastD [])
    let m := m.setChan key { c with inq := c.inq.take (c.inq.length - last.length) }
    m.busyNow key (qCmd last)
  else m

/-- A doorbell that the channel accepts: it receives a sequence number and advances SERVING (R322, R326). -/
def Mach.acceptDoorbell (m : Mach) (key ptr : Nat) : Mach :=
  let c := m.chan key
  let seq := c.seqNo.toNat
  let c := { c with seqNo := c.seqNo + 1 }.advance m.now
  if m.moon.restart != 0 then
    (m.setChan key c).busyNow key { opcode := 0, tag := 0, params := [], seq := seq, ptr := ptr, pmode := true }
  else m.setChan key { c with dbq := c.dbq ++ [(ptr, seq)] }

/-- A host write to a channel that has no room, or to an overrun channel: dropped, OVERRUN set, logged (R324, R325). -/
def Mach.overrunDrop (m : Mach) (fn : Fn) (key : Nat) : Mach :=
  (m.modChan key (fun c => { c with overrun := true })).logAer (fnKey fn) 1

/-- A host write of a word to MBX_TXQ (R321, R324, R325, R328). -/
def Mach.hostTxq (m : Mach) (fn : Fn) (key : Nat) (w : Word) : Mach :=
  let c := m.chan key
  if c.mode || !c.enable then m.logAer (fnKey fn) 0
  else if c.overrun || c.txFree = 0 then m.overrunDrop fn key
  else m.acceptWord key w

/-- A host write of MBX_DOORBELL (R321, R324, R325, R330). -/
def Mach.hostDoorbell (m : Mach) (fn : Fn) (key : Nat) (ptr : DWord) : Mach :=
  let c := m.chan key
  if !c.mode || !c.enable then m.logAer (fnKey fn) 0
  else if c.overrun || decide (8 ≤ c.dbq.length) then m.overrunDrop fn key
  else m.acceptDoorbell key (ptr.toNat / 64 * 64)

/-- The write of MBX_CTL (R319, R321): MODE changes only on an idle channel and never on the management channel. -/
def Mach.writeCtl (m : Mach) (key : Nat) (v : DWord) : Mach :=
  m.modChan key (fun c =>
    let idle := c.inq.isEmpty && c.outq.isEmpty && c.dbq.isEmpty && c.notices.isEmpty && c.cur.isNone && c.held.isEmpty
    { c with mode := if key != 0 && idle then v.getLsbD 0 else c.mode, irqEn := v.getLsbD 1, enable := v.getLsbD 2 })

/-- A write of 1s to MBX_STATUS's W1C bits (R319, R325): clearing OVERRUN also discards the partial command. -/
def Mach.writeStatus (m : Mach) (key : Nat) (v : DWord) : Mach :=
  m.modChan key (fun c =>
    let c := if v.getLsbD 32 && c.overrun then { c.dropPartial with overrun := false } else c
    { c with abandoned := c.abandoned && !v.getLsbD 33, ticketSkip := c.ticketSkip && !v.getLsbD 34 })

/-- MBX_STATUS as it reads (R319). -/
def Mach.readStatus (m : Mach) (key : Nat) : DWord :=
  let c := m.chan key
  BitVec.ofNat 64 ((if c.mode then 16 else c.txFree) + 32 * c.outq.length + 1024 * (8 - c.dbq.length) + 16384 * c.notices.length
    + 2 ^ 32 * c.overrun.toNat + 2 ^ 33 * c.abandoned.toNat + 2 ^ 34 * c.ticketSkip.toNat + 2 ^ 35 * m.moon.ready.toNat
    + 2 ^ 36 * c.serving.toNat)

/-- The release of a turn without sending (R326). -/
def Mach.release (m : Mach) (key : Nat) (ticket : BitVec 16) : Mach :=
  m.modChan key (fun c => if c.serving == ticket then c.advance m.now else c)

/-- A ticket is taken: NEXT advances (R320); the 100 ms of R326 count from then if SERVING had caught up. -/
def Mach.takeTicket (m : Mach) (key : Nat) : Mach :=
  m.modChan key (fun c => { c with next := c.next + 1, servingTide := if c.next == c.serving then m.now else c.servingTide })

/-! Posting (R323, R330, R331, R333). -/

/-- The words of a Q-mode response (Table 13.1). -/
def qWords (r : Reply) : List Word :=
  let n := (r.result.length + 3) / 4
  let body := (List.range n).map (fun i => BitVec.ofNat 32 (fieldAt r.result (4 * i) 4))
  BitVec.ofNat 32 (n + 256 * r.tag + 65536 * r.opcode) :: BitVec.ofNat 32 (r.status + 65536 * r.detail) :: body

/-- A notice of MBX_NOTICE_OUT, VALID set. -/
def noticeWord (r : Reply) : DWord :=
  BitVec.ofNat 64 (r.status % 65536 + 65536 * (r.detail % 65536) + 2 ^ 32 * (r.seq % 65536) + 2 ^ 48 * (r.tag % 256) + 2 ^ 63)

/-- Completes a P-mode block in memory: the results, then RESULT_LEN, STATUS and DONE in that order (R330); the hardware of a restart
writes STATUS and DONE (R340).  A block that could not be read is left alone. -/
def Mach.writeBlock (m : Mach) (space : Nat) (r : Reply) : VWrite :=
  if r.status = stInvalid && r.detail = 0xFFFD then .ok m
  else if r.hw then
    match m.vwrite space (r.ptr + 8) (leBytes 8 (statusWord r.status r.detail).toNat) with
    | .ok m => m.vwrite space (r.ptr + 0x14) (leBytes 4 1)
    | x => x
  else
    match m.vwrite space (r.ptr + 0x40) r.result with
    | .ok m =>
      match m.vwrite space (r.ptr + 0x10) (leBytes 4 r.result.length) with
      | .ok m =>
        match m.vwrite space (r.ptr + 8) (leBytes 8 (statusWord r.status r.detail).toNat) with
        | .ok m => m.vwrite space (r.ptr + 0x14) (leBytes 4 1)
        | x => x
      | x => x
    | x => x

/-- A response with the OPCODE and TAG of its block. -/
inductive Tagged where
  | ok (r : Reply) (m : Mach)
  | waits (m : Mach)

/-- Reads the TAG of the block that a response completes, where it has not been read (R340): TAG 0 where the block cannot be read, which
the hardware answers with BUSY and Moon under R330. DEDUCED: log 101. -/
def Mach.readTag (m : Mach) (space : Nat) (r : Reply) : Tagged :=
  if !r.unread then .ok r m
  else
    match m.vread space r.ptr 64 .read with
    | .ok h m => .ok { r with opcode := fieldAt h 0 2, tag := fieldAt h 2 1, unread := false } m
    | .waits m => .waits m
    | _ => .ok (if r.hw then { r with unread := false, written := true } else { r with unread := false, status := stInvalid, detail := 0xFFFD }) m

/-- A response has been posted: an end status that it returned is kept no longer (R343). -/
def Mach.posted (m : Mach) (key : Nat) (r : Reply) : Mach :=
  if r.opcode = 0x0502 && !r.result.isEmpty then
    m.modPart (keySpace key) (fun q =>
      match q.ends.find? (fun e => e.num == r.num) with
      | some e => { q with ends := q.ends.erase e }
      | none => q)
  else m

/-- Posts the oldest held response when the outbound side has room (R331); the vector of R323 follows the change from empty. -/
def Mach.postReply (m : Mach) (key : Nat) : Mach :=
  let c := m.chan key
  match c.held with
  | [] => m
  | r :: rest =>
    if r.pmode then
      match m.readTag (keySpace key) r with
      | .waits m => m
      | .ok r m =>
        match if r.written then VWrite.ok m else m.writeBlock (keySpace key) r with
        | .waits m => m
        | x =>
          let m := match x with | .ok m' => m' | _ => m
          if 8 ≤ c.notices.length then m.modChan key (fun c => { c with held := { r with written := true } :: rest })
          else
            let m := (m.posted key r).modChan key (fun c => { c with held := rest, notices := c.notices ++ [noticeWord r] })
            if c.notices.isEmpty && c.irqEn then m.raiseMbx key else m
    else
      let ws := qWords r
      if c.outq.length + ws.length ≤ 16 then
        let m := (m.posted key r).modChan key (fun c => { c with held := rest, outq := c.outq ++ ws })
        if c.outq.isEmpty && c.irqEn then m.raiseMbx key else m
      else m

/-! The commands that Moon takes (R328 to R332). -/

/-- The command at the front of a channel, or why there is none. -/
inductive Peek where
  | cmd (c : Cmd) (m : Mach)
  | none
  /-- The block cannot be read (R330). -/
  | unreadable (c : Cmd) (m : Mach)
  /-- The read of the block waits on a line's transaction. -/
  | waits (m : Mach)

/-- The oldest complete command of a channel: its words, or the block that its oldest doorbell names. -/
def Mach.peek (m : Mach) (key : Nat) : Peek :=
  let c := m.chan key
  if c.mode then
    match c.dbq with
    | [] => .none
    | (ptr, seq) :: _ =>
      let bad : Cmd := { opcode := 0, tag := 0, params := [], seq := seq, ptr := ptr, pmode := true }
      match m.vread (keySpace key) ptr 64 .read with
      | .ok h m =>
        let plen := fieldAt h 4 4
        if plen ≤ 4032 then
          match m.vread (keySpace key) (ptr + 64) plen .read with
          | .ok b m => .cmd { bad with opcode := fieldAt h 0 2, tag := fieldAt h 2 1,
                                       params := if zeroAt h 3 1 && zeroAt h 24 40 then b else malformedParams } m
          | .waits m => .waits m
          | _ => .unreadable bad m
        else .cmd { bad with opcode := fieldAt h 0 2, tag := fieldAt h 2 1, params := malformedParams } m
      | .waits m => .waits m
      | _ => .unreadable bad m
  else
    match cutCmds 17 c.inq with
    | [] => .none
    | ws :: _ => if ws.length = hdrLen (ws.headD 0) + 1 then .cmd (qCmd ws) m else .none

/-- The firmware services the watchdog of the complex (R337): whenever it takes a command, posts a response or runs its control period
(DESIGN CHOICE: log 139). -/
def Mach.serviceWdog (m : Mach) : Mach := if m.moon.restart = 0 then m.modMoon (fun a => { a with wdog := m.now }) else m

/-- The number of complete commands that wait in a channel. -/
def Chan.complete (c : Chan) : Nat := if c.mode then c.dbq.length else (cutCmds 17 c.partial_.1).length

/-- Removes the command at the front of a channel: one of those that a freeze captured (R373), or that a reset found (R344), where it is. -/
def Mach.takeFront (m : Mach) (key : Nat) : Mach :=
  let m := m.modChan key (fun c =>
    let c := { c with abort := (c.abort.map (fun (a : Nat × Nat) => (a.1, a.2 - 1))).filter (fun (a : Nat × Nat) => a.2 != 0) }
    if c.mode then { c with dbq := c.dbq.drop 1 } else { c with inq := c.inq.drop (hdrLen (c.inq.headD 0) + 1) })
  (if key / 8 < 4 then m else m.modPart (keySpace key) (fun q => { q with captured := q.captured.erase (key % 8) })).serviceWdog

/-- A channel on which no command can be taken for now: its command waits, or its response has no room. -/
def Chan.stuck (c : Chan) : Bool :=
  c.cur.isSome || (if c.mode then decide (8 ≤ c.notices.length) else decide (16 < c.outq.length + ((c.held.head?.map qWords).getD []).length))

/-- The channel whose captured command Moon takes next after a thaw: the first in channel order that can be taken (R373). DEDUCED: log 19. -/
def Mach.capturedNow (m : Mach) (p : Nat) : Option Nat :=
  (m.part p).captured.find? (fun c =>
    let x := m.chan (8 * m.vfKey p + c)
    x.enable && !x.stuck && x.complete != 0)

/-- The opcodes of Table 13.4 (R342). -/
def opcodes : List Nat :=
  [0x0101, 0x0102, 0x0201, 0x0202, 0x0203, 0x0204, 0x0205, 0x0206, 0x0207, 0x0208, 0x0209, 0x020A, 0x020B, 0x0301, 0x0302,
   0x0303, 0x0304, 0x0305, 0x0401, 0x0402, 0x0501, 0x0502, 0x0503, 0x0504, 0x0601, 0x0602, 0x0603, 0x0604, 0x0605, 0x0606,
   0x0607, 0x0701, 0x0702, 0x0703, 0x0704, 0x0801, 0x0802, 0x0803, 0x0901, 0x0902, 0x0903, 0x0A01, 0x0A02, 0x0A03, 0x0A04,
   0x0B01, 0x0B02, 0x0B03, 0x0C01, 0x0C02, 0x0C03]

/-- Moon may take a command from a channel: it serves, the channel is enabled, performs none and has posted its answers, and the
partition of a VF runs, with no captured command of another channel before it (R321, R332, R344, R369, R373). -/
def Mach.mayTake (m : Mach) (fn : Fn) (ch : Nat) : Bool :=
  m.served && m.moonServes && (m.chan (chanKey fn ch)).enable && (m.chan (chanKey fn ch)).cur.isNone &&
    (m.chan (chanKey fn ch)).held.all (·.notice) &&
    match fn with
    | .pf _ => m.start.phase == .ready || (fnKey fn == 0 && ch == 0)
    | .vf l p => m.start.phase == .ready && m.bound l p && (m.part p).st == .running && (m.capturedNow p).all (· == ch)

/-- Answers a front command that no row of Table 13.4 gives: an unassigned opcode (R342) or an unreadable block (R330). -/
def Mach.answerStray (m : Mach) (fn : Fn) (ch : Nat) : Mach :=
  let key := chanKey fn ch
  if !m.mayTake fn ch then m
  else
    match m.peek key with
    | .cmd c m => if opcodes.contains c.opcode then m else (m.takeFront key).answer key c stInvalid 0xFFFF []
    | .unreadable c m => (m.takeFront key).answer key c stInvalid 0xFFFD []
    | .waits m => m
    | .none => m

/-! The commands. -/

/-- Runs a write of a channel register of a function whose BARs answer: `v` at offset `o` of the channel's page, in the order of the port's
posted writes. -/
def onChan (fn : Fn) (ch : Nat) (s : State) (o size : Nat) (v : DWord) (f : Mach → Nat → Mach) : Out :=
  s.run fun m =>
    if !chanOk fn ch then .refused .noSuchUnit
    else gate m (m.barGate fn == .open_) (m.inPost fn (0x10000 + 0x1000 * ch + o) size v (f m (chanKey fn ch)))

/-- A read of a channel register: the value where the BARs answer, zero or Unsupported Request else (R296, R313, R315, R357). -/
def readChan (fn : Fn) (ch : Nat) (s : State) (n : Nat) (f : Mach → Nat → Nat × Mach) : Out :=
  s.run fun m =>
    if !chanOk fn ch then .refused .noSuchUnit
    else
      match m.barGate fn with
      | .open_ => let r := f m (chanKey fn ch); .next (r.2.emit (.readData (fnKey fn) (leBytes n r.1)))
      | .ur => .next (m.emit (.ur (fnKey fn)))
      | .zero => .next (m.emit (.readData (fnKey fn) (List.replicate n 0)))
      | .closed => .next m

/-- MBX_TXQ_WRITE (R321, R324, R325, R328). -/
def execMbxTxqWrite (fn : Fn) (ch : Nat) (word : Word) (s : State) : Out := 
  onChan fn ch s 0x100 4 (word.zeroExtend 64) fun m key => m.hostTxq fn key word

/-- MBX_DOORBELL_WRITE (R321, R324, R325, R330). -/
def execMbxDoorbellWrite (fn : Fn) (ch : Nat) (ptr : DWord) (s : State) : Out :=
  onChan fn ch s 0x10 8 ptr fun m key => m.hostDoorbell fn key ptr

/-- MBX_RXQ_READ (R320): removes the word it returns; zero from an empty queue. -/
def execMbxRxqRead (fn : Fn) (ch : Nat) (s : State) : Out :=
  readChan fn ch s 4 fun m key =>
    let c := m.chan key
    ((c.outq.headD 0).toNat, m.setChan key { c with outq := c.outq.drop 1 })

/-- MBX_NOTICE_OUT_READ (R320, R582): a read that covers bit 63 removes the notice it returns. -/
def execMbxNoticeOutRead (fn : Fn) (ch : Nat) (half : RegHalf) (s : State) : Out :=
  readChan fn ch s (if half == .whole then 8 else 4) fun m key =>
    let c := m.chan key
    let w := (c.notices.headD 0).toNat
    match half with
    | .whole => (w, m.setChan key { c with notices := c.notices.drop 1 })
    | .high => (w / 2 ^ 32, m.setChan key { c with notices := c.notices.drop 1 })
    | .low => (w % 2 ^ 32, m)

/-- MBX_TICKET_READ (R320, R582): a read that covers bits [15:0] returns NEXT and advances it. -/
def execMbxTicketRead (fn : Fn) (ch : Nat) (half : RegHalf) (s : State) : Out :=
  readChan fn ch s (if half == .whole then 8 else 4) fun m key =>
    let c := m.chan key
    match half with
    | .high => (0, m)
    | _ => (c.next.toNat + 65536 * c.serving.toNat, m.takeTicket key)

/-- MBX_TICKET_RELEASE (R326). -/
def execMbxTicketRelease (fn : Fn) (ch : Nat) (ticket : BitVec 16) (s : State) : Out :=
  onChan fn ch s 0x24 4 (ticket.zeroExtend 64) fun m key => m.release key ticket

/-- MBX_CTL_WRITE (R321). -/
def execMbxCtlWrite (fn : Fn) (ch : Nat) (value : DWord) (s : State) : Out := 
  onChan fn ch s 0 8 value fun m key => m.writeCtl key value

/-- OVERRUN_CLEAR (R325). -/
def execOverrunClear (fn : Fn) (ch : Nat) (s : State) : Out :=
  onChan fn ch s 8 8 (BitVec.ofNat 64 (2 ^ 32)) fun m key => m.writeStatus key (BitVec.ofNat 64 (2 ^ 32))

/-- TICKET_SKIP (R326): SERVING has stood still for 100 ms while NEXT differs. -/
def execTicketSkip (fn : Fn) (ch : Nat) (s : State) : Out :=
  s.run fun m =>
    if !chanOk fn ch then .refused .noSuchUnit
    else
      let c := m.chan (chanKey fn ch)
      gate m (c.next != c.serving && decide (c.servingTide + 100 * ms ≤ m.now))
        (m.setChan (chanKey fn ch) { c.advance m.now with ticketSkip := true })

/-- ABANDONED (R328): the parameter words have not all arrived 10 ms after the header. -/
def execAbandoned (fn : Fn) (ch : Nat) (s : State) : Out :=
  s.run fun m =>
    if !chanOk fn ch then .refused .noSuchUnit
    else
      let key := chanKey fn ch
      let c := m.chan key
      gate m (c.need != 0 && decide (c.headerTide + 10 * ms ≤ m.now))
        ((m.setChan key { c.dropPartial with abandoned := true }).modChan key (fun x =>
          let w := (c.partial_.2.headD 0).toNat
          { x with held := x.held ++ [{ opcode := w / 65536, tag := w / 256 % 256, status := stInvalid, detail := 0xFFFF,
                                        result := [], seq := 0, ptr := 0, pmode := false, written := false }] }))

/-- MAILBOX_QUEUE_ERROR (R347): the words involved are discarded, ABANDONED is set and a RAS event logged; the command whose
parameters were lost receives INVALID with detail 0xFFFF, one whose header or doorbell was lost no response. -/
def execMailboxQueueError (fn : Fn) (ch : Nat) (what : QueuePart) (s : State) : Out :=
  s.run fun m =>
    if !chanOk fn ch then .refused .noSuchUnit
    else
      let key := chanKey fn ch
      let c := m.chan key
      let code := Config.rasCode 0
      let front := (cutCmds 17 c.inq).headD []
      let noCmd := { c with inq := c.inq.drop front.length, need := if front.length = c.inq.length then 0 else c.need, abandoned := true }
      let log := fun (m : Mach) => m.event code.1 code.2
      match what with
      | .header => gate m (!c.mode && !c.inq.isEmpty) (log (m.setChan key noCmd))
      | .params =>
        gate m (!c.mode && decide (1 < front.length))
          ((log (m.setChan key noCmd)).modChan key (fun x =>
            let q := qCmd front
            { x with held := x.held ++ [{ opcode := q.opcode, tag := q.tag, status := stInvalid, detail := 0xFFFF, result := [],
                                          seq := 0, ptr := 0, pmode := false, written := false }] }))
      | .doorbell => gate m (!c.dbq.isEmpty) (log (m.setChan key { c with dbq := c.dbq.drop 1, abandoned := true }))
      | .outbound => gate m (!c.outq.isEmpty || !c.notices.isEmpty) (log (m.setChan key { c with outq := [], notices := [], abandoned := true }))

end Sys2Proof.Machine
end

