-- ==== Sys2Proof/Machine/Mci.lean ====
section
/-! DEFINITION. Machine/Mci.lean: how Moon takes, checks and answers a command of Table 13.4 (R329, R332, R334, R342, R345, R505,
R519, R576), and DEV.INFO. -/

namespace Sys2Proof.Machine

/-- Who may send a command (Table 13.4): M the port 0 physical function, P any physical function, F any function. -/
inductive Who where
  | m | p | f
  deriving DecidableEq, Repr

/-- A row of Table 13.4: opcode, sender, parameter fields as (offset, size), and the length of the result. -/
structure MciRow where
  opcode : Nat
  who : Who
  fields : List (Nat × Nat)
  rlen : Nat
  /-- Which of the commands of the opcode the row is, where the table of operations splits it. -/
  pick : Cmd → Bool := fun _ => true
  /-- What happens whenever a command of the row is answered, whatever the answer. -/
  always : Mach → Mach := fun m => m

/-- The length of a command's parameter layout. -/
def MciRow.plen (r : MciRow) : Nat := r.fields.foldl (fun n f => Nat.max n (f.1 + f.2)) 0

/-- What performing a command gives. -/
inductive Ans where
  /-- It completes. -/
  | now (status detail : Nat) (result : List Byte) (m : Mach)
  /-- It completes when what it waits for comes about (R332). -/
  | later (d : Defer) (m : Mach)
  /-- It is not taken yet: a line's transaction or an ATS answer must come first. -/
  | retry (m : Mach)

/-- INVALID at a byte offset, with nothing done (Table 13.3). -/
def invalid (m : Mach) (off : Nat) : Ans := .now stInvalid off [] m

/-- Completion with OK and no result. -/
def ok (m : Mach) : Ans := .now stOk 0 [] m

/-- The offset of the first non-zero byte of the parameters that no field holds. -/
def MciRow.unlisted (r : MciRow) (ps : List Byte) : Option Nat :=
  (List.range (Nat.min r.plen ps.length)).find? (fun i => nth 0 ps i != 0 && r.fields.all (fun f => decide (i < f.1) || decide (f.1 + f.2 ≤ i)))

/-- Framing and padding (R329): malformed framing gives detail 0xFFFF, an unlisted non-zero byte its offset. -/
def MciRow.malformed (r : MciRow) (c : Cmd) : Option Nat :=
  if !c.pmode && (decide (60 < r.plen) || decide (56 < r.rlen)) then some 0xFFFF
  else if c.params.length != (r.plen + 3) / 4 * 4 then some 0xFFFF
  else if !zeroAt c.params r.plen 8 then some 0xFFFF
  else r.unlisted c.params

/-- Commands that the recovery-only state serves (R505). -/
def recoveryServes (op : Nat) : Bool := op == 0x0101 || op == 0x0A01 || op == 0x0A04 || op / 256 == 0x0B || op / 256 == 0x09

/-- Commands that the boot ROM serves (R519). -/
def romServes (op : Nat) : Bool := op == 0x0101 || op == 0x0B01 || op == 0x0B02

/-- Commands that the out-of-service state serves (R576). -/
def outServes (op : Nat) : Bool := op == 0x0101 || op == 0x0901 || op == 0x0903 || op / 256 == 0x0B

/-- Whether the device's state denies a command (R505, R519, R576). -/
def Mach.stateDenies (m : Mach) (op : Nat) : Bool :=
  match m.start.phase with
  | .romOnly => !romServes op
  | .outOfService => !outServes op
  | _ => m.sec.recovery && !recoveryServes op

/-- Whether the sender is one that the command admits (R295, R334). -/
def Who.admits (w : Who) (fn : Fn) : Bool :=
  match w, fn with
  | .f, _ => true
  | .p, .pf _ => true
  | .m, .pf 0 => true
  | _, _ => false

/-- A physical function's command that was in flight when a partition it names began to be reset (R344): it names it in PART, and is not
PART.DESTROY. -/
def Mach.aborted (m : Mach) (fn : Fn) (key : Nat) (c : Cmd) : Bool :=
  (match fn with | .pf _ => true | .vf _ _ => false) && ((c.opcode / 256 == 2 && c.opcode != 0x0202) || c.opcode == 0x0801) &&
    (m.chan key).abort.any (fun a => a.1 == fieldAt c.params 0 1)

/-- Runs a command of Table 13.4: when it is the oldest complete command of its channel, Moon takes it, checks it and performs
it, and holds the answer for posting; else it is not due. -/
def mci (row : MciRow) (fn : Fn) (ch : Nat) (body : Mach → Cmd → Ans) (s : State) : Out :=
  s.run fun m =>
    if !chanOk fn ch then .refused .noSuchUnit
    else
      let key := chanKey fn ch
      if !m.mayTake fn ch then .next m
      else
        match m.peek key with
        | .cmd c m1 =>
          if c.opcode != row.opcode || !row.pick c then .next m
          else if !row.who.admits fn || m.stateDenies row.opcode then .next (row.always ((m1.takeFront key).answer key c stDenied 0 []))
          else if m.aborted fn key c then .next (row.always ((m1.takeFront key).answer key c stAborted 0 []))
          else
            match row.malformed c with
            | some d => .next (row.always ((m1.takeFront key).answer key c stInvalid d []))
            | none =>
              match body m1 c with
              | .now st d r m2 => .next (row.always ((m2.takeFront key).answer key c st d r))
              | .later d m2 => .next ((m2.takeFront key).modChan key (fun x => { x with cur := some (c, d) }))
              | .retry m2 => .next m2
        | .waits m1 => .next m1
        | _ => .next m

/-- A parameter field of a command. -/
def Cmd.f (c : Cmd) (off size : Nat) : Nat := fieldAt c.params off size

/-- The partition that a manager's command names, or the answer where it names none: INVALID at the field for a number outside
1-64 or an absent partition, BUSY while it is resetting (R345). -/
def Mach.named (m : Mach) (p : Nat) (f : Unit → Ans) : Ans :=
  if p = 0 || decide (64 < p) || (m.part p).st == .absent then invalid m 0
  else if (m.part p).st == .resetting then .now stBusy 0 [] m
  else f ()

/-- The VF of a partition is locked under TDISP (R311). -/
def Mach.locked (m : Mach) (p : Nat) : Bool :=
  let t := (m.fnSt (m.vfKey p)).tdisp
  t == .locked || t == .run

/-! DEV.INFO (Table 13.4). -/

/-- Metering is available (R41, R473, R489, R557). -/
def Mach.meterOk (m : Mach) : Bool := m.cres.metering && m.cres.good && m.cres.st == .ready

/-- HBM units that are free and scrubbed (R348). -/
def Mach.freeUnits (m : Mach) : List Nat := (List.range 288).filter (fun u => m.unit u == ⟨.free, false, false⟩)

/-- Clusters that no partition holds (R348). -/
def Mach.freeClusters (m : Mach) : List Nat := (List.range 64).filter (fun c => (m.clu c).owner == 0)

/-- A mask of cluster numbers. -/
def maskOfList (l : List Nat) : Nat := total (l.map (2 ^ ·))

/-- The partitions that exist. -/
def Mach.existing (m : Mach) : List Nat := (List.range 65).filter (fun p => p != 0 && (m.part p).st != .absent)

/-- The sum of a figure over the partitions that exist. -/
def Mach.sumParts (m : Mach) (f : Part → Nat) : Nat := total (m.existing.map (fun p => f (m.part p)))

/-- The payload of DEV.INFO and DEVICE_READY (Table 13.4); the boot ROM knows the stepping and the straps alone (R519). -/
def Mach.devInfo (m : Mach) : List Byte :=
  let rom := m.start.phase == .romOnly
  let flags := (if rom then 0 else m.meterOk.toNat) + 2 * (if rom then 0 else (m.hlink 0).cxl.toNat) + 4 * m.host.bifurc.toNat
    + 8 * m.sec.recovery.toNat + 16 * rom.toNat
  if rom then [0x10, 3] ++ leBytes 2 flags ++ List.replicate 18 0
  else [0x10, 3] ++ leBytes 2 flags ++ leBytes 2 m.start.reserved ++ leBytes 2 m.freeUnits.length ++
    leBytes 8 (maskOfList m.freeClusters) ++ leBytes 2 (512 - m.sumParts (·.granules)) ++ leBytes 2 (2048 - m.sumParts (·.msix)) ++
    leBytes 2 (total ((List.range 64).map m.liveCores))

/-- DEV.INFO (R342). -/
def execDevInfo (fn : Fn) (ch : Nat) (s : State) : Out :=
  mci { opcode := 0x0101, who := .f, fields := [], rlen := 22 } fn ch (fun m _ => .now stOk 0 m.devInfo m) s

end Sys2Proof.Machine
end

