-- ==== Sys2Proof/Machine/Crescent.lean ====
section
/-! DEFINITION. Machine/Crescent.lean: the sealed energy metrology (chapter 18, R556, R557) and the METER commands. -/

namespace Sys2Proof.Machine

/-- Writes an audit-trail record (R480): records of codes 1 and 2 are never overwritten; any other overwrites the oldest of
codes 3-7 once 1,024 are held. -/
def Crescent.addTrail (c : Crescent) (code detail : Nat) : Crescent :=
  let r : TrailRec := { time := c.time, seq := c.live.seq, code := code, events := c.live.events, detail := detail }
  let old := c.live.trail
  if old.length < 1024 then { c with live := { c.live with trail := r :: old } }
  else
    match old.reverse.findIdx? (fun x => x.code != 1 && x.code != 2) with
    | some i => { c with live := { c.live with trail := r :: old.eraseIdx (old.length - 1 - i) } }
    | none => c

/-- The trail can take a record of code 1 or 2 (R480). -/
def Crescent.trailOpen (c : Crescent) : Bool := decide (c.live.trail.length < 1024) || c.live.trail.any (fun x => x.code != 1 && x.code != 2)

/-- A rail of Crescent changes. -/
def Crescent.modRail (c : Crescent) (r : Nat) (f : Rail → Rail) : Crescent := { c with rails := tmod Rail.reset c.rails r f }

/-! Starting and losing standby (R489, R556). -/

/-- VSTBY_CR_RISE (R556): the standby rail reaches tolerance and Crescent starts. -/
def execVstbyCrRise (s : State) : Out :=
  s.run fun m => gate m (!m.pins.vstby)
    ({ m with pins := { m.pins with vstby := true } }.modCres (fun c => { c with st := .starting c.time }))

/-- VSTBY_CR_FALL (R489): Crescent commits its counters, sequence number and trail from on-die hold-up; a commit that fails
leaves the last hourly one.  Code 4 is recorded at the next start. -/
def execVstbyCrFall (committed : Bool) (s : State) : Out :=
  s.run fun m => gate m m.pins.vstby
    ({ m with pins := { m.pins with vstby := false } }.modCres (fun c =>
      { c with st := .absent, good := false, lost := true, nv := if committed then c.live else c.nv,
               failedCommit := c.failedCommit || !committed, ledger := [], sampled := false }))

/-- CRESCENT_START (R473, R479, R489, R556): the counters are restored, standby loss is recorded, the signing engine tests itself, the
24 controllers are approved or not, and sampling starts.  A failed self-test, or an absent or unapproved controller, makes metering
unavailable. -/
def execCrescentStart (boot : CrescentBoot) (s : State) : Out :=
  s.run fun m =>
    match m.cres.st with
    | .starting _ =>
      let refused := (List.range 24).filter (fun r => !nth false boot.controllers r)
      let c := m.cres
      let c := { c with st := .ready, time := 0, live := c.nv, rails := [], closeAt := 0, commitAt := 0, checkAt := 0,
                        good := refused.isEmpty && boot.engineOk, sampled := false, ledger := [], readings := [],
                        owed := if c.failedCommit then (List.range 65).map (fun i => (i, true)) else [],
                        failedCommit := false, lost := false }
      let c := if m.cres.lost then c.addTrail 4 0 else c
      .next { m with cres := refused.foldl (fun c r => c.addTrail 6 r) c }
    | _ => .next m

/-- CRESCENT_HOURLY_COMMIT (R489). -/
def execCrescentHourlyCommit (s : State) : Out :=
  s.run fun m => gate m (m.cres.st == .ready && decide (m.cres.commitAt + 3600 * 1000000 ≤ m.cres.time))
    (m.modCres (fun c => { c with nv := c.live, commitAt := c.time }))

/-- OSCILLATOR_FAULT (R489): code 7, and metering is unavailable until the next start. -/
def execOscillatorFault (s : State) : Out :=
  s.run fun m => gate m (m.cres.st == .ready) (m.modCres (fun c => { c.addTrail 7 0 with good := false }))

/-- CHECKSUM_RECOMPUTE (R479, R489): at every start and every 24 h; a mismatch records code 3 and makes metering unavailable. -/
def execChecksumRecompute (sum : Word) (s : State) : Out :=
  s.run fun m => gate m (m.cres.st == .ready && (m.cres.time == 0 || decide (m.cres.checkAt + 86400 * 1000000 ≤ m.cres.time)))
    (m.modCres (fun c =>
      let c := { c with checkAt := c.time }
      if sum == c.checksum then c else { c.addTrail 3 sum.toNat with good := false }))

/-- METROLOGY_CHANGE_PACKAGE (R471, R480): a package whose signature verifies changes the firmware, increments the event counter
and is recorded; one that fails is rejected and recorded; a full trail rejects it without a record. -/
def execMetrologyChangePackage (pkg : List Byte) (s : State) : Out :=
  s.run fun m => gate m (m.cres.st == .ready && m.cres.trailOpen)
    (m.modCres (fun c =>
      if Config.metrologyVerifies pkg then
        { c with live := { c.live with events := c.live.events + 1 }, fwId := (Config.metrologyIdent pkg).1,
                 checksum := (Config.metrologyIdent pkg).2 }.addTrail 1 0
      else c.addTrail 2 0))

/-! Sampling (R474, R475, R488). -/

/-- One rail's read at Crescent time `t`: the energy is the difference of two reads modulo 2^32 in units of 10 uJ; a gap long
enough for the accumulator to wrap at the last power loses the energy (R488). -/
def Rail.read (x : Rail) (t : Nat) (w : Nat) : Rail :=
  let gap := t - x.validAt
  let diff := (w + 2 ^ 32 - (x.last - 1)) % 2 ^ 32
  let x' := { x with last := w + 1, validAt := t, sample := x.sample + 1, stale := false }
  if x.last = 0 then x'
  else if 2 ^ 32 * 10000 ≤ x.power * gap then x'
  else { x' with energy := x.energy + diff * 10000, power := if gap = 0 then x.power else diff * 10000 / gap }

/-- The METER mirror's registers as Crescent's read-out port gives them (R475). -/
def Crescent.mirrored (c : Crescent) : Crescent :=
  { c with
    mirror := (List.range 24).foldl (fun t r =>
      let x := tget Rail.reset c.rails r
      tput (⟨0, 0, false⟩ : MeterRail) t r { power := x.power % 2 ^ 32, sample := x.sample, stale := x.stale }) [],
    mirrorInterval := BitVec.ofNat 32 c.live.interval, mirrorEvents := BitVec.ofNat 32 c.live.events }

/-- X0 hardware copies the read-out port into the METER mirror (R475), where X0 has power and is not held in reset. -/
def Mach.copyMirror (m : Mach) : Mach := if m.start.phase == .held then m else m.modCres (·.mirrored)

/-- A rail's energy is lost by this read (R488). -/
def Rail.loses (x : Rail) (t : Nat) : Bool := x.last != 0 && decide (2 ^ 32 * 10000 ≤ x.power * (t - x.validAt))

/-- CRESCENT_SAMPLE (R474, R475): every accumulator is read once per 100 us of Crescent's clock and the mirror is refreshed. -/
def execCrescentSample (reads : List (Option Word)) (s : State) : Out :=
  s.run fun m => gate m (m.cres.st == .ready)
    ((m.modCres (fun c =>
      let t := c.time + 100
      let c := (List.range 24).foldl (fun (c : Crescent) r =>
        match nth none reads r with
        | some w =>
          let lost := (tget Rail.reset c.rails r).loses t
          let c := c.modRail r (fun x => x.read t w.toNat)
          if lost then { c with owed := (List.range 65).map (fun i => (i, true)) } else c
        | none => c) c
      { c with time := t, sampled := true, mirrorAt := if m.start.phase == .held then c.mirrorAt else m.now })).copyMirror)

/-- RAIL_STALE (R488): no valid read for 1 ms; the first time per rail since Crescent started records code 5. -/
def execRailStale (rail : Nat) (s : State) : Out :=
  s.run fun m =>
    if 24 ≤ rail then .refused .noSuchUnit
    else
      let x := m.rail rail
      gate m (m.cres.st == .ready && !x.stale && decide (x.validAt + 1000 ≤ m.cres.time))
        ((m.modCres (fun c =>
          let c := if x.logged then c else c.addTrail 5 rail
          c.modRail rail (fun x => { x with stale := true, logged := true, faulted := true }))).copyMirror)

/-! Ledgers and intervals (R476 to R478, R481, R485, R487). -/

/-- X0 ends a ledger interval and sends its record (R476); one that fails its CRC on the activity link is missing to Crescent. -/
def Mach.sendLedger (m : Mach) : Mach :=
  let owners := (List.range 64).map (fun c =>
    let p := (m.clu c).owner
    (p, if p = 0 then 0 else (m.part p).gen, tget 0 m.cres.engine c))
  let l : Ledger := { number := m.cres.ledgerNo, start := m.cres.ledgerAt, stop := m.now, droops := m.power.droops.take 64, owners := owners }
  let m := m.modCres (fun c =>
    let got := c.st == .ready && Config.ledgerIntact c.ledgerNo
    { c with ledger := if got then c.ledger ++ [l] else c.ledger, ledgerNo := c.ledgerNo + 1, ledgerAt := m.now,
             engine := [], sampled := if got && c.ledger.isEmpty then false else c.sampled })
  m.modPower (fun p => { p with droops := [] })

/-- LEDGER_RECORD (R476, R557): at each 10 ms Tide boundary after DEVICE_READY. -/
def execLedgerRecord (s : State) : Out :=
  s.run fun m => gate m (m.start.phase == .ready && m.now % (10 * ms) == 0 && decide (m.cres.ledgerAt < m.now)) m.sendLedger

/-- The clusters of rail `r`'s domain (Table 18.1). -/
def railDomain (r : Nat) : List Nat :=
  if r < 8 then (List.range 8).map (8 * r + ·)
  else if r < 20 then (List.range 16).map (16 * ((r - 8) % 4) + ·)
  else List.range 64

/-- A partition's share of one rail's energy, and the remainder (R478). -/
def Ledger.attribute (l : Ledger) (r e : Nat) : List (Nat × Nat) × Nat :=
  let dom := (railDomain r).map (fun c => nth (0, 0, 0) l.owners c)
  let dt := l.stop - l.start
  let parts := ((dom.map (·.1)).eraseDups.filter (· != 0))
  let own := fun p => dom.filter (fun o => o.1 == p)
  let t := fun p => if r < 12 then total ((own p).map (fun o => o.2.2)) else 0
  let a := fun p => if dt = 0 then 0 else e * t p / (dom.length * dt)
  let i := e - total (parts.map a)
  let n := (dom.filter (fun o => o.1 != 0)).length
  let sh := fun p => if n = 0 then 0 else i * (own p).length / n
  (parts.map (fun p => (p, a p + sh p)), i - total (parts.map sh))

/-- The energy of each rail in the interval. -/
def Crescent.energies (c : Crescent) : List (Nat × Nat) := (List.range 24).map (fun r => (r, (tget Rail.reset c.rails r).energy))

/-- Per partition, the energy that a ledger gives it over all rails, and the unattributed energy (R478). -/
def Crescent.shares (c : Crescent) (l : Ledger) : Tbl Nat × Nat :=
  c.energies.foldl (fun acc re =>
    let x := l.attribute re.1 re.2
    (x.1.foldl (fun t pe => tmod 0 t pe.1 (· + pe.2)) acc.1, acc.2 + x.2)) ([], 0)

/-- A new owner generation sets the partition's cumulative energy to zero first (R478). -/
def CrescentNv.renew (v : CrescentNv) (p gen : Nat) : CrescentNv :=
  if tget 0 v.gens p = gen then v
  else { v with gens := tput 0 v.gens p gen, cum := tput 0 v.cum p 0, marks := tput 0 v.marks p 0,
                genStart := tput 0 v.genStart p (v.interval + 1) }

/-- Forms and signs a reading for the device (0) and every partition with a generation (R481, R482). -/
def Crescent.formReadings (c : Crescent) (tide : Nat) (last : Tbl Nat) (sum : Nat) (marked : Nat → Bool) (missing : Bool) : Crescent :=
  let fault := (List.range 24).any (fun r => let x := tget Rail.reset c.rails r; x.stale || x.faulted)
  (0 :: tkeys c.live.gens).foldl (fun (c : Crescent) p =>
    let v := c.live
    let flags := (marked p).toNat + 2 * missing.toNat + 4 * fault.toNat + 8 * (tget false c.owed p).toNat
    let r : Reading := { part := p, seq := v.seq, interval := v.interval, tide := tide, time := c.time,
                         cum := (if p = 0 then v.total else tget 0 v.cum p) / 1000,
                         last := (if p = 0 then sum else tget 0 last p) / 1000,
                         unattributed := if p = 0 then v.unattributed / 1000 else 0,
                         marks := tget 0 v.marks p, flags := flags, genStart := if p = 0 then 0 else tget 0 v.genStart p,
                         checksum := c.checksum, events := BitVec.ofNat 32 v.events |>.toNat }
    { c with live := { v with seq := v.seq + 1 }, readings := tins c.readings p r, owed := tput false c.owed p false }) c

/-- The bookkeeping of a close: a new interval begins. -/
def Crescent.nextInterval (c : Crescent) : Crescent :=
  { c with rails := tmap c.rails (fun x => { x with energy := 0, faulted := false }), closeAt := c.time,
           sampled := false }

/-- Closes an interval with a ledger (R477, R478, R485). -/
def Crescent.close (c : Crescent) (l : Ledger) : Crescent :=
  let sum := total (c.energies.map (·.2))
  let v := l.owners.foldl (fun (v : CrescentNv) o => if o.1 = 0 then v else v.renew o.1 o.2.1) c.live
  let sh := c.shares l
  let halves := l.droops.map (·.1)
  let hit := fun p => if p = 0 then !l.droops.isEmpty
    else (List.range 64).any (fun i => (nth (0, 0, 0) l.owners i).1 == p && halves.contains (halfOfCluster i))
  let v := { v with cum := sh.1.foldl (fun t pe => tmod 0 t pe.1 (· + pe.2)) v.cum, unattributed := v.unattributed + sh.2,
                    total := v.total + sum, interval := v.interval + 1,
                    marks := (0 :: tkeys v.gens).foldl (fun t p => if hit p then tmod 0 t p (· + 1) else t) v.marks }
  ({ c with live := v, ledger := c.ledger.drop 1 }.formReadings l.stop sh.1 sum hit false).nextInterval

/-- ENERGY_METERED equals the cumulative energy of the partition's latest reading (R481), where Moon has decided that metering is
available; else it stays (R41, R473, R557). -/
def Mach.copyMetered (m : Mach) : Mach :=
  if !m.cres.metering then m
  else m.existing.foldl (fun m p =>
    match tfind m.cres.readings p with
    | some r =>
      if tget 0 m.cres.live.gens p = (m.part p).gen then m.modPart p (fun q => { q with acct := tput 0 q.acct 9 r.cum }) else m
    | none => m) m

/-- INTERVAL_CLOSE (R477): at the first sample after a valid ledger record has arrived. -/
def execIntervalClose (s : State) : Out :=
  s.run fun m =>
    match m.cres.ledger with
    | l :: _ => gate m (m.cres.st == .ready && m.cres.good && m.cres.sampled) ((m.modCres (·.close l)).copyMirror.copyMetered)
    | [] => .next m

/-- LEDGER_MISSING (R487): no valid ledger within 12 ms of Crescent time; the interval closes on Crescent's clock and its whole
energy is unattributed.  The Tide at its end is not known to Crescent: a free value (log 1). -/
def execLedgerMissing (s : State) : Out :=
  s.run fun m =>
    gate m (m.cres.st == .ready && m.cres.good && m.cres.ledger.isEmpty && decide (m.cres.closeAt + 12000 ≤ m.cres.time))
      ((m.bumpFree.modCres (fun c =>
        let sum := total (c.energies.map (·.2))
        let v := { c.live with unattributed := c.live.unattributed + sum, total := c.live.total + sum, interval := c.live.interval + 1 }
        ({ c with live := v }.formReadings (Config.choice m.free) [] sum (fun _ => false) true).nextInterval)).copyMirror.copyMetered)

/-! The METER mirror and commands (R475, R479 to R482). -/

/-- METER_RAIL[r] of the mirror. -/
def Crescent.railMirror (c : Crescent) (r : Nat) : MeterRail := tget ⟨0, 0, false⟩ c.mirror r

/-- METER_RAIL[r] as it reads (R475). -/
def Mach.meterRail (m : Mach) (r : Nat) : Nat :=
  let x := m.cres.railMirror r
  x.power % 2 ^ 32 + 2 ^ 32 * x.sample.toNat + 2 ^ 62 * x.stale.toNat + 2 ^ 63 * m.meterOk.toNat

/-- METER_STATUS as it reads (R475). -/
def Mach.meterStatus (m : Mach) : Nat := m.cres.mirrorInterval.toNat + 2 ^ 32 * m.cres.mirrorEvents.toNat

/-- Bytes 0-127 of a reading (Table 18.3). -/
def Mach.readingBody (m : Mach) (r : Reading) : List Byte :=
  leBytes 4 0x314D5243 ++ leBytes 2 0x0100 ++ leBytes 1 (if r.part = 0 then 0 else 1) ++ leBytes 1 r.part ++ leBytes 8 r.seq ++
    leBytes 8 m.cres.fwId.toNat ++ leBytes 4 r.checksum.toNat ++ leBytes 4 r.events ++ leBytes 8 r.interval ++ leBytes 8 r.tide ++
    leBytes 8 r.time ++ leBytes 8 r.cum ++ leBytes 8 r.last ++ leBytes 8 r.unattributed ++ leBytes 4 r.marks ++ leBytes 4 r.flags ++
    leBytes 8 r.genStart ++ leBytes 16 m.sec.serial.toNat ++ List.replicate 16 0

/-- A signed reading of 224 bytes (R482). -/
def Mach.readingBytes (m : Mach) (r : Reading) : List Byte :=
  let b := m.readingBody r
  b ++ (Config.sign 96 (sha384 b) ++ List.replicate 96 0).take 96

/-- A copy of `b` to BUF of LEN bytes, with its length as the result; FULL where LEN is too small. -/
def Mach.copyOut (m : Mach) (fn : Fn) (b : List Byte) (buf len off : Nat) : Ans :=
  if len < b.length then .now stFull 0 [] m
  else
    match m.vwrite (spaceOf fn) buf b with
    | .ok m => .now stOk 0 (leBytes 4 b.length) m
    | .waits m => .retry m
    | .fault => invalid m off

/-- METER_READ (R481, R482): the latest signed reading of a partition or the device, or the certificate chain for PART 0xFF. -/
def execMeterRead (fn : Fn) (ch : Nat) (s : State) : Out :=
  mci { opcode := 0x0801, who := .f, fields := [(0, 1), (8, 8), (16, 8)], rlen := 4 } fn ch (fun m c =>
    if !m.meterOk then .now stNoResource 7 [] m
    else
      let p := match fn with | .vf _ p => p | .pf _ => c.f 0 1
      if p != 0 && (m.part p).st == .resetting && p ≤ 64 then .now stBusy 0 [] m
      else if p = 0xFF then
        if c.f 16 8 < 224 then .now stFull 0 [] m else m.copyOut fn (Config.certificate (2 + m.cres.checksum.toNat)) (c.f 8 8) (c.f 16 8) 8
      else
        match tfind m.cres.readings p with
        | some r => m.copyOut fn (m.readingBytes r) (c.f 8 8) (c.f 16 8) 8
        | none => invalid m 0) s

/-- The bytes of an audit-trail record (R480). -/
def TrailRec.bytes (r : TrailRec) : List Byte :=
  leBytes 8 r.time ++ leBytes 8 r.seq ++ leBytes 2 r.code ++ leBytes 2 0 ++ leBytes 4 r.events ++ leBytes 8 r.detail

/-- METER.AUDIT's result (R482): the header "CRA1", the event counter and the record count, the records from the oldest on, and
the signature over both (field places in the header: log 14). -/
def Mach.auditBytes (m : Mach) : List Byte :=
  let t := m.cres.live.trail
  let b := leBytes 4 0x31415243 ++ leBytes 4 m.cres.live.events ++ leBytes 4 t.length ++ List.replicate 20 0 ++ t.reverse.flatMap TrailRec.bytes
  b ++ (Config.sign 96 (sha384 b) ++ List.replicate 96 0).take 96

/-- METER_AUDIT (R480, R482). -/
def execMeterAudit (fn : Fn) (ch : Nat) (s : State) : Out :=
  mci { opcode := 0x0802, who := .m, fields := [(0, 8), (8, 8)], rlen := 4 } fn ch (fun m c =>
    if !m.meterOk then .now stNoResource 7 [] m else m.copyOut fn m.auditBytes (c.f 0 8) (c.f 8 8) 0) s

/-- METER_IDENT (R479): firmware identifier, checksum and event counter. -/
def execMeterIdent (fn : Fn) (ch : Nat) (s : State) : Out :=
  mci { opcode := 0x0803, who := .p, fields := [], rlen := 16 } fn ch (fun m _ =>
    if !m.meterOk then .now stNoResource 7 [] m
    else .now stOk 0 (leBytes 8 m.cres.fwId.toNat ++ leBytes 4 m.cres.checksum.toNat ++ leBytes 4 m.cres.live.events) m) s

end Sys2Proof.Machine
end

