-- ==== Sys2Proof/Machine/Fatal.lean ====
section
/-! DEFINITION. Machine/Fatal.lean: device-level fatal errors and failed starts (R22, R529, R544, R566, R576). -/

namespace Sys2Proof.Machine

/-- Detail byte 44 of a fatal record (Table 20.6). -/
def fatalCode : FatalCause → Nat
  | .dieBridge => 1
  | .fabric => 2
  | .tide => 3
  | .droop => 4
  | .restart => 5
  | .flrTimeout => 6
  | .array => 7
  | .thermal => 8
  | .other => 9

/-- The functions that exist: the physical functions of the upstream links and the VFs of partitions. -/
def Mach.functions (m : Mach) : List Nat :=
  (if m.host.bifurc then [0, 2, 3] else [0, 1]) ++ m.existing.map m.vfKey

/-- Writes a fatal record at once: the 16 newest are kept in flash, the header goes to the device ring, and the pending bit of
severity 3 follows the mask (R544, R553, R584). -/
def Mach.fatalRecord (m : Mach) (cause : FatalCause) : Mach :=
  let r := { RasRec.mk0 0x40 3 0 0 m.now with detail := leBytes 20 (fatalCode cause) }
  m.modRas (fun s => { s.log r with fatals := (({ r with seq := s.next }) :: s.fatals).take 16 })

/-- A warm reset becomes due `delay` after now; one that is due is merged with (R566).  None follows while THERMTRIP_N is latched
(R40, R464) or in the out-of-service state (R576). -/
def Mach.scheduleWarm (m : Mach) (delay : Nat) : Mach :=
  if m.start.warmAt != 0 || !m.pins.thermtrip || m.start.phase == .outOfService || m.start.phase == .held then m else m.modStart (fun x => { x with warmAt := m.now + delay + 1 })

/-- A device-level fatal error (R566 step 1): the record, AER Uncorrectable Internal Error on every function, and a warm reset
10 ms later. DEDUCED: log 52. -/
def Mach.fatal (m : Mach) (cause : FatalCause) : Mach :=
  let m := m.fatalRecord cause
  let m := m.functions.foldl (fun m f => m.logAer f 3) m
  m.scheduleWarm (10 * ms)

end Sys2Proof.Machine
end

