-- ==== Sys2Proof/Machine/Pages.lean ====
section
/-! DEFINITION. Machine/Pages.lean: MEM.MAP, MEM.UNMAP, MEM.PROTECT, MEM.FLUSH, MEM.HOSTPOOL, shoot-downs, ATS and the unit
scrubber (R220, R221, R223, R224, R229, R258, R302, R362, R381, R430, R543, R591). -/

namespace Sys2Proof.Machine

/-- The page size of a range. -/
def MapRange.page (r : MapRange) : Nat := if r.large then 2 ^ 21 else 65536

/-- Ranges of a space that target host memory or a link window: its allowance holds 4,096 (R591). -/
def tableRanges (maps : List MapRange) : Nat := maps.countP (fun r => r.target != 0)

/-- A range cut to the part in `[va, va+len)`. -/
def MapRange.cut (r : MapRange) (va len : Nat) : MapRange :=
  let lo := Nat.max r.va va
  let hi := Nat.min (r.va + r.len) (va + len)
  { r with va := lo, len := hi - lo,
           tgt := if r.target = 2 then (r.tgt + (lo - r.va) / 2 ^ 21 * 2 ^ 25) else r.tgt + (lo - r.va) }

/-- The pieces of a range before, in and after `[va, va+len)`, the empty ones left out. -/
def MapRange.split (r : MapRange) (va len : Nat) : List MapRange :=
  [r.cut 0 va, r.cut va len, r.cut (va + len) (2 ^ 64)].filter (fun x => x.len != 0 && decide (x.va < r.va + r.len))

/-- The mappings with `[va, va+len)` cut out into ranges of its own, changed by `f` and kept where `f` answers a range. -/
def editMaps (maps : List MapRange) (va len : Nat) (f : MapRange → Option MapRange) : List MapRange :=
  maps.flatMap (fun r =>
    if overlap r.va r.len va len then
      (r.split va len).filterMap (fun x => if overlap x.va x.len va len then f x else some x)
    else [r])

/-- The number of bytes of `[va, va+len)` that live mappings other than apertures hold. -/
def mappedBytes (maps : List MapRange) (va len : Nat) : Nat :=
  total (maps.map (fun r => if r.aperture = 0 && !r.stopped && overlap r.va r.len va len then (r.cut va len).len else 0))

/-- Some large page of the mappings lies partly in and partly outside `[va, va+len)`. -/
def splitsLarge (maps : List MapRange) (va len : Nat) : Bool :=
  maps.any (fun r => r.large && overlap r.va r.len va len &&
    ((decide (r.va < va) && va % 2 ^ 21 != 0) || (decide (va + len < r.va + r.len) && (va + len) % 2 ^ 21 != 0)))

/-- The operations in flight that used pages of a virtual range of a space (R224, step 2). -/
def Mach.opsUsing (m : Mach) (space va len : Nat) : List Nat :=
  (m.ops.filter (fun o => o.part == space && o.space != .localMem &&
    o.lanes.any (fun l => !l.done && decide (va ≤ l.addr) && decide (l.addr < va + len)))).map (·.id)

/-- The HBM pages, as (first line, lines), of the ranges of a space that overlap `[va, va+len)`. -/
def Mach.hbmRanges (m : Mach) (space va len : Nat) : List (Nat × Nat) :=
  ((m.part space).maps.filter (fun r => r.target == 0 && overlap r.va r.len va len)).flatMap (fun r =>
    let c := r.cut va len
    let p := if r.aperture = 0 then space else r.aperture - 1
    (pieces c.tgt c.len).filterMap (fun o => (m.allotPa p o.1).map (fun pa => (pa / 64, o.2 / 64))))

/-- A line lies in one of the page ranges. -/
def inRanges (l : List (Nat × Nat)) (line : Nat) : Bool := l.any (fun r => decide (r.1 ≤ line) && decide (line < r.1 + r.2))

/-- Invalidates what prefetches and read-aheads (RLC, line) filled: the RLC's copy leaves as an eviction does, and a clean copy goes from the
slice (R224, step 5; R255). -/
def Mach.dropFetched (m : Mach) (l : List (Nat × Nat)) : Mach :=
  l.foldl (fun m e =>
    let m := match m.rlcLine e.1 e.2 with | some x => m.rlcEvict e.1 e.2 x | none => m
    match tfind m.mem.llc e.2 with
    | some x => if x.dirty then m else m.sliceEvict e.2 x
    | none => m) m

/-- The prefetches and read-aheads of a partition in flight over lines. -/
def Mach.fetchesOf (m : Mach) (p : Nat) (inside : Nat → Bool) : List (Nat × Nat) :=
  (m.mem.reqs.filter (fun r => r.kind == .rds true && r.part == p && inside r.line)).map (fun r => (r.rlc, r.line))

/-- Forgets the translation-cache entries of the host pages of ranges (R224, step 3). -/
def Mach.dropAtc (m : Mach) (space : Nat) (rs : List MapRange) : Mach :=
  let die := m.atcDie space
  let keep := fun (k : Nat) => !(rs.any (fun r => r.target == 1 && k / 2 ^ 50 == 2 ^ 10 * die + space &&
    decide (r.tgt / 65536 ≤ k % 2 ^ 50) && decide (k % 2 ^ 50 * 65536 < r.tgt + r.len)))
  m.modMem (fun a => { a with atc := a.atc.filter (fun e => keep e.1) })

/-- Invalidates the TLB entries of a partition's pages (R222, R224). -/
def Mach.dropTlbs (m : Mach) (p va len : Nat) : Mach :=
  let out := fun page => decide (page * 65536 + 65536 ≤ va) || decide (va + len ≤ page * 65536)
  let m := (m.coresOf p).foldl (fun m i => m.modCore i (fun c => { c with tlb := c.tlb.filter out })) m
  (m.clustersOf p).foldl (fun m c => m.modClu c (fun x => { x with tlb := x.tlb.filter (fun e => e.1 != p || out e.2) })) m

/-- Drops the fetches that prefetch or read-ahead still had to issue in the ranges. -/
def Mach.dropTodo (m : Mach) (p : Nat) (inside : Nat → Bool) : Mach :=
  m.modMem (fun a => { a with raTodo := a.raTodo.filter (fun t => t.part != p || !inside t.line) })

/-! MEM.MAP (R220, R221, R258, R430, R543, R591). -/

/-- Every line of the physical pages is recalled at its home, where the ordering attribute changes (R258): it waits for what concerns one
of them, and for the host to give up those that it holds. -/
def Mach.recallPages (m : Mach) (pages : List Nat) : Perf Unit :=
  let inside := fun line => pages.contains (line / 1024)
  let held := (tkeys m.mem.dir).filter inside
  if m.mem.txns.any (fun t => inside t.req.line) || m.mem.msgs.any (fun c => inside c.line) || m.mem.homeQ.any (fun q => inside q.line) then .waits m
  else
    match held.find? (fun l => m.hostHolds l) with
    | some l => .waits (m.askHost l true)
    | none => .done () (held.foldl (fun m line => m.takeBack line 0) m)

/-- The recalled pages carry an ordering attribute (R221, R258). -/
def Mach.setOrd (m : Mach) (pages : List Nat) (own : Bool) : Mach :=
  m.modMem (fun a => { a with pageOrd := pages.foldl (fun t g => tput false t g own) a.pageOrd })

/-- The physical pages of allotment range `[off, off+len)` of a space. -/
def Mach.allotPages (m : Mach) (space off len : Nat) : List Nat :=
  (List.range (len / 65536)).filterMap (fun i => (m.allotPa space (off + 65536 * i)).map (· / 65536))

/-- The first fault of a MEM.MAP's fields as offset of INVALID (Table 13.4, R220, R430). -/
def Mach.mapInvalid (m : Mach) (space va tgt size attr : Nat) : Option Nat :=
  let t := attr % 4
  let ps := if attr / 32 % 2 = 1 then 2 ^ 21 else 65536
  let maps := (m.part space).maps
  if va % ps != 0 || decide (2 ^ 52 ≤ va) then some 0
  else if (t != 2 && tgt % ps != 0) || (t == 0 && decide ((m.unitsOf space).length * 2 ^ 30 ≤ tgt)) then some 8
  else if t == 2 && (decide (2 ^ 58 ≤ tgt) || decide (1 < (winMulticast tgt).toNat + (winMailbox tgt).toNat + (winEvent tgt).toNat)) then some 8
  else if size = 0 || size % ps != 0 || decide (2 ^ 52 < va + size) then some 16
  else if t == 0 && decide ((m.unitsOf space).length * 2 ^ 30 < tgt + size) then some 16
  else if decide (64 ≤ attr) || t == 3 || attr / 4 % 4 == 3 || (attr / 16 % 2 == 1 && t != 0) || (t == 2 && attr / 32 % 2 == 0) then some 24
  else if maps.any (fun r => overlap r.va r.len va size) then some 0
  else if t == 0 && (maps.any (fun r => r.target == 0 && r.aperture == 0 && overlap r.tgt r.len tgt size && r.ownerOrd != (attr / 16 % 2 == 1))
      || (attr / 16 % 2 == 1 && m.parts.any (fun e => e.2.maps.any (fun r => r.aperture == space + 1)))) then some 24
  else if t == 0 && (List.range (size / 65536)).any (fun i =>
      match m.allotPa space (tgt + 65536 * i) with
      | some pa => m.mem.retired.contains (pa / 65536) || (m.unit (pa / 2 ^ 30)).failed
      | none => true) then some 8
  else none

/-- MEM.MAP. -/
def memMap (fn : Fn) (m : Mach) (c : Cmd) : Ans :=
  let space := spaceOf fn
  let va := c.f 0 8
  let tgt := c.f 8 8
  let size := c.f 16 8
  let attr := c.f 24 4
  match m.mapInvalid space va tgt size attr with
  | some off => invalid m off
  | none =>
    let r : MapRange := { va := va, len := size, target := attr % 4, tgt := tgt, access := attr / 4 % 4,
                          ownerOrd := attr / 16 % 2 == 1, large := attr / 32 % 2 == 1, stopped := false, aperture := 0 }
    let add := fun (m : Mach) => m.modPart space (fun q => { q with maps := q.maps ++ [r] })
    if r.target = 0 then
      let pages := m.allotPages space tgt size
      if pages.any (fun g => (m.unit (g / 16384)).scrub) then .now stBusy 0 [] m
      else
        match m.recallPages (pages.filter (fun g => tget false m.mem.pageOrd g != r.ownerOrd)) with
        | .done _ m => ok (add (m.setOrd pages r.ownerOrd))
        | .waits m => .retry m
    else if 4096 ≤ tableRanges (m.part space).maps then .now stNoResource 6 [] m
    else ok (add m)

/-- MEM_MAP. -/
def execMemMap (fn : Fn) (ch : Nat) (s : State) : Out :=
  mci { opcode := 0x0301, who := .f, fields := [(0, 8), (8, 8), (16, 8), (24, 4)], rlen := 0 } fn ch (memMap fn) s

/-! Shoot-downs (R224). -/

/-- Starts a shoot-down of `[va, va+len)` of a space: translation stops. -/
def Mach.startShoot (m : Mach) (space va len : Nat) (kind : ShootKind) : Nat × Mach :=
  let id := m.nextId
  let waits := m.opsUsing space va len
  let rs := m.hbmRanges space va len
  let m := m.bumpId.modPart space (fun q => { q with maps := editMaps q.maps va len (fun r => some { r with stopped := true }) })
  let m := m.dropTodo space (inRanges rs)
  let fetches := m.fetchesOf space (inRanges rs)
  (id, m.modMem (fun a =>
    { a with shoots := a.shoots ++ [{ id := id, space := space, va := va, len := len, kind := kind, waits := waits, fetches := fetches }] }))

/-- The first fault of a MEM.UNMAP or MEM.PROTECT as an offset of INVALID (Table 13.4). -/
def Mach.rangeInvalid (m : Mach) (space va size : Nat) : Option Nat :=
  let maps := (m.part space).maps
  if va % 65536 != 0 || decide (2 ^ 52 ≤ va) then some 0
  else if size = 0 || size % 65536 != 0 || decide (2 ^ 52 < va + size) then some 8
  else if mappedBytes maps va size != size || splitsLarge maps va size then some 0
  else none

/-- MEM.UNMAP and MEM.PROTECT once their own fields are checked: the split of a host or link range needs room (R591). -/
def Mach.shootRange (m : Mach) (space va size : Nat) (gone : Bool) (kind : ShootKind) : Ans :=
  match m.rangeInvalid space va size with
  | some off => invalid m off
  | none =>
    let after := editMaps (m.part space).maps va size (fun r => if gone then none else some r)
    if 4096 < tableRanges after then .now stNoResource 6 [] m
    else
      let r := m.startShoot space va size kind
      .later (.shoot r.1) r.2

/-- MEM_UNMAP. -/
def execMemUnmap (fn : Fn) (ch : Nat) (s : State) : Out :=
  mci { opcode := 0x0302, who := .f, fields := [(0, 8), (8, 8)], rlen := 0 } fn ch
    (fun m c => m.shootRange (spaceOf fn) (c.f 0 8) (c.f 8 8) true (.unmap fn ch)) s

/-- MEM_PROTECT. -/
def execMemProtect (fn : Fn) (ch : Nat) (s : State) : Out :=
  mci { opcode := 0x0303, who := .f, fields := [(0, 8), (8, 8), (16, 4)], rlen := 0 } fn ch
    (fun m c =>
      if 2 < c.f 16 4 then invalid m 16
      else m.shootRange (spaceOf fn) (c.f 0 8) (c.f 8 8) false (.protect fn ch (c.f 16 4))) s

/-- The steps of a shoot-down after its wait (R224, steps 3 to 6). -/
def Mach.finishShoot (m : Mach) (sd : Shoot) : Mach :=
  let inside := fun (r : MapRange) => overlap r.va r.len sd.va sd.len
  let p := spacePart sd.space
  let m := m.dropAtc sd.space (((m.part sd.space).maps.filter inside).map (·.cut sd.va sd.len))
  let m := if p = 0 then m else ((m.dropTlbs p sd.va sd.len).dropL1s p).dropFetched sd.fetches
  let edit := fun (f : MapRange → Option MapRange) => m.modPart sd.space (fun q => { q with maps := editMaps q.maps sd.va sd.len f })
  let m := match sd.kind with
    | .protect _ _ a => edit (fun r => some { r with stopped := false, access := a })
    | _ => edit (fun _ => none)
  let m := m.modMem (fun a => { a with shoots := a.shoots.filter (fun x => x.id != sd.id) })
  (m.answerAll (fun d => d == .shoot sd.id) stOk 0 []).retireFreed

/-- SHOOT_DOWN (R224): the accesses, prefetches and read-aheads in flight over the pages have been performed. -/
def execShootDown (sd : Nat) (s : State) : Out :=
  s.run fun m =>
    match m.mem.shoots.find? (fun x => x.id == sd) with
    | none => .next m
    | some x =>
      gate m (x.waits.all (fun i => m.ops.all (fun o => o.id != i || o.lanes.all (·.done))) &&
          x.fetches.all (fun e => m.mem.reqs.all (fun r => r.rlc != e.1 || r.line != e.2 || r.kind != .rds true)))
        (m.finishShoot x)

/-! MEM.FLUSH, MEM.HOSTPOOL. -/

/-- MEM_FLUSH (R229): the range must be mapped; every line of it is written to HBM. -/
def execMemFlush (fn : Fn) (ch : Nat) (s : State) : Out :=
  mci { opcode := 0x0304, who := .f, fields := [(0, 8), (8, 8)], rlen := 0 } fn ch
    (fun m c =>
      let va := c.f 0 8
      let n := c.f 8 8
      if 2 ^ 52 ≤ va then invalid m 0
      else if 2 ^ 52 < va + n then invalid m 8
      else if !m.mappedFor (spaceOf fn) .read va n then invalid m 0
      else
        match m.vflush (spaceOf fn) va n .read with
        | .ok m => ok m
        | .waits m => .retry m
        | .fault => invalid m 0) s

/-- The units of the host pool, in the order of the pool's offsets (R302). -/
def Mach.poolUnits (m : Mach) : List Nat := (tkeys m.mem.units).filter (fun u => (m.unit u).use == .hostPool)

/-- A committed decoder covers pool offsets at or above `from_`. -/
def HdmDecoder.covers (d : HdmDecoder) (from_ : Nat) : Bool := d.committed && decide (from_ < d.pool + d.size)

/-- MEM_HOSTPOOL (R302): the pool grows by the lowest free units that leave the offsets of its units as they are, and shrinks
from its end; units that leave it are scrubbed (DESIGN CHOICE, log 16). -/
def execMemHostpool (fn : Fn) (ch : Nat) (s : State) : Out :=
  mci { opcode := 0x0305, who := .m, fields := [(0, 2)], rlen := 0 } fn ch
    (fun m c =>
      let want := c.f 0 2
      let have_ := m.poolUnits
      let top := have_.foldl Nat.max 0
      let free := m.freeUnits
      let later := free.filter (fun u => have_.isEmpty || decide (top < u))
      let set := fun (m : Mach) us (x : HbmUnit) => us.foldl (fun m u => m.setUnit u x) m
      let busyFrom := fun n => m.host.hdm0.covers (n * 2 ^ 30) || m.host.hdm1.covers (n * 2 ^ 30)
      let done := fun (m : Mach) => ok (m.modHost (fun h => { h with pool := want }))
      if have_.length ≤ want then
        let need := want - have_.length
        if need ≤ later.length then done (set m (later.take need) ⟨.hostPool, false, false⟩)
        else if free.length < need then .now stNoResource 2 [] m
        else if busyFrom 0 then .now stBusy 0 [] m
        else done (set m (free.take need) ⟨.hostPool, false, false⟩)
      else if busyFrom want then .now stBusy 0 [] m
      else done (set m (have_.drop want) ⟨.free, true, false⟩)) s

/-! ATS (R223). -/

/-- Keeps a translation for a function in an I/O die's cache of 8,192 entries; a full cache gives up its first entry. -/
def Mach.atcFill (m : Mach) (die space page v : Nat) : Mach :=
  let of := (tkeys m.mem.atc).filter (fun k => k / 2 ^ 60 == die)
  let atc := if of.length < 8192 || of.contains (atcKey die space page) then m.mem.atc else tdel m.mem.atc (of.headD 0)
  m.modMem (fun a => { a with atc := tins atc (atcKey die space page) v })

/-- ATS_TRANSLATION_COMPLETE (R223): the host's answer, or its answer that there is no translation. -/
def execAtsTranslationComplete (fn : Fn) (page : Nat) (answer : Option Nat) (s : State) : Out :=
  s.run fun m =>
    if !fnOk fn then .refused .noSuchUnit
    else
      let space := spaceOf fn
      let v := match answer with | some t => t + 1 | none => 0
      gate m (m.mem.atsWait.contains (space, page))
        ((m.modMem (fun a => { a with atsWait := a.atsWait.filter (· != (space, page)) })).atcFill (m.atcDie space) space page v)

/-- ATS_INVALIDATION (R223, R306): the function's entry goes, and the invalidation completes once no access in flight uses the translation;
a function's queue holds 32. -/
def execAtsInvalidation (fn : Fn) (page : Nat) (s : State) : Out :=
  s.run fun m =>
    if !fnOk fn then .refused .noSuchUnit
    else
      let space := spaceOf fn
      let k := atcKey (m.atcDie space) space page
      let v := (tfind m.mem.atc k).getD 0
      gate m (decide (m.mem.atsInv.countP (fun e => e.1 == space) < 32))
        (m.modMem (fun a => { a with atc := tdel a.atc k, atsInv := a.atsInv ++ [(space, page, v)] })).endInvalidations

/-! The scrubber (R362, R381, R543). -/

/-- A unit whose partition or use has ended joins the pool, or is retired: one whose scrub failed, that holds 16 retired pages,
or a page that the full list could not take (R352, R381, R543). -/
def Mach.toPool (m : Mach) (u : Nat) : Mach :=
  let x := m.unit u
  let here := fun page => page / 16384 == u
  if x.failed then m.setUnit u ⟨.retired, false, false⟩
  else if decide (16 ≤ m.mem.retired.countP here) || m.mem.retireWhenFree.any here then
    (((m.setUnit u ⟨.retired, false, false⟩).modMem (fun a => { a with retireWhenFree := a.retireWhenFree.filter (fun g => !here g) })).modRas
      (fun r => { r with unitsRetired := satAdd 65535 r.unitsRetired 1 })).contained 0x26 (2 ^ 30 * u)
  else m.setUnit u ⟨.free, false, false⟩

/-- Forgets every cached copy of a unit's lines and zeroes it: full-line writes through the homes (R256, R362). -/
def Mach.zeroUnit (m : Mach) (u : Nat) : Mach :=
  let out := fun line => line / 2 ^ 24 != u
  let ras := (m.mem.llc.filter (fun e => !out e.1)).map (fun e => e.2.ra) ++ (m.mem.rlc.filter (fun e => !out (e.1 / 8))).map (fun e => e.2.ra)
  let m := ras.foldl (fun m ra => m.chargeRa ra) m
  m.modMem (fun a =>
    { a with hbm := a.hbm.filter (fun e => e.1 / 2 ^ 30 != u), hbmPoison := a.hbmPoison.filter (fun e => out e.1),
             hbmErr := a.hbmErr.filter (fun e => out e.1), lineKey := a.lineKey.filter (fun e => out e.1), llc := a.llc.filter (fun e => out e.1 || decide (2 ^ 46 ≤ e.1)),
             rlc := a.rlc.filter (fun e => out (e.1 / 8)), dir := a.dir.filter (fun e => out e.1) })

/-- The unit the scrubber works on: the lowest that awaits its scrub (R362). -/
def Mach.scrubUnit (m : Mach) : Option Nat := (tkeys m.mem.units).find? (fun u => (m.unit u).scrub)

/-- UNIT_SCRUB_COMPLETE (R362): lines that the host holds are taken back first (R256). -/
def execUnitScrubComplete (unit : Nat) (s : State) : Out :=
  s.run fun m =>
    if 288 ≤ unit then .refused .noSuchUnit
    else
      let inside := fun line => line / 2 ^ 24 == unit
      let quiet := m.mem.txns.all (fun t => !inside t.req.line) && m.mem.msgs.all (fun c => !inside c.line) && m.mem.homeQ.all (fun q => !inside q.line)
      if !(m.up && m.scrubUnit == some unit && quiet) then .next m
      else
        match (tkeys m.mem.dir).find? (fun l => inside l && m.hostHolds l) with
        | some l => .next (m.askHost l true)
        | none =>
          let m := m.zeroUnit unit
          let x := m.unit unit
          .next (if x.use == .free then m.toPool unit else m.setUnit unit { x with scrub := false })

/-- SCRUB_WRITE_FAIL (R381). -/
def execScrubWriteFail (unit : Nat) (s : State) : Out :=
  s.run fun m =>
    if 288 ≤ unit then .refused .noSuchUnit
    else
      let x := m.unit unit
      gate m (m.up && x.scrub)
        (((m.setUnit unit (if x.use == .free then ⟨.retired, false, false⟩ else { x with scrub := false, failed := true })).modRas
          (fun r => { r with unitsRetired := satAdd 65535 r.unitsRetired 1 })).contained 0x26 (2 ^ 30 * unit))

end Sys2Proof.Machine
end

