-- ==== Sys2Proof/Machine/Partition.lean ====
section
/-! DEFINITION. Machine/Partition.lean: creating, destroying and querying partitions, and function-level resets (R348 to R352,
R357 to R361, R374 to R380, R497, R520). -/

namespace Sys2Proof.Machine

/-! Creation (Table 14.1, R351). -/

/-- An upstream link exists: link 1 unless port 1 is bifurcated, links 1a and 1b when it is (R292). -/
def Mach.linkExists (m : Mach) (l : Nat) : Bool :=
  l == 0 || (l == 1 && !m.host.bifurc) || ((l == 2 || l == 3) && m.host.bifurc)

/-- The fields of PART.CREATE. -/
structure CreateReq where
  part : Nat
  link : Nat
  units : Nat
  ways : Nat
  granules : Nat
  mask : Nat
  msix : Nat
  hbmRd : Nat
  hbmWr : Nat
  shLink : Nat
  shHost : Nat
  deriving DecidableEq, Repr

/-- PART.CREATE's fields (Table 13.4); an MSI-X request of 0 means 32. -/
def createReq (c : Cmd) : CreateReq :=
  { part := c.f 0 1, link := c.f 1 1, units := c.f 2 2, ways := c.f 4 2, granules := c.f 6 2, mask := c.f 8 8,
    msix := if c.f 16 2 = 0 then 32 else c.f 16 2, hbmRd := c.f 20 2, hbmWr := c.f 22 2, shLink := c.f 24 2, shHost := c.f 26 2 }

/-- The first field that is out of its range (Table 13.4, Table 14.1). -/
def CreateReq.invalid (r : CreateReq) : Option Nat :=
  if r.part = 0 || decide (64 < r.part) then some 0
  else if 3 < r.link then some 1
  else if r.units = 0 || decide (288 < r.units) then some 2
  else if r.ways = 0 then some 4
  else if 512 < r.granules then some 6
  else if r.mask = 0 then some 8
  else if 2048 < r.msix then some 16
  else if 16000 < r.hbmRd then some 20
  else if 16000 < r.hbmWr then some 22
  else if 1152 < r.shLink then some 24
  else if 120 < r.shHost then some 26
  else none

/-- The first resource that the pool lacks, as NO_RESOURCE's detail (R348). -/
def Mach.lacks (m : Mach) (r : CreateReq) : Option Nat :=
  let w : DWord := BitVec.ofNat 64 r.mask
  let sameLink := m.existing.filter (fun p => (m.part p).link == r.link)
  let hostSum := r.shHost + total (sameLink.map (fun p => (m.part p).shHost))
  if (bitsOf w).any (fun c => (m.clu c).owner != 0) then some 1
  else if m.freeUnits.length < r.units then some 2
  else if 512 < m.sumParts (·.granules) + r.granules then some 3
  else if 2048 < m.sumParts (·.msix) + r.msix then some 4
  else if 16000 < m.sumParts (fun q => q.shHbmRd + q.shHbmWr) + r.hbmRd + r.hbmWr then some 5
  else if 1152 < m.sumParts (·.shLink) + r.shLink then some 5
  else if 120 * (m.hlink r.link).rate * (m.hlink r.link).width < 2048 * hostSum then some 5
  else none

/-- A fresh partition key from the true-random source (R497). -/
def Mach.newKey (m : Mach) (p : Nat) : Mach := (m.modPart p (fun q => { q with keyed := true, keyId := m.free })).bumpFree

/-- Every channel of a VF at its reset values (R319, R344). -/
def Mach.resetChans (m : Mach) (fnk : Nat) : Mach :=
  (List.range 8).foldl (fun m c => m.setChan (8 * fnk + c) Chan.reset) m

/-- Hands a cluster to a partition, quiesced (R207). -/
def Mach.handCluster (m : Mach) (p c : Nat) : Mach :=
  (m.quiesceCluster c).modClu c (fun x => { x with owner := p, idleSince := m.now })

/-- Links of an I/O die that are up: links 0-5 on X0, 6-11 on X1 (R389). -/
def Mach.linksUp (m : Mach) (d : Nat) : Nat := (List.range 6).countP (fun i => (m.ylink (6 * d + i)).st == .up)

/-- One bucket refilled by `n` bytes, holding at most four refills (R389). DESIGN CHOICE: log 93. -/
def refill (t : Tbl Nat) (key n : Nat) : Tbl Nat := tput 0 t key (Nat.min (4 * n) (tget 0 t key + n))

/-- The refill of a partition's buckets (R389). DESIGN CHOICE: log 93. -/
def Mach.refillPart (m : Mach) (q : Part) : Tbl Nat :=
  let up := m.linksUp 0 + m.linksUp 1
  let t := (List.range 16).foldl (fun t c => refill (refill t c (q.shHbmRd * 1000 / 16)) (16 + c) (q.shHbmWr * 1000 / 16)) q.buckets
  let t := [0, 1].foldl (fun t d =>
    let n := if up = 0 then 0 else q.shLink * 1000 * m.linksUp d / up
    refill (refill t (32 + d) n) (48 + d) n) t
  refill (refill t 64 (q.shHost * 1000)) 80 (q.shHost * 1000)

/-- The steps of R351, with one refill in the buckets (Table 21.3).  The units are the lowest free ones (DESIGN CHOICE, log 16). -/
def Mach.create (m : Mach) (r : CreateReq) : Mach :=
  let w : DWord := BitVec.ofNat 64 r.mask
  let m := m.sendLedger
  let gen := (m.part r.part).gen + 1
  let m := (m.freeUnits.take r.units).foldl (fun m u => m.setUnit u ⟨.part r.part, false, false⟩) m
  let m := m.setPart r.part { Part.reset with
    st := .running, link := r.link, ways := BitVec.ofNat 16 r.ways, granules := r.granules, clusters := w, msix := r.msix,
    shHbmRd := r.hbmRd, shHbmWr := r.hbmWr, shLink := r.shLink, shHost := r.shHost, gen := gen }
  let m := m.newKey r.part
  let m := (bitsOf w).foldl (fun m c => m.handCluster r.part c) m
  let key := m.vfKey r.part
  let m := (m.modFn key (fun f => { f with table := [], pba := [], kept := false })).resetChans key
  m.modPart r.part (fun q => { q with buckets := m.refillPart q })

/-- PART_CREATE (R348, R351, R520). -/
def execPartCreate (fn : Fn) (ch : Nat) (s : State) : Out :=
  mci { opcode := 0x0201, who := .m,
        fields := [(0, 1), (1, 1), (2, 2), (4, 2), (6, 2), (8, 8), (16, 2), (20, 2), (22, 2), (24, 2), (26, 2)], rlen := 0 } fn ch
    (fun m c =>
      let r := createReq c
      match r.invalid with
      | some off => invalid m off
      | none =>
        if (m.part r.part).st == .resetting then .now stBusy 0 [] m
        else if (m.part r.part).st != .absent || !m.linkExists r.link then invalid m 0xFFFE
        else
          match m.lacks r with
          | some d => .now stNoResource d [] m
          | none => if m.sec.trngOk then ok (m.create r) else .now stAborted 0 [] m) s

/-- PART.QUERY's result (Table 13.4). -/
def Mach.partInfo (m : Mach) (p : Nat) : List Byte :=
  let q := m.part p
  let st := match q.st with | .absent => 0 | .running => 1 | .frozen => 2 | .resetting => 3
  let us := m.unitsOf p
  [BitVec.ofNat 8 st, BitVec.ofNat 8 q.link] ++ leBytes 2 us.length ++ leBytes 2 q.ways.toNat ++ leBytes 2 q.granules ++
    leBytes 8 q.clusters.toNat ++ leBytes 2 q.msix ++ leBytes 2 (total ((m.clustersOf p).map m.liveCores)) ++
    leBytes 2 (us.countP (fun u => (m.unit u).scrub))

/-- PART_QUERY. -/
def execPartQuery (fn : Fn) (ch : Nat) (s : State) : Out :=
  mci { opcode := 0x0203, who := .f, fields := [(0, 1)], rlen := 22 } fn ch
    (fun m c =>
      let p := match fn with | .vf _ p => p | .pf _ => c.f 0 1
      if p = 0 || decide (64 < p) then invalid m 0 else .now stOk 0 (m.partInfo p) m) s

/-! Function-level reset (R357 to R361). -/

/-- Cancels the run-ahead prefetches of a partition: those not issued are dropped; those in flight fill their lines, and their bytes are
charged then (R255, R357, R407). -/
def Mach.cancelPrefetch (m : Mach) (p : Nat) : Mach :=
  m.modMem (fun a =>
    { a with raTodo := a.raTodo.filter (fun t => t.part != p),
             reqs := a.reqs.map (fun r => if r.kind == .rds true && r.part == p then { r with dropped := true } else r) })

/-- The apertures of a partition. -/
def Mach.aperturesOf (m : Mach) (p : Nat) : List MapRange := (m.part 65).maps.filter (fun r => r.aperture == p + 1)

/-- Physical-function commands that name a partition end with ABORTED, PART.DESTROY apart (R344, R375). -/
def Mach.abortNamed (m : Mach) (p : Nat) : Mach :=
  let ids := (m.mem.shoots.filter (fun x => x.space == 65 && (m.aperturesOf p).any (fun r => overlap r.va r.len x.va x.len))).map (·.id)
  m.answerAll (fun d => match d with
    | .freeze q => q == p
    | .shoot i => ids.contains i
    | _ => false) stAborted 0 []

/-- The commands of physical functions that are in flight when a reset begins are marked: those that name the partition end with ABORTED
(R344, R375). -/
def Mach.markAborts (m : Mach) (p : Nat) : Mach :=
  (tkeys m.host.chans).foldl (fun m key => if key / 8 < 4 then m.modChan key (fun c =>
    if c.complete = 0 then c else { c with abort := c.abort ++ [(p, c.complete)] }) else m) m

/-- The commands and responses of a VF end without a response (R344). -/
def Mach.dropCommands (m : Mach) (fnk : Nat) : Mach :=
  (List.range 8).foldl (fun m c => m.modChan (8 * fnk + c) (fun x => { x with cur := none, held := [], inq := [], need := 0, dbq := [] })) m

/-- The start of a function-level reset (R357); a second one merges with it (R374). DEDUCED: log 79. -/
def Mach.startFlr (m : Mach) (p : Nat) : Mach :=
  let q := m.part p
  if q.st == .absent || q.st == .resetting then m
  else
    let m := (((m.cancelPrefetch p).abortNamed p).markAborts p).dropCommands (m.vfKey p)
    let m := m.modPart p (fun q =>
      { q with st := .resetting, flr := .quiesce m.now, buckets := [], freezing := 0, d3Froze := false, irqCause := 0, captured := [] })
    m.modFn (m.vfKey p) (fun f => { f with table := (tmap f.table (fun e => { e with masked := true })).filter (fun e => e.2 != ⟨0, 0, true⟩), pba := [] })

/-- Stops every resident block of a partition (R358). -/
def Mach.stopBlocks (m : Mach) (p : Nat) : Mach := (m.blocksOfPart p).foldl (fun m b => m.freeBlock b) m

/-- Ends every launch of a partition without a record or an end status (R358), and what it has in flight: queued Ordering Unit
descriptors, copies, multicasts, signals (R359 step 1, R69). -/
def Mach.endLaunches (m : Mach) (p : Nat) : Mach :=
  let m := (m.krnsOfPart p).foldl (fun m k => m.removeKrn k) m
  let m := { m with clusters := tmap m.clusters (fun x => { x with ordq := x.ordq.filter (fun d => m.krnPart d.krn != p) }) }
  { m with krns := m.krns.filter (fun e => e.2.part != p), ops := m.ops.filter (fun o => o.part != p), flushes := m.flushes.filter (fun o => o.part != p),
           copies := (tmap m.copies (fun q => q.filter (fun o => o.part != p))).filter (fun e => e.2 != []),
           mcasts := m.mcasts.filter (fun o => o.part != p), sigs := m.sigs.filter (fun o => o.part != p),
           links := { m.links with remotes := m.links.remotes.map (fun r => if r.part == p then { r with gone := true } else r) } }

/-- Removes every mapping of a partition and every aperture over it, by shoot-down (R224, R359 step 2, R367). -/
def Mach.dropMappings (m : Mach) (p : Nat) : Mach :=
  let us := m.unitsOf p
  let mine := fun (x : Shoot) => x.space == p || (x.space == 65 && (m.aperturesOf p).any (fun r => overlap r.va r.len x.va x.len))
  let m := { m with mem := { m.mem with shoots := m.mem.shoots.filter (fun x => !mine x) } }
  let m := m.dropAtc p (m.part p).maps
  let fetched := (m.mem.rlc.filter (fun e => e.2.ra == p + 1 && us.contains (e.1 / 8 / 2 ^ 24))).map (fun e => (e.1 % 8, e.1 / 8))
  let m := ((m.dropTlbs p 0 (2 ^ 52)).dropL1s p).dropFetched fetched
  let m := m.modPart p (fun q => { q with maps := [] })
  let m := m.modPart 65 (fun q => { q with maps := q.maps.filter (fun r => r.aperture != p + 1) })
  (m.modMem (fun a => { a with atsWait := a.atsWait.filter (fun x => x.1 != p) })).endInvalidations

/-- The steps of R359 once the clusters are quiet. -/
def Mach.quietSteps (m : Mach) (p : Nat) : Mach :=
  let m := (m.endLaunches p).dropMappings p
  let m := m.dropIcaches p
  let m := (m.clustersOf p).foldl (fun m c => m.quiesceCluster c) m
  let m := m.modPart p (fun q =>
    { q with kgis := [], seqs := [], sb := StepB.reset, logOn := false, log := [], ends := [], restored := [], thrSel := 0, thrArmed := false, thrVal := 0 })
  let m := m.resetChans (m.vfKey p)
  let m := m.retireFreed
  let m := m.modPart p (fun q => { q with keyed := false })
  let m := (m.unitsOf p).foldl (fun m u => if (m.unit u).failed then m else m.setUnit u { m.unit u with scrub := true }) m
  let since := match (m.part p).flr with | .quiesce t => t | .quiet t _ => t | .none => m.now
  if m.sec.trngOk then (m.newKey p).modPart p (fun q => { q with flr := .quiet since false })
  else m.modPart p (fun q => { q with flr := .quiet since true })

/-- The end of a destruction (R352, R543): its clusters, granules, vectors and shares return at once, its units when scrubbed. -/
def Mach.freePart (m : Mach) (p : Nat) : Mach :=
  let m := m.sendLedger
  let m := (m.clustersOf p).foldl (fun m c => m.modClu c (fun x => { x with owner := 0, idleSince := m.now })) m
  let m := (m.unitsOf p).foldl (fun m u =>
    if (m.unit u).scrub then m.setUnit u { m.unit u with use := .free } else m.toPool u) m
  let key := m.vfKey p
  let m := m.modFn key (fun f => { f with table := [], pba := [] })
  (m.setPart p { Part.reset with gen := (m.part p).gen }).answerAll (fun d => d == .destroy p) stOk 0 []

/-- The completion of a function-level reset (R360), or of the destruction that it is part of (R352). -/
def Mach.finishFlr (m : Mach) (p : Nat) : Mach :=
  if (m.part p).doomed then m.freePart p
  else
    let m := m.modPart p (fun q => { q with st := .running, flr := .none, buckets := [] })
    (m.modHost (fun h => { h with resetDone := h.resetDone ||| (1#64 <<< (p - 1)) })).raisePf 1

/-- A whole function-level reset at one moment, without waiting for the scrub (R509, R512). -/
def Mach.resetNow (m : Mach) (p : Nat) : Mach :=
  if (m.part p).st == .absent then m
  else
    let m := m.startFlr p
    let m := match (m.part p).flr with | .quiesce _ => (m.stopBlocks p).quietSteps p | _ => m
    match (m.part p).flr with
    | .quiet _ false => m.finishFlr p
    | _ => m

/-- PART_DESTROY (R345, R352): DENIED for a partition whose VF is locked (R311, R334). -/
def execPartDestroy (fn : Fn) (ch : Nat) (s : State) : Out :=
  mci { opcode := 0x0202, who := .m, fields := [(0, 1)], rlen := 0 } fn ch
    (fun m c =>
      let p := c.f 0 1
      m.named p (fun _ => if m.locked p then .now stDenied 0 [] m else .later (.destroy p) ((m.startFlr p).modPart p (fun q => { q with doomed := true })))) s

/-- Partition numbers run from 1 to 64 (Table 13.4). -/
def partOk (p : Nat) : Bool := decide (1 ≤ p) && decide (p ≤ 64)

/-- INITIATE_FUNCTION_LEVEL_RESET (R357, R374). -/
def execInitiateFunctionLevelReset (part : Nat) (s : State) : Out :=
  s.run fun m => if partOk part then gate m (m.up && (m.part part).st != .absent) (m.startFlr part) else .refused .noSuchUnit

/-- FLR_QUIESCE_LIMIT (R358): 200 us after the start, the blocks that have not ended are stopped. -/
def execFlrQuiesceLimit (part : Nat) (s : State) : Out :=
  s.run fun m =>
    if !partOk part then .refused .noSuchUnit
    else
      match (m.part part).flr with
      | .quiesce t => gate m (decide (t + 200 * us ≤ m.now)) (m.stopBlocks part)
      | _ => .next m

/-- A store or atomic of a partition that is on its way to its coherence point (R224 step 2, R286). -/
def Mach.storesInFlight (m : Mach) (p : Nat) : Bool :=
  m.ops.any (fun o => o.part == p && o.outlives && o.lanes.any (fun l => !l.done && (match l.tgt with | .hbm _ => true | _ => false)))

/-- FLR_CLUSTERS_QUIET (R358, R359, R377): Moon's steps once no block of the partition is resident. -/
def execFlrClustersQuiet (part : Nat) (s : State) : Out :=
  s.run fun m =>
    if !partOk part then .refused .noSuchUnit
    else
      match (m.part part).flr with
      | .quiesce _ => gate m ((m.blocksOfPart part).isEmpty && m.moonServes && !m.storesInFlight part) (m.quietSteps part)
      | _ => .next m

/-- FLR_COMPLETE (R360). -/
def execFlrComplete (part : Nat) (s : State) : Out :=
  s.run fun m =>
    if !partOk part then .refused .noSuchUnit
    else
      match (m.part part).flr with
      | .quiet _ false => gate m m.moonServes (m.finishFlr part)
      | _ => .next m

/-- The length of a restart, at most 50 ms (R338). -/
def restartLen (e : Nat × Nat) : Nat := Nat.min (50 * ms) (e.2 - e.1)

/-- The limit of a function-level reset (R360), extended by the length of each restart of Moon during it (R377). -/
def Mach.flrLimit (m : Mach) (since : Nat) : Nat :=
  since + 10 * ms + total ((m.moon.ended.filter (fun e => decide (since < e.2))).map restartLen) +
    (if m.moon.restart = 0 then 0 else restartLen (m.moon.restart - 1, m.now))

/-- FLR_TIMEOUT (R380). -/
def execFlrTimeout (part : Nat) (s : State) : Out :=
  s.run fun m =>
    if !partOk part then .refused .noSuchUnit
    else
      match (m.part part).flr with
      | .quiesce t => gate m (decide (m.flrLimit t < m.now)) (m.fatal .flrTimeout)
      | .quiet t k => gate m (!k && decide (m.flrLimit t < m.now)) (m.fatal .flrTimeout)
      | .none => .next m

end Sys2Proof.Machine
end

