-- ==== Sys2Proof/Machine/Migrate.lean ====
section
/-! DEFINITION. Machine/Migrate.lean: the dirty-page log, apertures, and freeze, save, restore and thaw of a partition (R364 to
R373, R375, R382, R500). -/

namespace Sys2Proof.Machine

/-- A launch as a migration blob holds it (R370): the launch, and its counters, key 512*cluster + 32*logical + counter. -/
structure KrnSnap where
  krn : Krn
  ctrs : Tbl Word
  deriving DecidableEq, Repr

/-- What a migration blob's encrypted sections hold (R370). -/
structure Snapshot where
  seqs : Tbl SeqEntry
  sb : StepB
  krns : List KrnSnap
  kgis : List Kgi
  maps : List MapRange
  chans : List Chan
  table : Tbl MsixEntry
  pba : Tbl Bool
  irqCause : BitVec 5
  ways : BitVec 16
  shares : List Nat
  deriving DecidableEq, Repr

end Sys2Proof.Machine

namespace Sys2Proof.Config

/-- The encoding of a blob's sections, whose layout the manual leaves open: their count and bytes (log 17). -/
opaque sectionsOf : Sys2Proof.Machine.Snapshot → Nat × List Byte

/-- The contents that sections encode (log 17). -/
opaque snapshotOf : List Byte → Option Sys2Proof.Machine.Snapshot

end Sys2Proof.Config

namespace Sys2Proof.Machine

/-! The dirty-page log (R364, R365). -/

/-- PART_LOG_START (R364): clears the log and starts it. -/
def execPartLogStart (fn : Fn) (ch : Nat) (s : State) : Out :=
  mci { opcode := 0x0208, who := .m, fields := [(0, 1)], rlen := 0 } fn ch
    (fun m c => m.named (c.f 0 1) (fun _ => ok (m.modPart (c.f 0 1) (fun q => { q with logOn := true, log := [] })))) s

/-- The bitmap of granules `first .. first+count` (R365). -/
def logBitmap (log : Tbl Bool) (first count : Nat) : List Byte :=
  (List.range (count / 8)).map (fun b =>
    BitVec.ofNat 8 (total ((List.range 8).map (fun i => if tget false log (first + 8 * b + i) then 2 ^ i else 0))))

/-- PART_LOG_READ (R365). -/
def execPartLogRead (fn : Fn) (ch : Nat) (s : State) : Out :=
  mci { opcode := 0x0209, who := .m, fields := [(0, 1), (8, 8), (16, 8), (24, 8)], rlen := 0 } fn ch
    (fun m c => m.named (c.f 0 1) (fun _ =>
      let p := c.f 0 1
      let first := c.f 8 8
      let count := c.f 16 8
      let all := 16384 * (m.unitsOf p).length
      if first % 64 != 0 || decide (all < first) then invalid m 8
      else if count % 64 != 0 || decide (all < first + count) then invalid m 16
      else
        match m.vwrite (spaceOf fn) (c.f 24 8) (logBitmap (m.part p).log first count) with
        | .ok m => ok (m.modPart p (fun q => { q with log := q.log.filter (fun e => decide (e.1 < first) || decide (first + count ≤ e.1)) }))
        | .waits m => .retry m
        | .fault => invalid m 24)) s

/-- PART_LOG_STOP. -/
def execPartLogStop (fn : Fn) (ch : Nat) (s : State) : Out :=
  mci { opcode := 0x020A, who := .m, fields := [(0, 1)], rlen := 0 } fn ch
    (fun m c => m.named (c.f 0 1) (fun _ => ok (m.modPart (c.f 0 1) (fun q => { q with logOn := false })))) s

/-! Apertures (R367). -/

/-- PART.APERTURE with OP 0 (R221, R367): the whole allotment, read-write and home-ordered. DEDUCED: log 82. -/
def apertureMap (m : Mach) (c : Cmd) : Ans :=
  m.named (c.f 0 1) fun _ =>
    let p := c.f 0 1
    let va := c.f 8 8
    let len := (m.unitsOf p).length * 2 ^ 30
    if c.f 1 1 != 0 then invalid m 1
    else if va % 2 ^ 21 != 0 || decide (2 ^ 52 < va + len) then invalid m 8
    else if m.locked p then .now stDenied 0 [] m
    else if (m.unitsOf p).any (fun u => (m.unit u).scrub) then .now stBusy 0 [] m
    else if (m.part 65).maps.any (fun r => overlap r.va r.len va len) then invalid m 8
    else if (m.part p).maps.any (fun r => r.target == 0 && r.ownerOrd) then invalid m 0
    else
      let pages := (m.allotPages p 0 len).filter (fun g => tget false m.mem.pageOrd g)
      match m.recallPages pages with
      | .waits m => .retry m
      | .done _ m =>
        let m := m.setOrd pages false
        ok (m.modPart 65 (fun q => { q with maps := q.maps ++
          [{ va := va, len := len, target := 0, tgt := 0, access := 1, ownerOrd := false, large := true, stopped := false, aperture := p + 1 }] }))

/-- PART_APERTURE_MAP. -/
def execPartApertureMap (fn : Fn) (ch : Nat) (s : State) : Out :=
  mci { opcode := 0x020B, who := .m, fields := [(0, 1), (1, 1), (8, 8)], rlen := 0, pick := fun c => c.f 1 1 != 1 } fn ch apertureMap s

/-- PART.APERTURE with OP 1 (R367): the aperture at VA goes by a shoot-down. -/
def apertureUnmap (fn : Fn) (ch : Nat) (m : Mach) (c : Cmd) : Ans :=
  m.named (c.f 0 1) fun _ =>
    if m.locked (c.f 0 1) then .now stDenied 0 [] m
    else
      match (m.aperturesOf (c.f 0 1)).find? (fun r => r.va == c.f 8 8 && !r.stopped) with
      | none => invalid m 8
      | some r =>
        let x := m.startShoot 65 r.va r.len (.aperture fn ch)
        .later (.shoot x.1) x.2

/-- PART_APERTURE_UNMAP. -/
def execPartApertureUnmap (fn : Fn) (ch : Nat) (s : State) : Out :=
  mci { opcode := 0x020B, who := .m, fields := [(0, 1), (1, 1), (8, 8)], rlen := 0, pick := fun c => c.f 1 1 == 1 } fn ch
    (apertureUnmap fn ch) s

/-! Freeze and thaw (R368, R369, R373, R375). -/

/-- A freeze is requested: no further step forms and no further launch's block launches; the boundary is now, unless a step runs. -/
def Mach.startFreeze (m : Mach) (p : Nat) (d3 : Bool) : Mach :=
  (m.cancelPrefetch p).modPart p (fun q =>
    { q with freezing := m.now + 1, d3Froze := d3, boundary := if q.sb.running then q.boundary else m.now })

/-- PART_FREEZE (R368). -/
def execPartFreeze (fn : Fn) (ch : Nat) (s : State) : Out :=
  mci { opcode := 0x0204, who := .m, fields := [(0, 1)], rlen := 8 } fn ch
    (fun m c => m.named (c.f 0 1) (fun _ =>
      if (m.part (c.f 0 1)).st == .frozen then invalid m 0
      else .later (.freeze (c.f 0 1)) (if (m.part (c.f 0 1)).freezing = 0 then m.startFreeze (c.f 0 1) false else m))) s

/-- PART_FREEZE_COMPLETE (R368): no step runs and no block is resident. -/
def execPartFreezeComplete (part : Nat) (s : State) : Out :=
  s.run fun m =>
    if !partOk part then .refused .noSuchUnit
    else
      let q := m.part part
      gate m (q.st == .running && q.freezing != 0 && !q.sb.running && (m.blocksOfPart part).isEmpty)
        ((m.modPart part (fun q => { q with st := .frozen, freezing := 0 })).answerAll (fun d => d == .freeze part) stOk 0 (leBytes 8 q.boundary))

/-- PART_FREEZE_TIMEOUT (R368). -/
def execPartFreezeTimeout (part : Nat) (s : State) : Out :=
  s.run fun m =>
    if !partOk part then .refused .noSuchUnit
    else
      let q := m.part part
      gate m (q.st == .running && q.freezing != 0 && !q.d3Froze && decide (q.freezing - 1 + sec1 ≤ m.now))
        ((m.modPart part (fun q => { q with freezing := 0 })).answerAll (fun d => d == .freeze part) stTimeout 0 [])

/-- The channels of the commands that a freeze has captured, one entry a command, in channel order (R373). -/
def Mach.captureOrder (m : Mach) (p : Nat) : List Nat :=
  (List.range 8).flatMap (fun c =>
    let x := m.chan (8 * m.vfKey p + c)
    if x.enable then List.replicate x.complete c else [])

/-- A frozen partition runs again (R372, R373): launches of a blob from other clusters that have unlaunched blocks, lost ones among them,
end. -/
def Mach.thaw (m : Mach) (p : Nat) : Mach :=
  let q := m.part p
  let moved := q.restored.filter (fun k => (m.krn k).live && q.srcMask != q.clusters && (decide ((m.krn k).next < (m.krn k).total) || !(m.krn k).replay.isEmpty))
  let m := m.modPart p (fun q =>
    { q with st := .running, freezing := 0, d3Froze := false, restored := [], captured := m.captureOrder p, sb := { q.sb with predicted := [], predValid := false } })
  moved.foldl (fun m k => m.endKrn k stAborted) m

/-- PART_THAW (R373). -/
def execPartThaw (fn : Fn) (ch : Nat) (s : State) : Out :=
  mci { opcode := 0x0207, who := .m, fields := [(0, 1)], rlen := 0 } fn ch
    (fun m c => m.named (c.f 0 1) (fun _ =>
      if (m.part (c.f 0 1)).st != .frozen then invalid m 0 else ok (m.thaw (c.f 0 1)))) s

/-! Save and restore (R370, R371, R382, R500). -/

/-- The counters of a launch's banks. -/
def Mach.bankCtrs (m : Mach) (k : Nat) : Tbl Word :=
  (tkeys (m.krn k).banks).flatMap (fun c =>
    (coresOfCluster c).flatMap (fun i => ((m.countersOf k i).zipIdx.filter (fun e => e.1 != 0)).map (fun e =>
      (512 * c + 32 * logicalOf i + e.2, e.1))))

/-- What PART.SAVE captures (R370). -/
def Mach.snapshot (m : Mach) (p : Nat) : Snapshot :=
  let q := m.part p
  let key := m.vfKey p
  { seqs := q.seqs, sb := q.sb, krns := (m.krnsOfPart p).map (fun k => ⟨m.krn k, m.bankCtrs k⟩), kgis := q.kgis, maps := q.maps,
    chans := (List.range 8).map (fun c => m.chan (8 * key + c)), table := (m.fnSt key).table, pba := (m.fnSt key).pba,
    irqCause := q.irqCause, ways := q.ways, shares := [q.shHbmRd, q.shHbmWr, q.shLink, q.shHost] }

/-- The number of clusters of a mask. -/
def countBits (w : DWord) : Nat := (bitsOf w).length

/-- Bytes 0 to 63 of a blob (Table 14.2). -/
def Mach.blobHeader (m : Mach) (p sections len : Nat) (nonce : List Byte) : List Byte :=
  let q := m.part p
  leBytes 4 0x424D5048 ++ leBytes 2 0x0100 ++ leBytes 2 sections ++ leBytes 8 len ++ leBytes 4 (m.links.devId % 2 ^ 17 + 2 ^ 17 * p) ++
    leBytes 4 (countBits q.clusters + 128 * q.granules) ++ leBytes 8 q.boundary ++ leBytes 2 (m.unitsOf p).length ++
    leBytes 2 q.msix ++ nonce ++ leBytes 8 q.clusters.toNat ++ List.replicate 8 0

/-- `n` bytes of a list, zeros past its end. -/
def padTo (n : Nat) (l : List Byte) : List Byte := (l ++ List.replicate n 0).take n

/-- PART.SAVE (R370): FULL with the needed length when the buffer is too small. -/
def partSave (fn : Fn) (m : Mach) (c : Cmd) : Ans :=
  m.named (c.f 0 1) fun _ =>
    let p := c.f 0 1
    if (m.part p).st != .frozen then invalid m 0
    else if m.mem.shoots.any (fun x => x.space == p) then .retry m
    else
      match m.vault with
      | none => .now stDenied 0 [] m
      | some v =>
        let body := Config.sectionsOf (m.snapshot p)
        let len := 64 + body.2.length + 16
        if c.f 16 8 < len then .now stFull 0 (leBytes 8 len) m
        else
          let nonce := leBytes 12 (Config.trueRandom m.free).toNat
          let h := m.blobHeader p body.1 len nonce
          match m.bumpFree.vwrite (spaceOf fn) (c.f 8 8) (h ++ padTo (len - 64) (Config.gcmSeal v.mig nonce h body.2)) with
          | .ok m => .now stOk 0 (leBytes 8 len) m
          | .waits m => .retry m
          | .fault => invalid m 8

/-- PART_SAVE. -/
def execPartSave (fn : Fn) (ch : Nat) (s : State) : Out :=
  mci { opcode := 0x0205, who := .m, fields := [(0, 1), (8, 8), (16, 8)], rlen := 8 } fn ch (partSave fn) s

/-- What a restored channel's waiting command waits for, in the target partition. -/
def retarget (p : Nat) : Defer → Defer
  | .krn _ n d => .krn p n d
  | .step _ => .step p
  | .admitSeq _ e => .admitSeq p e
  | .freeze _ => .freeze p
  | .destroy _ => .destroy p
  | .shoot i => .shoot i

/-- Restores one launch; on the same clusters it holds its banks with their counters again (R372). -/
def Mach.restoreKrn (m : Mach) (p : Nat) (same : Bool) (x : KrnSnap) : Mach :=
  let k := m.nextId
  let m := m.bumpId.setKrn k { x.krn with live := true, part := p, accepted := k, banks := if same then x.krn.banks else [],
                                          recv := if same then x.krn.recv else [], holdSince := [], holding := [] }
  let m := m.modPart p (fun q => { q with restored := q.restored ++ [k] })
  if !same then m
  else
    let m := x.krn.banks.foldl (fun m e => m.modClu e.1 (fun c => if e.2 = 1 then { c with bank0 := k + 1 } else { c with bank1 := k + 1 })) m
    x.ctrs.foldl (fun m e =>
      let c := e.1 / 512
      m.modCore (16 * c + e.1 / 32 % 16) (fun i => { i with ctr := tput 0 i.ctr (32 * (tget 0 x.krn.banks c - 1) + e.1 % 32) e.2 })) m

/-- The pages of the target's allotment to which a snapshot's mappings give another ordering attribute than they carry (R258). -/
def Mach.pagesToBe (m : Mach) (p : Nat) (z : Snapshot) (own : Bool) : List Nat :=
  ((z.maps.filter (fun r => r.target == 0 && r.aperture == 0 && r.ownerOrd == own)).flatMap (fun r => m.allotPages p r.tgt r.len)).filter
    (fun g => tget false m.mem.pageOrd g != own)

/-- Puts a snapshot into a target partition, which is left frozen (R371). -/
def Mach.restore (m : Mach) (p : Nat) (src : DWord) (z : Snapshot) : Mach :=
  let key := m.vfKey p
  let m := m.modPart p (fun q =>
    { q with st := .frozen, freezing := 0, seqs := z.seqs, sb := { z.sb with running := false, predicted := [], predValid := false },
             kgis := z.kgis, maps := z.maps, irqCause := z.irqCause, restored := [], srcMask := src })
  let m := (m.setOrd (m.pagesToBe p z true) true).setOrd (m.pagesToBe p z false) false
  let m := m.dropIcaches p
  let m := ((List.range 8).zip z.chans).foldl (fun m e =>
    m.setChan (8 * key + e.1) { e.2 with cur := e.2.cur.map (fun d => (d.1, retarget p d.2)) }) m
  let m := m.modFn key (fun f => { f with table := z.table, pba := z.pba })
  z.krns.foldl (fun m x => m.restoreKrn p (src == (m.part p).clusters) x) m

/-- PART.RESTORE (R221, R258, R311, R371, R382, R500); owner-ordered mappings under a live aperture answer INVALID. DEDUCED: log 82. -/
def partRestore (fn : Fn) (m : Mach) (c : Cmd) : Ans :=
  m.named (c.f 0 1) fun _ =>
    let p := c.f 0 1
    let q := m.part p
    if m.locked p then .now stDenied 0 [] m
    else if !(m.krnsOfPart p).isEmpty then invalid m 0
    else if c.f 16 8 < 80 || decide (2 ^ 52 < c.f 16 8) then invalid m 16
    else
      match m.vread (spaceOf fn) (c.f 8 8) (c.f 16 8) .read with
      | .waits m => .retry m
      | .fault => invalid m 8
      | .poisoned m => .now stPoisoned 0 [] m
      | .ok b m =>
        let h := b.take 64
        let len := fieldAt h 8 8
        if fieldAt h 0 4 != 0x424D5048 then invalid m 0
        else if fieldAt h 4 2 != 0x0100 then invalid m 4
        else if len < 80 || decide (b.length < len) then invalid m 8
        else
          let text := slice b 64 (len - 64)
          let open_ := fun key => Config.gcmOpen key (slice h 36 12) h text
          match m.vault.bind (fun v => (open_ v.mig).orElse (fun _ => open_ v.migPrev)) with
          | none => .now stDenied 0 [] m
          | some body =>
            match Config.snapshotOf body with
            | none => .now stDenied 0 [] m
            | some z =>
              if fieldAt h 20 4 != countBits q.clusters + 128 * q.granules || fieldAt h 32 2 != (m.unitsOf p).length || fieldAt h 34 2 != q.msix then
                invalid m 0
              else if z.maps.any (fun r => r.target == 0 && r.ownerOrd) && !(m.aperturesOf p).isEmpty then invalid m 0
              else
                match m.recallPages (m.pagesToBe p z true ++ m.pagesToBe p z false) with
                | .waits m => .retry m
                | .done _ m => ok (m.restore p (BitVec.ofNat 64 (fieldAt h 48 8)) z)

/-- PART_RESTORE. -/
def execPartRestore (fn : Fn) (ch : Nat) (s : State) : Out :=
  mci { opcode := 0x0206, who := .m, fields := [(0, 1), (8, 8), (16, 8)], rlen := 0 } fn ch (partRestore fn) s

end Sys2Proof.Machine
end

