-- ==== Sys2Proof/Machine/Kgi.lean ====
section
/-! DEFINITION. Machine/Kgi.lean: Kranik graph images: the checks of a load (R118, R131 to R133), KGI.LOAD and KGI.UNLOAD (R210,
R591). -/

namespace Sys2Proof.Machine

/-- An entry of the section table (R132). -/
structure Section where
  type : Nat
  flags : Nat
  off : Nat
  size : Nat
  align : Nat
  zero : Nat
  deriving DecidableEq, Repr

/-- A power of two. -/
def isPow2 (n : Nat) : Bool := n != 0 && n &&& (n - 1) == 0

/-- The section table of an image. -/
def sections (img : List Byte) : List Section :=
  (List.range (fieldAt img 0x0C 4)).map (fun i =>
    let e := slice img (0x100 + 32 * i) 32
    { type := fieldAt e 0 4, flags := fieldAt e 4 4, off := fieldAt e 8 8, size := fieldAt e 16 8, align := fieldAt e 24 4, zero := fieldAt e 28 4 })

/-- The section of a type. -/
def findSection (ss : List Section) (type : Nat) : Option Section := ss.find? (fun x => x.type == type)

/-- The header is as Table 05.10 has it, for an image of `size` bytes (R131). -/
def headerOk (img : List Byte) (size : Nat) : Bool :=
  decide (0x100 ≤ size) && fieldAt img 0 4 == 0x3149474B && fieldAt img 4 2 == 0x0100 && decide (fieldAt img 6 2 ≤ 3) &&
    decide (fieldAt img 8 1 ≤ 0x10) && zeroAt img 9 3 && decide (1 ≤ fieldAt img 0x0C 4) && decide (fieldAt img 0x0C 4 ≤ 16) &&
    fieldAt img 0x10 8 == size && zeroAt img 0x1C 4 && zeroAt img 0x50 176 && slice img 0x20 48 == sha384 (img.drop 0x100)

/-- No two of the ranges share a byte. -/
def apart : List (Nat × Nat) → Bool
  | [] => true
  | r :: l => l.all (fun x => !overlap r.1 r.2 x.1 x.2) && apart l

/-- The sections are as R132 has them. -/
def sectionsOk (ss : List Section) (size : Nat) : Bool :=
  ss.all (fun x => decide (1 ≤ x.type) && decide (x.type ≤ 6) && x.flags == 0 && x.zero == 0 && isPow2 x.align && x.off % x.align == 0 &&
      decide (x.off + x.size ≤ size)) &&
    ((List.range 7).all (fun t => decide ((ss.filter (fun x => x.type == t)).length ≤ 1))) &&
    [1, 2, 5].all (fun t => (findSection ss t).isSome) &&
    apart ((0, 0x100 + 32 * ss.length) :: (ss.filter (fun x => x.size != 0)).map (fun x => (x.off, x.size))) &&
    (match findSection ss 1 with | some x => x.size % 8 == 0 | none => false)

/-- A kernel descriptor from its 64 bytes (Table 05.11). -/
def kernelDesc (d : List Byte) : KernelDesc :=
  { entry := fieldAt d 0 4, length := fieldAt d 4 4, n := fieldAt d 8 1, g := fieldAt d 9 1, replayable := fieldAt d 0x0A 2 % 2 == 1,
    usesAcc := fieldAt d 0x0A 2 / 2 % 2 == 1, localBytes := fieldAt d 0x0C 4, blocks := fieldAt d 0x10 4, argBytes := fieldAt d 0x14 4,
    counters := BitVec.ofNat 64 (fieldAt d 0x18 8), nameOff := fieldAt d 0x20 4, recvBytes := fieldAt d 0x24 4 }

/-- Granules of 1 KiB that hold `n` bytes (R78, R81). -/
def granulesOf (n : Nat) : Nat := (n + 1023) / 1024

/-- Registers per lane of a group: a = 8 x ceil(n / 8) (R77). -/
def KernelDesc.regs (k : KernelDesc) : Nat := 8 * ((k.n + 7) / 8)

/-- A descriptor is as R133 has it, for a CODE section of `words` words. -/
def descOk (d : List Byte) (words : Nat) : Bool :=
  let k := kernelDesc d
  decide (k.entry + k.length ≤ words) && decide (1 ≤ k.n) && decide (k.n ≤ 255) && decide (1 ≤ k.g) && decide (k.g ≤ 32) &&
    decide (fieldAt d 0x0A 2 < 4) && zeroAt d 0x28 24 && decide (k.recvBytes ≤ 524288) && decide (k.localBytes ≤ 524288) &&
    decide (granulesOf k.localBytes + granulesOf k.recvBytes ≤ 512) && decide (32 * k.regs * k.g ≤ 65536)

/-- The event counter that an instruction names as an event operation or with EVE set (R118). -/
def ecOf : Instr → Option (BitVec 5)
  | .ld _ f | .st _ f | .atAdd _ f | .atMins _ f | .atMinu _ f | .atMaxs _ f | .atMaxu _ f | .atAnd _ f | .atOr _ f | .atXor _ f
  | .atXchg _ f | .atCas _ f | .atFadd _ f | .redAdd _ f | .redMins _ f | .redMinu _ f | .redMaxs _ f | .redMaxu _ f | .redAnd _ f
  | .redOr _ f | .redXor _ f | .redFadd _ f => if f.eve then some f.ec else none
  | .evtInc _ f | .evtSig _ f | .evtWait _ f | .evtRead _ f => some f.ec
  | .fenceAcq _ f | .fenceRel _ f | .flush _ f | .ceCopy _ f | .mcast _ f | .ordSort _ f | .ordTopk _ f | .ordArgmax _ f
  | .ordNearest _ f | .ordSearch _ f | .ordSample _ f | .rngU32 _ f | .rngU24 _ f | .rngBern _ f | .rngNorm _ f | .rngGumbel _ f
  | .rngKey _ f | .tideRd _ f | .irqRaise _ f => if f.eve then some f.ec else none
  | _ => none

/-- A format T instruction. -/
def isT : Instr → Bool
  | .tmma _ _ | .tzero _ _ | .tload _ _ | .tstore _ _ => true
  | _ => false

/-- The two checks of R118 that belong to a kernel. -/
def kernelAllows (k : KernelDesc) (i : Instr) : Bool :=
  (k.usesAcc || !isT i) && (match ecOf i with | some e => k.counters.toNat / 4 ^ e.toNat % 4 != 0 | none => true)

/-- Word `i` of CODE passes R118 under every kernel whose range holds it. -/
def wordOk (ks : List KernelDesc) (i : Nat) (w : BitVec 64) : Bool :=
  match decodeWord 0 w with
  | none => false
  | some ins => ks.all (fun k => decide (i < k.entry) || decide (k.entry + k.length ≤ i) || kernelAllows k ins)

/-- The lowest word of CODE that fails R118. -/
def badWord (ks : List KernelDesc) (code : List Byte) (n : Nat) : Option Nat :=
  (List.range n).find? (fun i => !wordOk ks i (BitVec.ofNat 64 (fieldAt code (8 * i) 8)))

/-- What a load finds: the image's parts, or INVALID with the offset of an offending CODE word or 0 (R118). -/
inductive KgiLoad where
  | good (codeOff : Nat) (kernels : List KernelDesc) (graph : List Byte)
  | bad (word : Nat)

/-- The checks of KGI.LOAD on an image (R118, R131 to R133). -/
def checkKgi (img : List Byte) (size : Nat) : KgiLoad :=
  let ss := sections img
  if !headerOk img size || !sectionsOk ss size then .bad 0
  else
    match findSection ss 1, findSection ss 2, findSection ss 5 with
    | some code, some ker, some gr =>
      let n := fieldAt img 0x18 4
      let ds := (List.range n).map (fun i => slice img (ker.off + 64 * i) 64)
      let words := code.size / 8
      if ker.size != 64 * n || !ds.all (fun d => descOk d words) then .bad 0
      else
        let ks := ds.map kernelDesc
        match badWord ks (slice img code.off code.size) words with
        | some i => .bad (code.off + 8 * i)
        | none => .good code.off ks (slice img gr.off gr.size)
    | _, _, _ => .bad 0

/-- KGI.LOAD: an image that breaks a check gives INVALID at IMAGE, with the offending word's offset as result. DEDUCED: log 80. -/
def kgiLoad (fn : Fn) (m : Mach) (c : Cmd) : Ans :=
  let space := spaceOf fn
  let handle := c.f 0 4
  let va := c.f 8 8
  let size := c.f 16 8
  let fail := fun (off word : Nat) (m : Mach) => Ans.now stInvalid off (leBytes 8 word) m
  if (m.part space).kgis.any (fun k => k.handle == handle) then fail 0xFFFE 0 m
  else if size = 0 || decide (2 ^ 52 < va + size) || !m.mappedFor space .image va size then fail 8 0 m
  else
    match m.vread space va size .image with
    | .waits m => .retry m
    | .fault => fail 8 0 m
    | .poisoned m => .now stPoisoned 0 (leBytes 8 0) m
    | .ok img m =>
      match checkKgi img size with
      | .bad w => fail 8 w m
      | .good off ks gr =>
        if 64 ≤ (m.part space).kgis.length then .now stNoResource 6 (leBytes 8 0) m
        else
          .now stOk 0 (leBytes 8 0)
            (m.modPart space (fun q => { q with kgis := q.kgis ++ [{ handle := handle, code := va + off, kernels := ks, graph := gr }] }))

/-- KGI_LOAD. -/
def execKgiLoad (fn : Fn) (ch : Nat) (s : State) : Out :=
  mci { opcode := 0x0401, who := .f, fields := [(0, 4), (8, 8), (16, 8)], rlen := 8 } fn ch (kgiLoad fn) s

/-- KGI_UNLOAD (R210): BUSY while an instance of it runs or SEQ.CONFIG names it. -/
def execKgiUnload (fn : Fn) (ch : Nat) (s : State) : Out :=
  mci { opcode := 0x0402, who := .f, fields := [(0, 4)], rlen := 0 } fn ch
    (fun m c =>
      let space := spaceOf fn
      let h := c.f 0 4
      let q := m.part space
      if !q.kgis.any (fun k => k.handle == h) then invalid m 0
      else if (m.krnsOfPart space).any (fun k => (m.krn k).handle == h) || (q.sb.conf && q.sb.handle == h) then .now stBusy 0 [] m
      else
        let m := m.modPart space (fun q => { q with kgis := q.kgis.filter (fun k => k.handle != h) })
        ok (if space < 65 then m.dropIcaches space else m)) s

end Sys2Proof.Machine
end

