-- ==== Sys2Proof/Machine/Operands.lean ====
section
/-! DEFINITION. Machine/Operands.lean: the registers of a group, guards, the issue of a core instruction, and the draws of a
group's streams (R76, R77, R82 to R85, R107, R109 to R111, R135, R136, R140, R158, R192, R194, R195). -/

namespace Sys2Proof.Machine

/-! Registers (R76, R77, R109). -/

/-- The launch that a group belongs to. -/
def Mach.krnOf (m : Mach) (g : Nat) : Nat := (m.blk (m.grp g).block).krn

/-- Registers per lane that the group is allocated (R77). -/
def Mach.allot (m : Mach) (g : Nat) : Nat := (m.krn (m.krnOf g)).desc.regs

/-- A v-register of a lane; one beyond the allotment reads zero (R77). -/
def Mach.vGet (m : Mach) (g r lane : Nat) : Nat := if r < m.allot g then (tget 0 (m.grp g).v (32 * r + lane)).toNat else 0

/-- A write to a v-register of a lane; one beyond the allotment is discarded (R77). -/
def Mach.vPut (m : Mach) (g r lane x : Nat) : Mach :=
  if r < m.allot g then m.modGrp g (fun a => { a with v := tput 0 a.v (32 * r + lane) (BitVec.ofNat 32 x) }) else m

/-- A u-register, and a pair (R109). -/
def Mach.uGet (m : Mach) (g r : Nat) : Nat := (tget 0 (m.grp g).u (r % 64)).toNat
def Mach.uPut (m : Mach) (g r x : Nat) : Mach := m.modGrp g (fun a => { a with u := tput 0 a.u (r % 64) (BitVec.ofNat 32 x) })
def Mach.uPair (m : Mach) (g r : Nat) : Nat := m.uGet g r + 2 ^ 32 * m.uGet g (r + 1)
def Mach.uPairPut (m : Mach) (g r x : Nat) : Mach := (m.uPut g r x).uPut g (r + 1) (x / 2 ^ 32)

/-- A predicate, bit l for lane l; p0 reads true (R110). -/
def Mach.pGet (m : Mach) (g p : Nat) : Word := if p = 0 then 0xFFFFFFFF else tget 0 (m.grp g).p p

/-- A write to a predicate; one to p0 is discarded (R110). -/
def Mach.pPut (m : Mach) (g p : Nat) (w : Word) : Mach := if p = 0 then m else m.modGrp g (fun a => { a with p := tput 0 a.p p w })

/-- The guards of the 32 lanes (R84). -/
def Mach.guards (m : Mach) (g : Nat) (pi : BitVec 3) (pn : Bool) : Word := if pn then ~~~ (m.pGet g pi.toNat) else m.pGet g pi.toNat

/-- The lanes of a mask, lowest first. -/
def lanesOf (w : Word) : List Nat := (List.range 32).filter (fun l => w.getLsbD l)

/-! Issue (R82, R84, R85, R136, R140). -/

/-- What an instruction does once it issues. -/
inductive Eff where
  /-- It takes effect, and the group goes on with the next word. -/
  | go (m : Mach)
  /-- It takes effect, and the group goes on at a word. -/
  | jump (pc : Word) (m : Mach)
  /-- It faults, precisely: the launch is aborted with a fault code and an address. -/
  | fault (code : Nat) (addr : Option Nat) (m : Mach)
  /-- It is not ready, or its translation waits for the host: nothing issues. -/
  | hold (m : Mach)

/-- The group runs: resident, not exited, not waiting, its core not halted, its launch not stopped (R82, R93). DESIGN CHOICE: log 110. -/
def Mach.runnable (m : Mach) (g : Nat) : Bool :=
  (m.grp g).live && !(m.grp g).exited && (m.grp g).wait == .none && !(m.core (coreOf g)).halted && m.mayIssue &&
    !(m.krn (m.krnOf g)).stopped

/-- No load or atomic of the group that is in flight writes one of the registers (R82; log 24). -/
def Mach.regsFree (m : Mach) (g : Nat) (rs : List Nat) : Bool :=
  m.ops.all (fun o => o.gid != g || (match o.kind with
    | .load | .atomic _ => rs.all (fun r => decide (r < o.vds) || decide (o.vds + Nat.max 1 (o.bytes / 4) ≤ r))
    | _ => true))

/-- Where an instruction fetch stands (R136, R210, R222): the line is present; read, to be filled; read poisoned; not to be fetched; or
still awaited from its home, or the host's translation. -/
inductive Fetch where
  | hit
  | fill (line : Nat) (d : LineData) (m : Mach)
  | poison (va : Nat) (m : Mach)
  | fault (va : Nat)
  | waits (m : Mach)

/-- The line of a virtual line address in the instruction cache. -/
def Core.icacheLine (c : Core) (line : Nat) : Option LineData := (c.icache.find? (fun e => e.1 == line)).map (·.2)

/-- The fetch of a group's next word: its word index lies in the kernel's range and its page permits fetching; the line comes from its home
slice (R210). DESIGN CHOICE: logs 81 and 133. -/
def Mach.fetch (m : Mach) (g : Nat) : Fetch :=
  let x := m.krn (m.krnOf g)
  let pc := (m.grp g).pc.toNat
  let va := (x.code + 8 * pc) % 2 ^ 52
  if pc < x.desc.entry || decide (x.desc.entry + x.desc.length ≤ pc) then .fault va
  else if ((m.core (coreOf g)).icacheLine (va / 64)).isSome then .hit
  else
    match m.vreadFor none x.num x.part (va / 64 * 64) 64 .fetch with
    | .ok b m => .fill (va / 64) (lineOf b) m
    | .poisoned m => .poison va m
    | .waits m => .waits m
    | .fault => .fault va

/-- The line enters the instruction cache of 1,024 lines; the oldest leaves (R210; log 25). -/
def Mach.fillIcache (m : Mach) (core line : Nat) (d : LineData) : Mach :=
  m.modCore core (fun c => { c with icache := (c.icache ++ [(line, d)]).drop (c.icache.length + 1 - 1024) })

/-- Notes the core's last issue. DEDUCED: log 44. -/
def Mach.noteIssue (m : Mach) (core : Nat) : Mach := m.modCore core (fun c => { c with issueTide := m.coreTide core })

/-- The group goes on at a word. -/
def Mach.setPc (m : Mach) (g : Nat) (pc : Word) : Mach := if (m.grp g).live then m.modGrp g (fun x => { x with pc := pc }) else m

/-- Applies what an instruction does. -/
def Mach.commit (m : Mach) (g : Nat) : Eff → Mach
  | .go m' => m'.setPc g ((m.grp g).pc + 1)
  | .jump pc m' => m'.setPc g pc
  | .fault code addr m' => m'.abortKrn (m.krnOf g) code addr
  | .hold m' => m'

/-- An instruction whose guard is false in every lane: nothing, but that one of format M with EVE = 1 increments its counter
unless the guard is p0 negated (R84, R85). -/
def Mach.unguarded (m : Mach) (g : Nat) (i : Instr) (wide p0n : Bool) : Mach :=
  match ecOf i with
  | some e => if wide || p0n then m else m.incCtr (m.krnOf g) (coreOf g) e.toNat 1
  | none => m

/-- The effect under the guards: group-wide instructions need a uniform guard (R84, R85). -/
def guarded (m : Mach) (g : Nat) (i : Instr) (wide p0n : Bool) (mask : Word) (eff : Mach → Word → Eff) : Eff :=
  if mask = 0 then .go (m.unguarded g i wide p0n)
  else if wide && mask != 0xFFFFFFFF then .fault fUniform none m
  else eff m mask

/-- Issues an instruction of a group: `rs` are the v-registers it reads or writes, `wide` whether it is group-wide.  Where the word's line
is not in the instruction cache, the line is fetched and the word issues when it is commanded again.
DEDUCED: log 44. DESIGN CHOICE: logs 81, 110 and 133. -/
def issue (g : Nat) (i : Instr) (rs : List Nat) (wide : Bool) (pi : BitVec 3) (pn : Bool) (eff : Mach → Word → Eff) (s : State) : Out :=
  s.run fun m =>
    if 49152 ≤ g then .refused .noSuchUnit
    else if !i.wf then .refused .illFormed
    else if !m.runnable g then .next m
    else if !kernelAllows (m.krn (m.krnOf g)).desc i then .refused .illFormed
    else
      let mask := m.guards g pi pn
      match m.fetch g with
      | .hit =>
        if mask != 0 && !m.regsFree g rs then .next m
        else .next ((m.commit g (guarded m g i wide (pi == 0 && pn) mask eff)).noteIssue (coreOf g))
      | .fill line d m' => .next (m'.fillIcache (coreOf g) line d)
      | .poison va m' => .next (m'.abortKrn (m.krnOf g) fPoison (some va))
      | .fault va => .next (m.abortKrn (m.krnOf g) fAddress (some va))
      | .waits m' => .next m'

/-! Draws (R158, R187, R192, R194, R195). -/

/-- What a group's draw meets. -/
inductive Seeded where
  /-- The streams are ready. -/
  | ok (m : Mach)
  /-- The lanes are lent to the Ordering Unit (R192). -/
  | lent
  /-- The true-random source has failed (R205). -/
  | failed (m : Mach)

/-- Makes a group's streams ready for a draw: an unseeded group is seeded from the true-random source (R194). -/
def Mach.readyStreams (m : Mach) (g : Nat) : Seeded :=
  let x := m.grp g
  if x.lent then .lent
  else if x.seeding != .unseeded then .ok m
  else if !m.sec.trngOk then
    let p := (m.clu (clusterOf (coreOf g))).owner
    .failed ((m.eventAt 0x34 2 0x80 0 0).logPart p { RasRec.mk0 0x34 2 p 0 m.now with die := 0x80 })
  else
    .ok ((m.setGrp g { x with seeding := .trueRandom,
                              lanes := seedGroup (Config.trueRandom m.free) (m.blk x.block).id x.index 0 }).bumpFree)

/-- Draws from streams seeded under R194 set the launch's sticky flag (R195). -/
def Mach.noteDraw (m : Mach) (g : Nat) : Mach :=
  if (m.grp g).seeding == .trueRandom then m.modKrn (m.krnOf g) (fun k => { k with unseeded := true }) else m

/-- One draw of each lane in a list, with the values by lane. -/
def Mach.drawFor (m : Mach) (g : Nat) (lanes : List Nat) : Tbl Word × Mach :=
  let r := drawLanes lanes (m.grp g).lanes
  (r.1, (m.modGrp g (fun x => { x with lanes := r.2 })).noteDraw g)

/-- Runs an effect that draws. -/
def drawing (m : Mach) (g : Nat) (f : Mach → Eff) : Eff :=
  match m.readyStreams g with
  | .ok m => f m
  | .lent => .hold m
  | .failed m => .fault fTrng none m

end Sys2Proof.Machine
end

