-- ==== Sys2Proof/Machine/Flags.lean ====
section
/-! DEFINITION. Machine/Flags.lean: the compares, the predicates they write, and the conditions of branches (Tables 05.5, 05.7,
R86, R110, R586). -/

namespace Sys2Proof.Machine

/-- The floating-point format of a TYPE's elements, if it has one. -/
def tyFloat : Ty → Option FFmt
  | .f32 => some f32
  | .f16x2 => some fp16
  | .bf16x2 => some bf16
  | _ => none

/-- The width of a TYPE's elements. -/
def tyWidth : Ty → Nat
  | .f16x2 => 16
  | .bf16x2 => 16
  | .s16x2 => 16
  | .u16x2 => 16
  | .s8x4 => 8
  | .u8x4 => 8
  | .s64 => 64
  | .u64 => 64
  | _ => 32

/-- A TYPE's integers are signed. -/
def tySigned : Ty → Bool
  | .s32 => true
  | .s16x2 => true
  | .s8x4 => true
  | .s64 => true
  | _ => false

/-- An element as an integer, by the signedness of its TYPE. -/
def tyInt (t : Ty) (x : Nat) : Int := if tySigned t then sgn (tyWidth t) x else ((x % 2 ^ tyWidth t : Nat) : Int)

/-- A relation between integers. -/
def relInt (c : CmpOp) (a b : Int) : Bool :=
  match c with
  | .eq => a == b
  | .ne => a != b
  | .lt => decide (a < b)
  | .le => decide (a ≤ b)
  | .gt => decide (b < a)
  | .ge => decide (b ≤ a)

/-- A relation between floating-point values: ordered, except that NE is true when either is NaN; -0 equals +0. -/
def relVal (c : CmpOp) (a b : Val) : Bool :=
  if a == .nan || b == .nan then c == .ne
  else
    match c with
    | .eq => a.eqv b
    | .ne => !a.eqv b
    | .lt => a.lt b
    | .le => !b.lt a
    | .gt => b.lt a
    | .ge => !a.lt b

/-- A compare of two operands of a TYPE. -/
def relOf (c : CmpOp) (t : Ty) (a b : Nat) : Bool :=
  match tyFloat t with
  | some f => relVal c (f.decode a) (f.decode b)
  | none => relInt c (tyInt t a) (tyInt t b)

/-- A mask of the lanes in a list that a test picks. -/
def laneMask (lanes : List Nat) (f : Nat → Bool) : Word := BitVec.ofNat 32 (total ((lanes.filter f).map (2 ^ ·)))

/-- Writes a predicate in the lanes of a mask. -/
def Mach.pWrite (m : Mach) (g p : Nat) (mask res : Word) : Mach := m.pPut g p ((m.pGet g p &&& ~~~mask) ||| (res &&& mask))

/-- The test of u[CU] as a signed number (Table 05.5). -/
def testU (t : CTest) (x : Nat) : Bool :=
  let i := sgn 32 x
  match t with
  | .eqz => i == 0
  | .nez => i != 0
  | .ltz => decide (i < 0)
  | .gez => decide (0 ≤ i)
  | .gtz => decide (0 < i)
  | .lez => decide (i ≤ 0)

/-- The condition of a branch (Table 05.5, R86). -/
def Mach.condition (m : Mach) (g : Nat) (f : FmtC) : Bool :=
  match f.ck with
  | .always => true
  | .ureg => testU f.cmp (m.uGet g f.cu.toNat)
  | .any => m.pGet g f.cp.toNat != 0
  | .all => m.pGet g f.cp.toNat == 0xFFFFFFFF
  | .none => m.pGet g f.cp.toNat == 0

end Sys2Proof.Machine
end

