-- ==== Sys2Proof/Machine/OrdKeys.lean ====
section
/-! DEFINITION. Machine/OrdKeys.lean: the total order of the Ordering Unit and the selections over it (R170 to R172, R174), which
the step builder's top-k shares (R200). -/

namespace Sys2Proof.Machine

/-- Element types of a descriptor's CTRL (R168). -/
inductive OrdTy where
  | f32 | bf16 | f16 | s32 | u32 | s8
  deriving DecidableEq, Repr

/-- TYPE codes of R168. -/
def ordTy : Nat → Option OrdTy
  | 0 => some .f32 | 1 => some .bf16 | 2 => some .f16 | 3 => some .s32 | 4 => some .u32 | 5 => some .s8 | _ => none

/-- Bytes of an element. -/
def OrdTy.bytes : OrdTy → Nat
  | .f32 | .s32 | .u32 => 4
  | .bf16 | .f16 => 2
  | .s8 => 1

/-- The key that every NaN takes: after every other key in both directions (R170). -/
def nanKey : Nat := 0xFFFFFFFF

/-- The smallest-first key of a float of `w` bits with `e` exponent bits, in `w` bits; none for a NaN (R170). -/
def floatKey (w e x : Nat) : Option Nat :=
  let sign := decide (2 ^ (w - 1) ≤ x)
  let mag := x % 2 ^ (w - 1)
  let inf := (2 ^ e - 1) * 2 ^ (w - 1 - e)
  if inf < mag then none
  else if mag = 0 then some (2 ^ (w - 1))
  else if sign then some (2 ^ w - 1 - x) else some (2 ^ (w - 1) + mag)

/-- The smallest-first key of an element in its own width; none for a NaN. -/
def rawKey (t : OrdTy) (x : Nat) : Option Nat :=
  match t with
  | .f32 => floatKey 32 8 x
  | .bf16 => floatKey 16 8 x
  | .f16 => floatKey 16 5 x
  | .s32 => some ((x + 2 ^ 31) % 2 ^ 32)
  | .u32 => some x
  | .s8 => some ((x + 2 ^ 7) % 2 ^ 8)

/-- The 32-bit order key of an element (R170): 16-bit and 8-bit values in the upper bits; inverted for largest-first. -/
def orderKey (t : OrdTy) (largest : Bool) (x : Nat) : Nat :=
  match rawKey t x with
  | none => nanKey
  | some k =>
    let w := 8 * t.bytes
    (if largest then 2 ^ w - 1 - k else k) * 2 ^ (32 - w)

/-- The indices of a row in order: rising keys, equal keys in rising index order (R171). -/
def orderOf (keys : List Nat) : List Nat := (sortBy (·.1) keys.zipIdx).map (·.2)

/-- The `k` slots of TOPK: the first min(k, n) indices, then 0xFFFF_FFFF (R172). -/
def topkOf (keys : List Nat) (k : Nat) : List Nat :=
  ((orderOf keys).take k) ++ List.replicate (k - keys.length) 0xFFFFFFFF

/-- The lower bound of R174, over at most `fuel` halvings. -/
def lowerBound (row : List Nat) (q : Nat) : Nat → Nat → Nat → Nat
  | 0, lo, _ => lo
  | fuel + 1, lo, hi =>
    if hi ≤ lo then lo
    else
      let mid := (lo + hi) / 2
      if nth 0 row mid < q then lowerBound row q fuel (mid + 1) hi else lowerBound row q fuel lo mid

end Sys2Proof.Machine
end

