-- ==== Sys2Proof/Machine/Sfu.lean ====
section
/-! DEFINITION. Machine/Sfu.lean: the special functions of R588 beside SQRT, and the normal and Gumbel variates of R197 and R198.  Where
the manual bounds a result and does not fix it, the result is a free value within that bound: the opaque function of `Config` where its
value meets the bound, else the value nearest the exact one (logs 7 and 8). -/

namespace Sys2Proof.Machine

/-- An f32 encoding lies within `t` x 2^q of the number `x` x 2^q. -/
def f32Near (c : Nat) (x : Int) (t : Nat) (q : Int) : Bool :=
  match f32.decode c with
  | .fin s m e =>
    let u := min e q
    decide ((scaled s m e u - x * 2 ^ (q - u).toNat).natAbs ≤ t * 2 ^ (q - u).toNat)
  | _ => false

/-- The free result `c` where it is within the bound, else the encoding nearest to `x` x 2^q. -/
def bounded (c : BitVec 32) (x : Int) (t : Nat) (q : Int) : Nat :=
  if f32Near c.toNat x t q then c.toNat else f32.encode .nearest 0 (.fin (decide (x < 0)) x.natAbs q)

/-- `k` ulp in units of 2^q: the spacing of f32 values at `x` x 2^q (R588). -/
def ulps (k : Nat) (x : Int) (q : Int) : Nat := k * 2 ^ (max (q + (Nat.log2 x.natAbs : Nat) - 23) (-149) - q).toNat

/-- ln 2 and log2 e in units of 2^-100. -/
def ln2Fix : Nat := 878668439483319573618263538048
def log2eFix : Nat := 1828833234529184422442202814989

/-- The sum of the terms of e^y from the `k`-th on, y and the term in units of 2^-100. -/
def expTerms (y : Nat) : Nat → Nat → Nat → Nat
  | 0, _, _ => 0
  | n + 1, k, term => term + expTerms y n (k + 1) (term * y / 2 ^ 100 / (k + 1))

/-- 2^f for a fraction f, both in units of 2^-100. -/
def exp2Frac (f : Nat) : Nat := expTerms (f * ln2Fix / 2 ^ 100) 34 0 (2 ^ 100)

/-- The next `n` bits of a logarithm to base 2 of `x` x 2^-100, which lies between 1 and 2. -/
def log2Bits : Nat → Nat → Nat → Nat
  | 0, _, acc => acc
  | n + 1, x, acc =>
    let y := x * x / 2 ^ 100
    if 2 ^ 101 ≤ y then log2Bits n (y / 2) (2 * acc + 1) else log2Bits n y (2 * acc)

/-- log2 of m x 2^e, m not zero, in units of 2^-80. -/
def log2Fix (m : Nat) (e : Int) : Int :=
  let l := Nat.log2 m
  (e + l) * 2 ^ 80 + log2Bits 80 (m * 2 ^ 100 / 2 ^ l) 0

/-- m x 2^e in units of 2^-100, rounded down. -/
def toFix (m : Nat) (e : Int) : Nat := m * 2 ^ (e + 100).toNat / 2 ^ (-(e + 100)).toNat

/-- RCP (R588): within 1 ulp. -/
def rcp32 (x : Nat) : Nat :=
  match f32.decode x with
  | .nan => f32.nan
  | .inf s => f32.sign s
  | .fin s m e =>
    if m = 0 then f32.sign s + 0x7F800000
    else
      let y : Int := (if s then -1 else 1) * ((2 ^ 124 / m : Nat) : Int)
      bounded (Config.rcp (BitVec.ofNat 32 x)) y (ulps 1 y (-e - 124)) (-e - 124)

/-- RSQ (R588): within 2 ulp. -/
def rsq32 (x : Nat) : Nat :=
  match f32.decode x with
  | .nan => f32.nan
  | .inf s => if s then f32.nan else 0
  | .fin s m e =>
    if m = 0 then f32.sign s + 0x7F800000
    else if s then f32.nan
    else
      let odd := e % 2 != 0
      let y := isqrt (2 ^ 248 / (if odd then 2 * m else m)) 125 0
      let q := -((if odd then e - 1 else e) / 2) - 124
      bounded (Config.rsq (BitVec.ofNat 32 x)) y (ulps 2 y q) q

/-- EXP2 (R588): within 2 ulp. -/
def exp232 (x : Nat) : Nat :=
  match f32.decode x with
  | .nan => f32.nan
  | .inf s => if s then 0 else 0x7F800000
  | .fin s m e =>
    let v : Int := (if s then -1 else 1) * ((toFix m (min e 0) * 2 ^ e.toNat : Nat) : Int)
    let i := max (-300) (min 300 (v / 2 ^ 100))
    let y := exp2Frac (v % 2 ^ 100).toNat
    bounded (Config.exp2 (BitVec.ofNat 32 x)) y (ulps 2 y (i - 100)) (i - 100)

/-- LOG2 (R588): within 2 ulp outside [0.5, 2], within 2^-22 inside it. -/
def log232 (x : Nat) : Nat :=
  match f32.decode x with
  | .nan => f32.nan
  | .inf s => if s then f32.nan else 0x7F800000
  | .fin s m e =>
    if m = 0 then 0xFF800000
    else if s then f32.nan
    else if x = 0x3F800000 then 0
    else
      let y := log2Fix m e
      bounded (Config.log2 (BitVec.ofNat 32 x)) y (if 0x3F000000 ≤ x ∧ x ≤ 0x40000000 then 2 ^ 58 else ulps 2 y (-80)) (-80)

/-- TANH (R588): within 2 ulp or 2^-24, whichever is larger. -/
def tanh32 (x : Nat) : Nat :=
  match f32.decode x with
  | .nan => f32.nan
  | .inf s => f32.sign s + 0x3F800000
  | .fin s m e =>
    if m = 0 then x
    else
      let a := if decide ((6 : Int) < e + Nat.log2 m) then 2 ^ 106 else toFix m e
      let g := 2 * a * log2eFix / 2 ^ 100
      let ex := exp2Frac (g % 2 ^ 100) * 2 ^ (g / 2 ^ 100)
      let y : Int := (if s then -1 else 1) * (((ex - 2 ^ 100) * 2 ^ 100 / (ex + 2 ^ 100) : Nat) : Int)
      bounded (Config.tanh (BitVec.ofNat 32 x)) y (Nat.max (ulps 2 y (-100)) (2 ^ 76)) (-100)

/-- The exact Gumbel value of R198 for k = d >> 8, -ln(-ln u) with u = (k + 0.5) x 2^-24, in units of 2^-100. -/
def gumbelExact (k : Nat) : Int :=
  let a := (25 * 2 ^ 80 - log2Fix (2 * k + 1) 0).toNat * ln2Fix
  (0 - log2Fix a (-180)) * (ln2Fix : Int) / 2 ^ 80

/-- The free variates are what R196 and R198 let them be, all together: each within 2^-20, and none below the one before it. -/
def gumbelFits : Bool :=
  (List.range (2 ^ 24)).all (fun k =>
    f32Near (Config.gumbel (BitVec.ofNat 32 k)).toNat (gumbelExact k) (2 ^ 80) (-100) &&
      decide ((floatKey 32 8 (Config.gumbel (BitVec.ofNat 32 (k - 1))).toNat).getD 0 ≤ (floatKey 32 8 (Config.gumbel (BitVec.ofNat 32 k)).toNat).getD 0))

/-- The Gumbel variate of a draw (R196, R198): the free one, or the value nearest the exact one (log 8). -/
def gumbelG (d : Nat) : Nat :=
  let k := d / 256 % 2 ^ 24
  let g := gumbelExact k
  if gumbelFits then (Config.gumbel (BitVec.ofNat 32 k)).toNat else f32.encode .nearest 0 (.fin (decide (g < 0)) g.natAbs (-100))

/-- The sum of the terms of the standard normal distribution's series at z, all in units of 2^-128: the term of order `k` is
(-1)^k z^(2k+1) / (2^k k! (2k+1)), and `p` is the power z^(2k+1) / (2^k k!). -/
def normalTerms (zz : Nat) : Nat → Nat → Nat → Int
  | 0, _, _ => 0
  | n + 1, k, p => ((p / (2 * k + 1) : Nat) : Int) - normalTerms zz n (k + 1) (p * zz / 2 ^ 128 / (2 * (k + 1)))

/-- The probability that a standard normal variate exceeds z, in units of 2^-128, z in units of 2^-40 and at most 8. -/
def normalTail (z : Nat) : Int :=
  let x := z * 2 ^ 88
  2 ^ 127 - normalTerms (x * x / 2 ^ 128) 200 0 x * 135753023439836232162591007175785461951 / 2 ^ 128

/-- The z in units of 2^-40 at which that probability falls to `p`, by halving: `n` bits of it. -/
def normalAt (p : Int) : Nat → Nat → Nat
  | 0, acc => acc
  | n + 1, acc => normalAt p n (if p ≤ normalTail (acc + 2 ^ n) then acc + 2 ^ n else acc)

/-- The exact magnitude of R197 for m = d[30:0], the inverse normal distribution at 1 - u/2 with u = (m + 0.5) x 2^-31, in units of 2^-40, and
the bound on a computed one: 2^-20 up to 4, a relative 2^-18 beyond. -/
def normalExact (m : Nat) : Nat × Nat :=
  let z : Nat := normalAt (((2 * m + 1) * 2 ^ 95 : Nat) : Int) 43 0
  (z, if z ≤ 4 * 2 ^ 40 then 2 ^ 20 else z / 2 ^ 18)

/-- The free magnitudes are what R196 and R197 let them be, all together: each within the bound and at most 6.4, and none above the one before
it. -/
def normalFits : Bool :=
  (List.range (2 ^ 31)).all (fun m =>
    let c := Config.normal (BitVec.ofNat 32 m)
    decide (c.toNat ≤ 0x40CCCCCC) && f32Near c.toNat (normalExact m).1 (normalExact m).2 (-40) &&
      decide (c.toNat ≤ (Config.normal (BitVec.ofNat 32 (m - 1))).toNat))

/-- z of a normal draw (R196, R197): its sign is bit 31 of d; its magnitude is the free one, or the value nearest the exact one, and never
exceeds 6.4 (log 8). -/
def normalZ (d : Nat) : Nat :=
  let m : Nat := d % 2 ^ 31
  d / 2 ^ 31 % 2 * 2 ^ 31 +
    (if normalFits then (Config.normal (BitVec.ofNat 32 m)).toNat
     else Nat.min (f32.encode .nearest 0 (.fin false (normalExact m).1 (-40))) 0x40CCCCCC)

end Sys2Proof.Machine
end

