-- ==== Sys2Proof/Machine/Alu.lean ====
section
/-! DEFINITION. Machine/Alu.lean: the instructions of formats A and B (R110, R111, R117, R135, R585 to R589). -/

namespace Sys2Proof.Machine

/-! Element operations (Table 05.13, R587). -/

/-- Applies an operation to each of the elements of `w` bits in operands of `n` elements. -/
def perElem (w n : Nat) (f : Nat → Nat → Nat → Nat) (a b c : Nat) : Nat :=
  total ((List.range n).map (fun i => f (a / 2 ^ (w * i) % 2 ^ w) (b / 2 ^ (w * i) % 2 ^ w) (c / 2 ^ (w * i) % 2 ^ w) % 2 ^ w * 2 ^ (w * i)))

/-- The number of elements of a TYPE. -/
def tyCountOf (t : Ty) : Nat := if tyWidth t = 64 then 1 else 32 / tyWidth t

/-- An operation on elements, floating-point or integer. -/
def elemOp (t : Ty) (fl : FFmt → Nat → Nat → Nat → Nat) (int : Int → Int → Int) : Nat → Nat → Nat → Nat :=
  perElem (tyWidth t) (tyCountOf t) (fun a b c =>
    match tyFloat t with
    | some f => fl f a b c
    | none => wrapI (tyWidth t) (int (tyInt t a) (tyInt t b)))

def opAdd (f : FmtA) (r : Nat) : Nat → Nat → Nat → Nat := elemOp f.ty (fun x a b _ => x.add f.rnd r a b) (fun a b => a + b)
def opSub (f : FmtA) (r : Nat) : Nat → Nat → Nat → Nat := elemOp f.ty (fun x a b _ => x.sub f.rnd r a b) (fun a b => a - b)
def opMul (f : FmtA) (r : Nat) : Nat → Nat → Nat → Nat := elemOp f.ty (fun x a b _ => x.mul f.rnd r a b) (fun a b => a * b)
def opMulhi (f : FmtA) (_ : Nat) : Nat → Nat → Nat → Nat := elemOp f.ty (fun _ a _ _ => a) (fun a b => (a * b) / (2 ^ tyWidth f.ty : Int))
def opMin (f : FmtA) (_ : Nat) : Nat → Nat → Nat → Nat := elemOp f.ty (fun x a b _ => x.minNum a b) (fun a b => min a b)
def opMax (f : FmtA) (_ : Nat) : Nat → Nat → Nat → Nat := elemOp f.ty (fun x a b _ => x.maxNum a b) (fun a b => max a b)
def opAbs (f : FmtA) (_ : Nat) : Nat → Nat → Nat → Nat := elemOp f.ty (fun x a _ _ => a % 2 ^ (x.eb + x.mb)) (fun a _ => a.natAbs)
def opNeg (f : FmtA) (_ : Nat) : Nat → Nat → Nat → Nat := elemOp f.ty (fun x a _ _ => a ^^^ 2 ^ (x.eb + x.mb)) (fun a _ => -a)
def opFma (f : FmtA) (r : Nat) : Nat → Nat → Nat → Nat := elemOp f.ty (fun x a b c => x.fma f.rnd r a b c) (fun a b => a * b)

/-- The sum of four 8-bit products. -/
def dot4 (signed : Bool) (a b : Nat) : Int :=
  (List.range 4).foldl (fun s i =>
    let x := a / 2 ^ (8 * i) % 256
    let y := b / 2 ^ (8 * i) % 256
    s + (if signed then sgn 8 x * sgn 8 y else (x : Int) * y)) 0

def opDot4 (f : FmtA) (_ : Nat) (a b c : Nat) : Nat := wrapI 32 (dot4 (f.ty == .s8x4) a b + c)

/-- The three shifts, for an unsigned count (R587). -/
def shiftL (w a n : Nat) : Nat := if w ≤ n then 0 else a * 2 ^ n % 2 ^ w
def shiftR (w a n : Nat) : Nat := if w ≤ n then 0 else a / 2 ^ n
def shiftA (w a n : Nat) : Nat := wrapI w (sgn w a / (2 ^ Nat.min n w : Int))

/-- Counts over 32 bits. -/
def popc32 (a : Nat) : Nat := (List.range 32).countP (fun i => a / 2 ^ i % 2 == 1)
def clz32 (a : Nat) : Nat := if a % 2 ^ 32 = 0 then 32 else 31 - Nat.log2 (a % 2 ^ 32)
def brev32 (a : Nat) : Nat := total ((List.range 32).map (fun i => a / 2 ^ i % 2 * 2 ^ (31 - i)))

/-- CVT of one operand (R587). -/
def cvtOp (from_ toTy : Ty) (rnd : Rnd) (r a : Nat) : Nat :=
  let wf := tyWidth from_
  let wt := tyWidth toTy
  total ((List.range (tyCountOf toTy)).map (fun i =>
    let x := a / 2 ^ (wf * i) % 2 ^ wf
    let y :=
      match tyFloat from_, tyFloat toTy with
      | some p, some q => q.encode rnd r (p.decode x)
      | some p, none =>
        let lo : Int := if tySigned toTy then -(2 ^ (wt - 1)) else 0
        let hi : Int := if tySigned toTy then 2 ^ (wt - 1) - 1 else 2 ^ wt - 1
        wrapI wt ((p.decode x).toInt rnd r lo hi)
      | none, some q => q.encode rnd r (Val.ofInt (tyInt from_ x))
      | none, none => wrapI wt (tyInt from_ x)
    y % 2 ^ wt * 2 ^ (wt * i)))

/-! Format A (Table 05.2). -/

/-- A 32- or 64-bit v operand of a lane. -/
def Mach.vOpnd (m : Mach) (g r lane : Nat) (wide : Bool) : Nat :=
  m.vGet g r lane + (if wide then 2 ^ 32 * m.vGet g (r + 1) lane else 0)

/-- A 32- or 64-bit u operand. -/
def Mach.uOpnd (m : Mach) (g r : Nat) (wide : Bool) : Nat := if wide then m.uPair g (r % 64) else m.uGet g r

/-- Writes a 32- or 64-bit v operand. -/
def Mach.vResult (m : Mach) (g r lane : Nat) (wide : Bool) (x : Nat) : Mach :=
  let m := m.vPut g r lane x
  if wide then m.vPut g (r + 1) lane (x / 2 ^ 32) else m

/-- Writes a 32- or 64-bit u operand. -/
def Mach.uResult (m : Mach) (g r : Nat) (wide : Bool) (x : Nat) : Mach := if wide then m.uPairPut g (r % 64) x else m.uPut g r x

/-- The registers of a 32- or 64-bit v operand. -/
def vRun (r : BitVec 8) (wide : Bool) : List Nat := if wide then [r.toNat, r.toNat + 1] else [r.toNat]

/-- The v-registers of an A word that are read or written: sources 2 and 3 where the opcode uses them.  `d64`, `s64` and `c64` say
whether the destination, the sources and source 2 take 64 bits. -/
def aRegs (f : FmtA) (s2 s3 d64 s64 c64 : Bool) : List Nat :=
  if f.dk then []
  else vRun f.vd d64 ++ vRun f.vs1 s64 ++ (if s2 && !f.sk then vRun f.vs2 c64 else []) ++ (if s3 then vRun f.vs3 s64 else [])

/-- Source 2 of a lane: a v-register, or a u-register broadcast with SK (or named with DK). -/
def Mach.src2 (m : Mach) (g : Nat) (f : FmtA) (lane : Nat) (wide : Bool) : Nat :=
  if f.dk || f.sk then m.uOpnd g f.vs2.toNat wide else m.vOpnd g f.vs2.toNat lane wide

/-- Sources 1 and 3 of a lane. -/
def Mach.src13 (m : Mach) (g : Nat) (f : FmtA) (r : BitVec 8) (lane : Nat) (wide : Bool) : Nat :=
  if f.dk then m.uOpnd g r.toNat wide else m.vOpnd g r.toNat lane wide

/-- Takes the draws of an A word with RND 4: one in each lane, or lane 0's alone for a group-wide one (R158, R586). -/
def withDraws (m : Mach) (g : Nat) (f : FmtA) (wide : Bool) (mask : Word) (k : Mach → (Nat → Nat) → Eff) : Eff :=
  if f.rnd == .stochastic then
    drawing m g (fun m =>
      let r := m.drawFor g (if wide then [0] else lanesOf mask)
      k r.2 (fun l => (tget 0 r.1 (if wide then 0 else l)).toNat % 65536))
  else k m (fun _ => 0)

/-- Writes the results of an A or B word that writes registers: once for a u-register, or in the lanes of the mask. -/
def Mach.results (m : Mach) (g : Nat) (toU : Bool) (vd : BitVec 8) (wide : Bool) (mask : Word) (res : Nat → Nat) : Mach :=
  if toU then m.uResult g vd.toNat wide (res 0)
  else ((lanesOf mask).map (fun l => (l, res l))).foldl (fun m e => m.vResult g vd.toNat e.1 wide e.2) m

/-- An A word that computes a register from up to three sources.  `d64`, `s64` and `c64` say whether the destination, the sources
and source 2 take 64 bits. -/
def runA (g : Nat) (i : Instr) (f : FmtA) (s2 s3 d64 s64 c64 : Bool) (op : Nat → Nat → Nat → Nat → Nat) (s : State) : Out :=
  issue g i (aRegs f s2 s3 d64 s64 c64) f.dk f.pi f.pn (fun m mask =>
    withDraws m g f f.dk mask (fun m' r =>
      .go (m'.results g f.dk f.vd d64 mask (fun l =>
        op (r l) (m.src13 g f f.vs1 l s64) (if s2 then m.src2 g f l c64 else 0) (if s3 then m.src13 g f f.vs3 l s64 else 0))))) s

/-- An A word whose operands all have its TYPE's width. -/
def runA1 (g : Nat) (i : Instr) (f : FmtA) (s2 s3 : Bool) (op : Nat → Nat → Nat → Nat → Nat) (s : State) : Out :=
  runA g i f s2 s3 f.ty.is64 f.ty.is64 f.ty.is64 op s

/-- ADD (R586). -/
def execAdd (g : Nat) (f : FmtA) (s : State) : Out := runA1 g (.add g f) f true false (opAdd f) s

/-- SUB (R586). -/
def execSub (g : Nat) (f : FmtA) (s : State) : Out := runA1 g (.sub g f) f true false (opSub f) s

/-- MUL (R586). -/
def execMul (g : Nat) (f : FmtA) (s : State) : Out := runA1 g (.mul g f) f true false (opMul f) s

/-- MULHI (R586). -/
def execMulhi (g : Nat) (f : FmtA) (s : State) : Out := runA1 g (.mulhi g f) f true false (opMulhi f) s

/-- MIN (R586, R587). -/
def execMin (g : Nat) (f : FmtA) (s : State) : Out := runA1 g (.min g f) f true false (opMin f) s

/-- MAX (R586, R587). -/
def execMax (g : Nat) (f : FmtA) (s : State) : Out := runA1 g (.max g f) f true false (opMax f) s

/-- ABS (R586). -/
def execAbs (g : Nat) (f : FmtA) (s : State) : Out := runA1 g (.abs g f) f false false (opAbs f) s

/-- NEG (R586). -/
def execNeg (g : Nat) (f : FmtA) (s : State) : Out := runA1 g (.neg g f) f false false (opNeg f) s

/-- FMA (R586, R589). -/
def execFma (g : Nat) (f : FmtA) (s : State) : Out := runA1 g (.fma g f) f true true (opFma f) s

/-- DOT4 (R586, R589). -/
def execDot4 (g : Nat) (f : FmtA) (s : State) : Out := runA1 g (.dot4 g f) f true true (opDot4 f) s

/-- AND (R586). -/
def execAnd (g : Nat) (f : FmtA) (s : State) : Out := runA1 g (.and g f) f true false (fun _ a b _ => a &&& b) s

/-- OR (R586). -/
def execOr (g : Nat) (f : FmtA) (s : State) : Out := runA1 g (.or g f) f true false (fun _ a b _ => a ||| b) s

/-- XOR (R586). -/
def execXor (g : Nat) (f : FmtA) (s : State) : Out := runA1 g (.xor g f) f true false (fun _ a b _ => a ^^^ b) s

/-- NOT (R586). -/
def execNot (g : Nat) (f : FmtA) (s : State) : Out := runA1 g (.not g f) f false false (fun _ a _ _ => 2 ^ (if f.ty.is64 then 64 else 32) - 1 - a) s

/-- SHL (R587). -/
def execShl (g : Nat) (f : FmtA) (s : State) : Out :=
  runA g (.shl g f) f true false f.ty.is64 f.ty.is64 false (fun _ a b _ => shiftL (tyWidth f.ty) a b) s

/-- SHR (R587). -/
def execShr (g : Nat) (f : FmtA) (s : State) : Out :=
  runA g (.shr g f) f true false f.ty.is64 f.ty.is64 false (fun _ a b _ => shiftR (tyWidth f.ty) a b) s

/-- SAR (R587). -/
def execSar (g : Nat) (f : FmtA) (s : State) : Out :=
  runA g (.sar g f) f true false f.ty.is64 f.ty.is64 false (fun _ a b _ => shiftA (tyWidth f.ty) a b) s

/-- POPC (R586). -/
def execPopc (g : Nat) (f : FmtA) (s : State) : Out := runA1 g (.popc g f) f false false (fun _ a _ _ => popc32 a) s

/-- CLZ (R586). -/
def execClz (g : Nat) (f : FmtA) (s : State) : Out := runA1 g (.clz g f) f false false (fun _ a _ _ => clz32 a) s

/-- BREV (R586). -/
def execBrev (g : Nat) (f : FmtA) (s : State) : Out := runA1 g (.brev g f) f false false (fun _ a _ _ => brev32 a) s

/-- MOV (R586). -/
def execMov (g : Nat) (f : FmtA) (s : State) : Out := runA1 g (.mov g f) f false false (fun _ a _ _ => a) s

/-- The special functions (R588). -/
def execRcp (g : Nat) (f : FmtA) (s : State) : Out := runA1 g (.rcp g f) f false false (fun _ a _ _ => rcp32 a) s

/-- RSQ (R588). -/
def execRsq (g : Nat) (f : FmtA) (s : State) : Out := runA1 g (.rsq g f) f false false (fun _ a _ _ => rsq32 a) s

/-- SQRT (R588). -/
def execSqrt (g : Nat) (f : FmtA) (s : State) : Out := runA1 g (.sqrt g f) f false false (fun _ a _ _ => sqrt32 a) s

/-- EXP2 (R588). -/
def execExp2 (g : Nat) (f : FmtA) (s : State) : Out := runA1 g (.exp2 g f) f false false (fun _ a _ _ => exp232 a) s

/-- LOG2 (R588). -/
def execLog2 (g : Nat) (f : FmtA) (s : State) : Out := runA1 g (.log2 g f) f false false (fun _ a _ _ => log232 a) s

/-- TANH (R588). -/
def execTanh (g : Nat) (f : FmtA) (s : State) : Out := runA1 g (.tanh g f) f false false (fun _ a _ _ => tanh32 a) s

/-- CVT (R587). -/
def execCvt (g : Nat) (f : FmtA) (s : State) : Out :=
  let t := (f.cvtTo).getD .s32
  runA g (.cvt g f) f false false t.is64 f.ty.is64 false (fun r a _ _ => cvtOp f.ty t f.rnd r a) s

/-- SEL (R589): predicate PD chooses VS1 or VS3; with DK = 1 lane 0's does. -/
def execSel (g : Nat) (f : FmtA) (s : State) : Out :=
  issue g (.sel g f) (aRegs f false true f.ty.is64 f.ty.is64 false) f.dk f.pi f.pn (fun m mask =>
    withDraws m g f f.dk mask (fun m' _ =>
      .go (m'.results g f.dk f.vd f.ty.is64 mask (fun l =>
        if (m.pGet g f.pd.toNat).getLsbD l then m.src13 g f f.vs1 l f.ty.is64 else m.src13 g f f.vs3 l f.ty.is64)))) s

/-- PMOV (R589): 1 where predicate VS1[2:0] is true, else 0. -/
def execPmov (g : Nat) (f : FmtA) (s : State) : Out :=
  issue g (.pmov g f) (if f.dk then [] else [f.vd.toNat]) f.dk f.pi f.pn (fun m mask =>
    withDraws m g f f.dk mask (fun m' _ =>
      .go (m'.results g f.dk f.vd false mask (fun l => ((m.pGet g (f.vs1.toNat % 8)).getLsbD l).toNat)))) s

/-- SHFL (R589): each guarded lane takes VS1 of lane VS2 mod 32 as it stood. -/
def execShfl (g : Nat) (f : FmtA) (s : State) : Out :=
  issue g (.shfl g f) (aRegs f true false false false false) f.dk f.pi f.pn (fun m mask =>
    withDraws m g f f.dk mask (fun m' _ =>
      .go (m'.results g f.dk f.vd false mask (fun l => m.src13 g f f.vs1 (m.src2 g f l false % 32) false)))) s

/-- BALLOT (R586): bit l of the u-register is predicate VS1[2:0] of lane l. -/
def execBallot (g : Nat) (f : FmtA) (s : State) : Out :=
  issue g (.ballot g f) [] true f.pi f.pn (fun m mask =>
    withDraws m g f true mask (fun m' _ => .go (m'.uPut g f.vd.toNat (m.pGet g (f.vs1.toNat % 8)).toNat))) s

/-- The 32 values that a reduction takes. -/
def Mach.allLanes (m : Mach) (g : Nat) (f : FmtA) : List Nat := (List.range 32).map (fun l => m.src13 g f f.vs1 l false)

/-- REDADD (R587). -/
def execRedadd (g : Nat) (f : FmtA) (s : State) : Out :=
  issue g (.redadd g f) (if f.dk then [] else [f.vs1.toNat]) true f.pi f.pn (fun m mask =>
    withDraws m g f true mask (fun m' r =>
      let xs := m.allLanes g f
      let x := if f.ty == .f32 then f32.encode f.rnd (r 0) (sumVals (xs.map f32.decode)) else total xs % 2 ^ 32
      .go (m'.uPut g f.vd.toNat x))) s

/-- REDMAX (R587). -/
def execRedmax (g : Nat) (f : FmtA) (s : State) : Out :=
  issue g (.redmax g f) (if f.dk then [] else [f.vs1.toNat]) true f.pi f.pn (fun m mask =>
    withDraws m g f true mask (fun m' _ =>
      let xs := m.allLanes g f
      let x0 := xs.headD 0
      let x := xs.foldl (fun a b => if f.ty == .f32 then f32.maxNum a b else wrapI 32 (max (tyInt f.ty a) (tyInt f.ty b))) x0
      .go (m'.uPut g f.vd.toNat x))) s

/-- A compare of format A: one predicate bit per lane; with DK = 1 the one result goes to every lane (DEDUCED, log 26). -/
def runCmp (g : Nat) (i : Instr) (f : FmtA) (c : CmpOp) (s : State) : Out :=
  issue g i (aRegs { f with vd := f.vs1 } true false f.ty.is64 f.ty.is64 f.ty.is64) f.dk f.pi f.pn (fun m mask =>
    withDraws m g f f.dk mask (fun m' _ =>
      let w := f.ty.is64
      let test := fun l => relOf c f.ty (m.src13 g f f.vs1 l w) (m.src2 g f l w)
      .go (m'.pWrite g f.pd.toNat mask (laneMask (List.range 32) (fun l => test (if f.dk then 0 else l)))))) s

/-- CMP.EQ (R586). -/
def execCmpEq (g : Nat) (f : FmtA) (s : State) : Out := runCmp g (.cmpEq g f) f .eq s

/-- CMP.NE (R586). -/
def execCmpNe (g : Nat) (f : FmtA) (s : State) : Out := runCmp g (.cmpNe g f) f .ne s

/-- CMP.LT (R586). -/
def execCmpLt (g : Nat) (f : FmtA) (s : State) : Out := runCmp g (.cmpLt g f) f .lt s

/-- CMP.LE (R586). -/
def execCmpLe (g : Nat) (f : FmtA) (s : State) : Out := runCmp g (.cmpLe g f) f .le s

/-- CMP.GT (R586). -/
def execCmpGt (g : Nat) (f : FmtA) (s : State) : Out := runCmp g (.cmpGt g f) f .gt s

/-- CMP.GE (R586). -/
def execCmpGe (g : Nat) (f : FmtA) (s : State) : Out := runCmp g (.cmpGe g f) f .ge s

/-! Format B (Table 05.2, R589). -/

/-- The v-registers of a B word. -/
def bRegs (f : FmtB) : List Nat := if f.uk then [] else [f.vd.toNat, f.vs1.toNat]

/-- A register of a B word in a lane. -/
def Mach.bReg (m : Mach) (g : Nat) (f : FmtB) (r : BitVec 8) (lane : Nat) : Nat := if f.uk then m.uGet g r.toNat else m.vGet g r.toNat lane

/-- The B form of an operation on VS1, IMM32 and the old VD (R589). -/
def bOp (o : BOp) (a imm d : Nat) : Nat :=
  let x := sgn 32 a
  let y := sgn 32 imm
  match o with
  | .add => wrapI 32 (x + y)
  | .sub => wrapI 32 (x - y)
  | .mul => wrapI 32 (x * y)
  | .mulhi => wrapI 32 ((x * y) / 2 ^ 32)
  | .min => wrapI 32 (min x y)
  | .max => wrapI 32 (max x y)
  | .abs => wrapI 32 y.natAbs
  | .neg => wrapI 32 (-y)
  | .fma => wrapI 32 (x * y + d)
  | .dot4 => wrapI 32 (dot4 true a imm + d)
  | .and => a &&& imm
  | .or => a ||| imm
  | .xor => a ^^^ imm
  | .not => 2 ^ 32 - 1 - imm
  | .shl => shiftL 32 a imm
  | .shr => shiftR 32 a imm
  | .sar => shiftA 32 a imm
  | .popc => popc32 imm
  | .clz => clz32 imm
  | .brev => brev32 imm
  | .sel => a

/-- IMMEDIATE_ALU_FORM (R589).  B SEL has no guard: PI and PN choose between VS1 and IMM32. -/
def execImmediateAluForm (g : Nat) (op : BOp) (f : FmtB) (s : State) : Out :=
  if op == .sel then
    issue g (.immediateAluForm g op f) (bRegs f) f.uk 0 false (fun m mask =>
      .go (m.results g f.uk f.vd false mask (fun l =>
        if (m.guards g f.pi f.pn).getLsbD l then m.bReg g f f.vs1 l else f.imm.toNat))) s
  else
    issue g (.immediateAluForm g op f) (bRegs f) f.uk f.pi f.pn (fun m mask =>
      .go (m.results g f.uk f.vd false mask (fun l => bOp op (m.bReg g f f.vs1 l) f.imm.toNat (m.bReg g f f.vd l)))) s

/-- A compare of format B: VD names the predicate; with UK = 1 the one result goes to every lane that the guard allows (R589; DEDUCED, log 26). -/
def runCmpB (g : Nat) (i : Instr) (f : FmtB) (c : CmpOp) (t : Ty) (s : State) : Out :=
  issue g i (if f.uk then [] else [f.vs1.toNat]) f.uk f.pi f.pn (fun m mask =>
    let test := fun l => relOf c t (m.bReg g f f.vs1 l) f.imm.toNat
    .go (m.pWrite g f.vd.toNat mask (laneMask (List.range 32) (fun l => test (if f.uk then 0 else l))))) s

/-- CMP_F_IMMEDIATE (R589). -/
def execCmpFImmediate (g : Nat) (c : CmpOp) (f : FmtB) (s : State) : Out := runCmpB g (.cmpFImmediate g c f) f c .f32 s

/-- CMP_INT_IMMEDIATE (R589). -/
def execCmpIntImmediate (g : Nat) (c : CmpOp) (f : FmtB) (s : State) : Out := runCmpB g (.cmpIntImmediate g c f) f c .s32 s

/-- MOVI (R117). -/
def execMovi (g : Nat) (f : FmtB) (s : State) : Out :=
  issue g (.movi g f) (if f.uk then [] else [f.vd.toNat]) f.uk f.pi f.pn (fun m mask =>
    .go (m.results g f.uk f.vd false mask (fun _ => f.imm.toNat))) s

end Sys2Proof.Machine
end

