-- ==== Sys2Proof/Machine/Events.lean ====
section
/-! DEFINITION. Machine/Events.lean: the outstanding accesses of a group, what a fence or an acquire waits for, the event
instructions and events, TIDE.RD and IRQ.RAISE (R82, R87 to R90, R102, R121, R122, R128, R267, R268, R354). -/

namespace Sys2Proof.Machine

/-! What is outstanding (R121, R122, R267, R268). -/

/-- An outstanding access is a load. -/
def MemOp.isLoad (o : MemOp) : Bool := o.kind == .load

/-- An access has a lane that is not performed: at home where `remote` is false, so that a put or atomic to another device does
not count (R122). -/
def MemOp.unperformed (o : MemOp) (remote : Bool) : Bool :=
  o.lanes.any (fun l => !l.done && (remote || o.isLoad || (match l.tgt with | .window _ _ _ => false | _ => true)))

/-- A tensor instruction writes local memory. -/
def TOp.stores (t : TOp) : Bool := t.kind == .tstore

/-- Every access of a group with an identifier below `upto` is performed, its TSTOREs among them (R122, R142, R268; log 27). -/
def Mach.allPerformed (m : Mach) (g upto : Nat) (remote : Bool) : Bool :=
  m.ops.all (fun o => o.gid != g || decide (upto ≤ o.id) || !o.unperformed remote) &&
    (m.core (coreOf g)).tq.all (fun t => t.gid != g || decide (upto ≤ t.id) || !t.stores)

/-- Every load of a group is performed (R269). -/
def Mach.loadsPerformed (m : Mach) (g : Nat) : Bool := m.ops.all (fun o => o.gid != g || !o.isLoad || !o.unperformed true)

/-- Every store and atomic of a group is performed at its coherence point, those to another device and its TSTOREs among them (R164, R227,
R271, R354). -/
def Mach.storesPerformed (m : Mach) (g : Nat) : Bool :=
  m.ops.all (fun o => o.gid != g || o.isLoad || !o.unperformed true) && (m.core (coreOf g)).tq.all (fun t => t.gid != g || !t.stores)

/-- An access acquires, or releases (R121). -/
def ordAcq (o : MemOrd) : Bool := o == .acquire || o == .acqRel
def ordRel (o : MemOrd) : Bool := o == .release || o == .acqRel

/-- No acquire access of the group is outstanding: accesses and unit-issue instructions may issue (R267). DEDUCED: log 58. -/
def Mach.mayAccess (m : Mach) (g : Nat) : Bool := m.ops.all (fun o => o.gid != g || !ordAcq o.ord)

/-- Ends a group's FENCE.REL once what it waits for is performed (R122). -/
def Mach.wake (m : Mach) (g : Nat) : Mach :=
  match (m.grp g).wait with
  | .fence upto remote => if m.allPerformed g upto remote then m.modGrp g (fun x => { x with wait := .none }) else m
  | _ => m

/-- Notes that an operation of a launch has completed on a core (R91, R92). -/
def Mach.noteOp (m : Mach) (k core : Nat) : Mach :=
  if (m.krn k).live then m.modKrn k (fun x => { x with opTide := tput 0 x.opTide core (m.coreTide core) }) else m

/-- Ends a group's wait for an operation (R126). -/
def Mach.opDone (m : Mach) (g id : Nat) : Mach := if (m.grp g).wait == .op id then m.modGrp g (fun x => { x with wait := .none }) else m

/-- A unit-issue instruction: group-wide, after every outstanding acquire of the group (R85, R267). -/
def runS (g : Nat) (i : Instr) (f : FmtS) (rs : List Nat) (eff : Mach → Eff) (s : State) : Out :=
  issue g i rs true f.pi f.pn (fun m _ => if m.mayAccess g then eff m else .hold m) s

/-! Event counters (R87 to R90, R128). -/

/-- The counter of a core that a group's `EC` names, in the bank of its launch (R78). -/
def Mach.ctrOf (m : Mach) (g : Nat) (ec : BitVec 5) : Nat := 32 * (m.bankOf (m.krnOf g) (clusterOf (coreOf g))).getD 0 + ec.toNat

/-- The value of counter `c` of a core. -/
def Mach.ctrVal (m : Mach) (core c : Nat) : Word := tget 0 (m.core core).ctr c

/-- Consumes from a counter. -/
def Mach.consume (m : Mach) (core c : Nat) (t : Word) : Mach := m.modCore core (fun x => x.setCtr c (tget 0 x.ctr c - t) (m.coreTide core))

/-- EVT_INC (R87, R128). DEDUCED: log 56. -/
def execEvtInc (g : Nat) (f : FmtS) (s : State) : Out :=
  runS g (.evtInc g f) f [] (fun m => .go (m.incCtr (m.krnOf g) (coreOf g) f.ec.toNat f.imm.toNat)) s

/-- EVT_SIG (R90, R128): a signal to a cluster outside the partition is not sent. -/
def execEvtSig (g : Nat) (f : FmtS) (s : State) : Out :=
  runS g (.evtSig g f) f [] (fun m =>
    let k := m.krnOf g
    let x := m.krn k
    let u := m.uGet g f.ua.toNat
    let cluster := u / 256 % 64
    if !(m.part x.part).clusters.getLsbD cluster then .go (m.notice x.part x.num stInvalid)
    else
      .go { m.bumpId with sigs := m.sigs ++ [{ id := m.nextId, krn := k, part := x.part, src := coreOf g, core := 16 * cluster + u % 16,
                                               ec := f.ec.toNat, n := f.imm.toNat, lc := f.lc && x.lc }] }) s

/-- EVT_SIG_ARRIVAL (R89, R90, R96): a fenced core discards it; an instance that holds no bank there, or has ended, and a counter that
is neither device nor external take no increment, and the partition has a notice. DEDUCED: log 55. -/
def execEvtSigArrival (sig : Nat) (s : State) : Out :=
  s.run fun m =>
    match m.sigs.find? (fun x => x.id == sig) with
    | none => .next m
    | some x =>
      let m := { m with sigs := m.sigs.filter (fun y => y.id != sig) }
      let k := m.krn x.krn
      let m := if k.live then m.modKrn x.krn (fun k => { k with netTide := m.now }) else m
      if !m.coreLive x.core then .next m
      else if !k.live || (m.bankOf x.krn (clusterOf x.core)).isNone then .next (m.notice x.part k.num stInvalid)
      else if k.ctrKind x.ec < 2 then .next (m.notice x.part k.num stOk)
      else .next (m.incCtr x.krn x.core x.ec x.n)

/-- Tests one waiting group against its counter; a satisfied consuming wait subtracts (R87, R88). -/
def Mach.testWait (m : Mach) (core ctr g : Nat) : Mach :=
  match (m.grp g).wait with
  | .event c t cons _ pd _ =>
    if c == ctr && decide (t ≤ m.ctrVal core ctr) then
      ((if cons then m.consume core ctr t else m).pPut g pd 0xFFFFFFFF).modGrp g (fun x => { x with wait := .none })
    else m
  | _ => m

/-- Tests the groups of a core that wait on a counter, in age order (R88). -/
def Mach.testWaits (m : Mach) (core ctr : Nat) : Mach :=
  (sortBy (fun g => (m.grp g).age) ((groupSlots core).filter (fun g => (m.grp g).live))).foldl (fun m g => m.testWait core ctr g) m

/-- EVT_WAIT (R87, R88, R102, R128): the waits whose threshold a change of the counter has met come first; then a met threshold, or a
deadline already past, ends the wait at once. -/
def execEvtWait (g : Nat) (f : FmtS) (s : State) : Out :=
  runS g (.evtWait g f) f [] (fun m =>
    let core := coreOf g
    let m := m.testWaits core (m.ctrOf g f.ec)
    let c := m.ctrOf g f.ec
    let t : Word := BitVec.ofNat 32 (m.uGet g f.ua.toNat)
    let deadline := if f.dle then some (m.uPair g f.ub.toNat) else none
    if t ≤ m.ctrVal core c then
      .go ((if f.cons then m.consume core c t else m).pPut g f.pd.toNat 0xFFFFFFFF)
    else if deadline.any (fun d => decide (d ≤ m.coreTide core)) then .go (m.pPut g f.pd.toNat 0)
    else
      .go (m.modGrp g (fun x => { x with wait := .event c t f.cons deadline f.pd.toNat (m.coreTide core) }))) s

/-- EVT_WAIT_SATISFIED (R88): the groups that wait on the counter are tested in age order. -/
def execEvtWaitSatisfied (core ctr : Nat) (s : State) : Out :=
  s.run fun m =>
    if 1024 ≤ core || 64 ≤ ctr then .refused .noSuchUnit
    else .next (m.testWaits core ctr)

/-- EVT_WAIT_DEADLINE (R87, R88): the wait ends with its predicate false, unless its threshold is met when the waits are tested. -/
def execEvtWaitDeadline (g : Nat) (s : State) : Out :=
  s.run fun m =>
    if 49152 ≤ g then .refused .noSuchUnit
    else
      match (m.grp g).wait with
      | .event c _ _ (some d) pd _ =>
        let m1 := m.testWaits (coreOf g) c
        gate m ((m.grp g).live && decide (d ≤ m.coreTide (coreOf g)))
          (if (m1.grp g).wait == .none then m1 else (m1.pPut g pd 0).modGrp g (fun x => { x with wait := .none }))
      | _ => .next m

/-- EVT_READ (R128): after the waits that the counter's changes have met (R88). -/
def execEvtRead (g : Nat) (f : FmtS) (s : State) : Out :=
  runS g (.evtRead g f) f [] (fun m =>
    let m := m.testWaits (coreOf g) (m.ctrOf g f.ec)
    .go (m.uPut g f.ua.toNat (m.ctrVal (coreOf g) (m.ctrOf g f.ec)).toNat)) s

/-- TIDE_RD (R128). -/
def execTideRd (g : Nat) (f : FmtS) (s : State) : Out :=
  runS g (.tideRd g f) f [] (fun m => .go (m.uPairPut g f.ua.toNat (m.coreTide (coreOf g)))) s

/-- IRQ_RAISE (R354): a runtime vector, once the group's stores are performed; another number sends nothing but the notice. -/
def execIrqRaise (g : Nat) (f : FmtS) (s : State) : Out :=
  runS g (.irqRaise g f) f [] (fun m =>
    let p := (m.krn (m.krnOf g)).part
    let v := m.uGet g f.ua.toNat
    if !m.storesPerformed g then .hold m
    else if v < 5 || decide ((m.part p).msix ≤ v) then .go (m.notice p (m.krn (m.krnOf g)).num stInvalid)
    else if (m.part p).st == .running then .go (m.sendMsix (m.vfKey p) (m.part p).link v)
    else .go m) s

/-- FENCE_REL (R122, R268): the group waits until its earlier accesses are performed. DEDUCED: log 56. -/
def execFenceRel (g : Nat) (f : FmtS) (s : State) : Out :=
  runS g (.fenceRel g f) f [] (fun m =>
    if m.allPerformed g m.nextId (f.scope == .system) then .go m
    else .go (m.modGrp g (fun x => { x with wait := .fence m.nextId (f.scope == .system) }))) s

end Sys2Proof.Machine
end

