-- ==== Sys2Proof/Machine/Wire.lean ====
section
/-! DEFINITION. Machine/Wire.lean: YLP frames leaving the device, and the remote operations that await their answers (R420 to
R424, R427 to R429, R433, R434, R440). -/

namespace Sys2Proof.Machine

/-- A frame of zeros whose checks are good. -/
def frame0 : Frame :=
  { op := 0, vc := 0, lc := false, seq := 0, hops := 0, dst := 0, mc := false, dstPart := 0, src := 0, srcPart := 0, domain := 0, tag := 0,
    aop := 0, size := 0, status := 0, addr := 0, first := 0, last := 0, lines := [], crcOk := true, gcmOk := true }

/-- Frame operations (Table 16.2). -/
def opPut : Nat := 1
def opMput : Nat := 2
def opGet : Nat := 3
def opBget : Nat := 4
def opAtom : Nat := 5
def opRed : Nat := 6
def opEvt : Nat := 7
def opMbox : Nat := 8
def opCmp : Nat := 9

/-- The payload of a frame, and the whole frame, in bytes (R420). -/
def payloadLen (f : Frame) : Nat := 64 * f.lines.length
def frameLen (f : Frame) : Nat := 52 + payloadLen f + (2 * f.lines.length + 7) / 8 * 8

/-- The queue of frames that the device addresses to itself (R427; log 28). -/
def loopKey : Nat := 2 ^ 20

/-- An entry that is not VALID. -/
def route0 : Route := { links := 0, valid := false, dateline := false, isLocal := false, ip := 0 }

/-- The route entry of a destination (R426, R427). -/
def Mach.routeOf (m : Mach) (mc : Bool) (dst : Nat) : Route :=
  if mc then tget route0 m.links.group (dst % 4096) else tget route0 m.links.unicast dst

/-- A link carries frames: it is up, or it retrains on fewer lanes and holds them (R419). -/
def YLink.carries (x : YLink) : Bool := x.st == .up || x.degrading

/-- The links of a route entry that carry frames. DEDUCED: log 72. -/
def Mach.upLinks (m : Mach) (r : Route) : List Nat := (List.range 12).filter (fun l => r.valid && r.links.getLsbD l && (m.ylink l).carries)

/-- The key of the retry state that a frame uses on a link: the link's, or the peer's in mode 2 (R429). -/
def Mach.peerKeyOf (m : Mach) (l : Nat) (f : Frame) : Nat :=
  if (m.ylink l).mode = 2 then 12 + (if f.mc then 2 ^ 17 + f.dst.toNat % 4096 else f.dst.toNat) else l

/-- The retry buffer has room for a frame (R423). -/
def Mach.hasRoom (m : Mach) (l : Nat) (f : Frame) : Bool :=
  decide (total ((m.peer (m.peerKeyOf l f)).buf.map frameLen) + frameLen f ≤ 262144)

/-- One more frame sent: the transmit counter advances; at 2^48 the next key epoch begins at 1 (R422, R498). -/
def Peer.count (p : Peer) : Peer :=
  if p.txCount + 1 = 2 ^ 48 then { p with txCount := 1, txEpoch := p.txEpoch + 1 } else { p with txCount := p.txCount + 1 }

/-- The receiver accepts a frame's counter: greater than the last one it accepted in the epoch, or of the next epoch (R422, R498). -/
def Peer.fresh (p : Peer) (f : Frame) : Bool := (f.epoch == p.rxEpoch && decide (p.rxCount < f.count)) || f.epoch == p.rxEpoch + 1

/-- One more frame accepted; one of the next epoch ends the current one. -/
def Peer.accept (p : Peer) (f : Frame) : Peer := { p with rxSeq := p.rxSeq + 1, gcm := 0, rxCount := f.count, rxEpoch := f.epoch }

/-! The bytes of a frame (Table 16.1, R422, R429, R498, R499). -/

/-- The 32-byte header, which is authenticated; acknowledgements travel by themselves here (log 66). -/
def headerBytes (f : Frame) : List Byte :=
  leBytes 1 (f.op.toNat + 16 * f.vc.toNat + 64 * f.lc.toNat) ++ leBytes 1 f.lines.length ++ leBytes 2 f.seq.toNat ++ leBytes 2 0 ++
    leBytes 1 f.hops.toNat ++ [0] ++ leBytes 4 (f.dst.toNat + 2 ^ 17 * f.mc.toNat + 2 ^ 18 * f.dstPart.toNat) ++
    leBytes 4 (f.src.toNat + 2 ^ 17 * f.srcPart.toNat) ++ leBytes 4 f.domain.toNat ++ leBytes 2 f.tag.toNat ++
    leBytes 1 (f.aop.toNat + 16 * f.size.toNat) ++ leBytes 1 f.status.toNat ++
    leBytes 8 (f.addr.toNat + 2 ^ 52 * f.first.toNat + 2 ^ 58 * f.last.toNat)

/-- The Tail that a payload line travels with; of a line whose Tail does not match, one that is neither its Tail nor its poison Tail. -/
def travelTail (e : LineData × TailState) : BitVec 16 :=
  match e.2 with
  | .good => tailOf e.1
  | .poison => carriedTail e.1 true
  | .mismatch => tailOf e.1 ^^^ 1

/-- What is encrypted: the payload lines, and their Tails padded to 8 bytes. -/
def frameText (f : Frame) : List Byte :=
  let tails := f.lines.flatMap (fun e => leBytes 2 (travelTail e).toNat)
  f.lines.flatMap (fun e => lineBytes e.1) ++ tails ++ List.replicate ((8 - tails.length % 8) % 8) 0

/-- The device that shares a frame's key: its destination on a mode 2 link, else the one at the other end of the link (R429, R498). -/
def Mach.keyMate (m : Mach) (l : Nat) (f : Frame) : Nat := if (m.ylink l).mode = 2 then f.dst.toNat else Config.neighbour l

/-- A frame's bytes on a link: the header, the sealed payload and Tails with their tag, and the CRC-32 over all of them. -/
def Mach.wire (m : Mach) (l : Nat) (f : Frame) : List Byte :=
  let mate := m.keyMate l f
  let dir := if m.links.devId < mate then 0 else 1
  let key := Config.linkKey (m.ylink l).fabric (Nat.min m.links.devId mate) (Nat.max m.links.devId mate) dir f.epoch
  let nonce := leBytes 4 (f.epoch + 2 ^ 31 * dir) ++ leBytes 8 f.count
  let h := headerBytes f
  let b := h ++ Config.gcmSeal key nonce h (frameText f)
  b ++ leBytes 4 (crc32 b).toNat

/-- The IPv6 address of link `l`: the fabric prefix, then the device ID in bits [16:0] and the link in bits [23:20] (R499). -/
def Mach.linkIp (m : Mach) (l : Nat) : BitVec 128 := BitVec.ofNat 128 ((m.ylink l).pfx.toNat * 2 ^ 64 + 2 ^ 20 * l + m.links.devId % 2 ^ 17)

/-- A sum of bytes as big-endian 16-bit words, an odd last byte the high half of one. -/
def sum16 : List Byte → Nat
  | [] => 0
  | [a] => 256 * a.toNat
  | a :: b :: l => 256 * a.toNat + b.toNat + sum16 l

/-- Carries of a ones' complement sum folded in. -/
def fold16 (n : Nat) : Nat := let n := n % 65536 + n / 65536; let n := n % 65536 + n / 65536; n % 65536 + n / 65536

/-- The datagram of a frame's bytes on a mode 2 link, its UDP checksum computed over the IPv6 pseudo-header (R429). -/
def Mach.datagram (m : Mach) (l : Nat) (f : Frame) (bytes : List Byte) : Option Datagram :=
  if (m.ylink l).mode != 2 then none
  else
    let src := m.linkIp l
    let dst := (m.routeOf f.mc f.dst.toNat).ip
    let port := (m.ylink l).port
    let n := 8 + bytes.length
    let sum := fold16 (sum16 (beBytes 16 src.toNat ++ beBytes 16 dst.toNat ++ beBytes 4 n ++ beBytes 4 17 ++ beBytes 2 port ++ beBytes 2 port ++
      beBytes 2 n ++ beBytes 2 0 ++ bytes))
    some { src := src, dst := dst, port := port, checksum := if sum = 65535 then 0xFFFF else BitVec.ofNat 16 (65535 - sum) }

/-- Puts a frame on a link: the transmit counter advances, retransmissions included (R422). -/
def Mach.putFrame (m : Mach) (k l : Nat) (f : Frame) : Mach :=
  let m := m.modPeer k Peer.count
  let f := { f with epoch := (m.peer k).txEpoch, count := (m.peer k).txCount }
  let bytes := m.wire l f
  (m.modYlink l (fun x => { x with sent := x.sent + frameLen f })).emit (.frame l f bytes (m.datagram l f bytes))

/-- Sends a frame on a link under the next SEQ, and keeps it for retry; a link that retrains on fewer lanes holds it (R419, R422, R423). -/
def Mach.transmit (m : Mach) (l : Nat) (f : Frame) : Mach :=
  let k := m.peerKeyOf l f
  let f := { f with seq := (m.peer k).txSeq, vc := if (m.routeOf f.mc f.dst.toNat).dateline then f.vc ||| 1 else f.vc }
  let m := m.modPeer k (fun p =>
    { p with txSeq := p.txSeq + 1, buf := p.buf ++ [f], lastTx := m.now, tries := if p.buf.isEmpty then 0 else p.tries, link := l })
  if (m.ylink l).st == .up then m.putFrame k l f else m

/-- Charges a frame's payload to a partition at egress: the transmit bucket of the link's X die, and BYTES_LINK_TX where it is
not a resend (R440). -/
def Mach.chargeTx (m : Mach) (p l n : Nat) (again : Bool) : Mach :=
  let m := m.spend p 2 (l / 6) n
  if again then m else m.account p 4 n

/-- The flow that a frame belongs to: its origin, its destination and the 64 KiB granule of its address (R427). -/
def flowKey (f : Frame) : Nat := (f.src.toNat * 2 ^ 17 + f.dst.toNat) * 2 ^ 36 + f.addr.toNat / 65536

/-- The link that a unicast frame takes among those of its route: the one that its flow took, while it carries frames; else one chosen by a
hash (R427). DESIGN CHOICE: log 70. -/
def Mach.pickLink (m : Mach) (f : Frame) (ups : List Nat) : Nat :=
  let old := tget 0 m.links.flows (flowKey f)
  if old != 0 && ups.contains (old - 1) then old - 1
  else nth 0 ups (Config.linkHash f.src.toNat f.dst.toNat (f.addr.toNat / 65536) % ups.length)

/-- Sends a frame on one link and notes it as its flow's. -/
def Mach.sendOn (m : Mach) (l : Nat) (f : Frame) (p : Nat) (again : Bool) : Mach :=
  ((m.transmit l f).chargeTx p l (payloadLen f) again).modLinks (fun x => { x with flows := tput 0 x.flows (flowKey f) (l + 1) })

/-- What sending a frame meets. -/
inductive Egress where
  | sent (m : Mach)
  /-- A retry buffer has no room. -/
  | full
  /-- The entry is not VALID or has no up link (R427). -/
  | noRoute

/-- Sends a frame of a partition (0 for none): to itself, on one up link of its route, or, for a group, on every one (R427,
R428). -/
def Mach.egress (m : Mach) (f : Frame) (p : Nat) (again : Bool) : Egress :=
  if !f.mc && f.dst.toNat == m.links.devId then
    .sent (m.modPeer loopKey (fun q => { q with buf := q.buf ++ [f] }))
  else
    let ups := m.upLinks (m.routeOf f.mc f.dst.toNat)
    if ups.isEmpty then .noRoute
    else if f.mc then
      if ups.all (fun l => m.hasRoom l f) then
        .sent (ups.foldl (fun m l => (m.transmit l f).chargeTx p l (payloadLen f) again) m)
      else .full
    else
      let l := m.pickLink f ups
      if m.hasRoom l f then .sent (m.sendOn l f p again) else .full

/-- A tag that no outstanding operation bears (R420). -/
def Mach.freeTag (m : Mach) : Nat :=
  if m.links.remotes.all (fun r => r.tag != m.links.nextTag) then m.links.nextTag
  else ((List.range 65536).find? (fun t => m.links.remotes.all (fun r => r.tag != t))).getD 0

/-- A frame of a partition's launch to a window: destination, partition, class and domain filled in (R421, R430, R431). -/
def Mach.windowFrame (m : Mach) (part krn word va op : Nat) : Frame :=
  { frame0 with
    op := BitVec.ofNat 4 op, lc := (m.krn krn).lc, hops := 32, dst := BitVec.ofNat 17 (winDst word), mc := winMulticast word,
    dstPart := BitVec.ofNat 7 (winPart word), src := BitVec.ofNat 17 m.links.devId, srcPart := BitVec.ofNat 7 part,
    domain := (m.part part).domain, addr := BitVec.ofNat 52 va }

/-- A payload line as egress sends it: one whose Tail does not match leaves with the poison Tail (R435). -/
def sentLine (e : LineData × TailState) : LineData × TailState := (e.1, if e.2 == .mismatch then .poison else e.2)

/-- The egress of a frame that the device makes: the Tail of every payload line is checked before framing, and a mismatch is logged at the
origin (R435). -/
def Mach.originate (m : Mach) (f : Frame) (p : Nat) : Egress :=
  match m.egress { f with lines := f.lines.map sentLine } p false with
  | .sent m => .sent (if f.lines.any (fun e => e.2 == .mismatch) then m.event (Config.rasCode 13).1 (Config.rasCode 13).2 else m)
  | e => e

/-- Sends a request and records it until its CMP arrives; an MPUT awaits none (R433, R434). -/
def Mach.request (m : Mach) (f : Frame) (part krn : Nat) (who : RemoteFor) : Egress :=
  let tag := m.freeTag
  let f := { f with tag := BitVec.ofNat 16 tag }
  match m.originate f part with
  | .sent m =>
    if f.mc then .sent m
    else
      .sent (m.modLinks (fun x =>
        { x with nextTag := (tag + 1) % 65536,
                 remotes := x.remotes ++ [{ tag := tag, frame := { f with lines := f.lines.map sentLine }, part := part, krn := krn, who := who, sentAt := m.now, busyAt := 0,
                                            holding := false, flown := 0 }] }))
  | e => e

/-- The payload lines of bytes that start at an address (Table 16.1): the bytes before and after are zero. -/
def payloadOf (va : Nat) (bytes : List Byte) : List (LineData × TailState) :=
  let n := (va % 64 + bytes.length + 63) / 64
  let all := List.replicate (va % 64) 0 ++ bytes
  (List.range n).map (fun i => (lineOf (slice all (64 * i) 64 ++ List.replicate 64 0), .good))

/-- A frame that carries bytes to an address, with their range (R431). -/
def withBytes (f : Frame) (va : Nat) (bytes : List Byte) : Frame :=
  { f with first := BitVec.ofNat 6 va, last := BitVec.ofNat 6 (va + bytes.length - 1), lines := payloadOf va bytes }

/-- A frame that names bytes of one line and carries none. -/
def withRange (f : Frame) (va n : Nat) : Frame := { f with first := BitVec.ofNat 6 va, last := BitVec.ofNat 6 (va + n - 1) }

end Sys2Proof.Machine
end

