-- ==== Sys2Proof/Machine/Access.lean ====
section
/-! DEFINITION. Machine/Access.lean: how the lanes of an access are performed: L1, RLC, home, host and local memory, and how an access
ends (R120, R121, R124, R142, R208, R237, R238, R263 to R268, R284, R525 to R532, R590). -/

namespace Sys2Proof.Machine

/-! The L1 data cache (R208, R590). -/

/-- The set of a line: PA[13:6]. -/
def l1Set (line : Nat) : Nat := line % 256

/-- The key of the way that holds a line. -/
def Core.l1Way (c : Core) (line : Nat) : Option Nat :=
  (List.range 8).find? (fun w => match tfind c.l1 (8 * l1Set line + w) with | some x => x.valid && x.line == line | none => false)

/-- The data of a line that the L1 holds. -/
def Core.l1Data (c : Core) (line : Nat) : Option LineData :=
  (c.l1Way line).bind (fun w => (tfind c.l1 (8 * l1Set line + w)).map (·.data))

/-- The pseudo-LRU bits after a use of way `w`: the bits on its path point away from it. -/
def plruAway (b : BitVec 7) (w : Nat) : BitVec 7 :=
  let put := fun (b : BitVec 7) (i : Nat) (v : Bool) => if v then b ||| (1#7 <<< i) else b &&& ~~~(1#7 <<< i)
  let b := put b 0 (decide (w < 4))
  if w < 4 then put (put b 1 (decide (w < 2))) (3 + w / 2) (w % 2 == 0)
  else put (put b 2 (decide (w < 6))) (5 + (w - 4) / 2) (w % 2 == 0)

/-- The way that the bits lead to. -/
def plruVictim (b : BitVec 7) : Nat :=
  let x := fun i => if b.getLsbD i then 1 else 0
  if x 0 = 0 then (if x 1 = 0 then x 3 else 2 + x 4) else 4 + (if x 2 = 0 then x 5 else 2 + x 6)

/-- A load hit on a way, or the allocation of one. -/
def Core.l1Use (c : Core) (line w : Nat) : Core := { c with plru := tput 0 c.plru (l1Set line) (plruAway (tget 0 c.plru (l1Set line)) w) }

/-- Allocates a line: the lowest invalid way, else the one that the bits lead to. -/
def Core.l1Fill (c : Core) (line : Nat) (d : LineData) : Core :=
  let s := l1Set line
  let w := match (List.range 8).find? (fun w => (tfind c.l1 (8 * s + w)).isNone) with
    | some w => w
    | none => plruVictim (tget 0 c.plru s)
  ({ c with l1 := tins c.l1 (8 * s + w) { valid := true, line := line, data := d } } : Core).l1Use line w

/-- A store updates the copy it hits (R120). DEDUCED: log 61. -/
def Core.l1Patch (c : Core) (line : Nat) (d : LineData) (mask : DWord) : Core :=
  match c.l1Way line, c.l1Data line with
  | some w, some old => { c with l1 := tins c.l1 (8 * l1Set line + w) { valid := true, line := line, data := mergeLine old d mask } }
  | _, _ => c

/-- Invalidates lines of the L1 (R122): no bit changes. -/
def Core.l1Drop (c : Core) (hit : Nat → Bool) : Core := { c with l1 := c.l1.filter (fun e => !hit e.2.line) }

/-! Order among accesses (R142, R264, R266). -/

/-- The line key by which ACCESS_PERFORMED names a lane: a device line, or a host line at `hostKey`. -/
def Target.lineKey : Target → Option Nat
  | .hbm pa => some (pa / 64)
  | .host ha => some (hostKey (ha / 64))
  | _ => none

/-- Two places share a byte. -/
def clash (a : Target) (la : Nat) (b : Target) (lb : Nat) : Bool :=
  match a, b with
  | .hbm x, .hbm y => overlap x la y lb
  | .host x, .host y => overlap x la y lb
  | .localMem x, .localMem y => overlap x la y lb
  | .window d _ x, .window e _ y => d == e && overlap x la y lb
  | _, _ => false

/-- A lane may be performed as far as its group's program order goes: no earlier access of the group to its bytes is outstanding
(R266), and for local memory no earlier local access at all (R142). -/
def Mach.inOrder (m : Mach) (o : MemOp) (l : LaneAcc) : Bool :=
  m.ops.all (fun x => x.gid != o.gid || decide (o.id ≤ x.id) ||
    x.lanes.all (fun y => y.done || !(clash y.tgt x.bytes l.tgt o.bytes || (o.isLocal && x.isLocal)))) &&
    (!o.isLocal || (m.core o.core).tq.all (fun t => t.gid != o.gid || decide (o.id ≤ t.id)))

/-- A release waits until every earlier access of the group is performed (R121, R268). -/
def Mach.released (m : Mach) (o : MemOp) : Bool := !ordRel o.ord || m.allPerformed o.gid o.id false

/-- An older store of the core to a line is outstanding (R264). -/
def Mach.storePending (m : Mach) (o : MemOp) (line : Nat) : Bool :=
  m.ops.any (fun x => x.core == o.core && decide (x.id < o.id) && !x.isLoad && x.lanes.any (fun y => !y.done && y.tgt.lineKey == some line))

/-! Loads. -/

/-- What one lane's load meets. -/
inductive LaneRes where
  | ok (data : Nat) (m : Mach)
  | poison (line : Nat) (m : Mach)
  | waits (m : Mach)

/-- An access that waited when its line arrived at an RLC has been performed (R248). -/
def Mach.servedFirst (m : Mach) (rlc line op : Nat) : Mach := m.modMem (fun a => { a with first := a.first.filter (fun x => x != (rlc, line, op)) })

/-- A load of bytes of a device line by a core (R120, R208, R215, R264): from the L1, the RLC of the core's half or the home slice. -/
def Mach.loadHbm (m : Mach) (o : MemOp) (pa : Nat) (noFill : Bool) : LaneRes :=
  let line := pa / 64
  let h := halfOfCore o.core
  let get := fun (d : LineData) => ofLe (slice (lineBytes d) (pa % 64) o.bytes)
  let fill := fun (d : LineData) (m : Mach) =>
    if o.space == .global && !ordAcq o.ord && !noFill then m.modCore o.core (·.l1Fill line d) else m
  match (if ordAcq o.ord then none else (m.core o.core).l1Way line), (m.core o.core).l1Data line with
  | some w, some d => if m.storePending o line then .waits m else .ok (get d) (m.modCore o.core (·.l1Use line w))
  | _, _ =>
    if remoteFor h line then
      match m.rlcLine h line with
      | some l =>
        let m := (m.rlcTouch h line l).servedFirst h line o.id
        if l.poison then .poison line m else .ok (get l.data) (fill l.data m)
      | none => .waits m
    else
      match m.cohRead line o.part true with
      | .done (d, po) m => if po then .poison line m else .ok (get d) (fill d m)
      | .waits m => .waits m

/-- The load of one lane. -/
def Mach.loadLane (m : Mach) (o : MemOp) (l : LaneAcc) : LaneRes :=
  if !m.inOrder o l then .waits m
  else
    match l.tgt with
    | .localMem off => .ok (ofLe (getBytes (m.core o.core).loc off o.bytes)) m
    | .hbm pa => m.loadHbm o pa l.noFill
    | .host ha =>
      match m.hostRead (m.spaceLink o.part) ha o.bytes o.part with
      | .done (b, po) m => if po then .poison (hostKey (ha / 64)) m else .ok (ofLe b) m
      | .waits m => .waits m
    | .window _ _ _ => .waits m

/-- Changes an access that is in flight. -/
def Mach.modOp (m : Mach) (id : Nat) (f : MemOp → MemOp) : Mach :=
  { m with ops := m.ops.map (fun (o : MemOp) => if o.id == id then f o else o) }

/-- Writes the outcome of a lane. -/
def MemOp.setLane (o : MemOp) (lane : Nat) (f : LaneAcc → LaneAcc) : MemOp :=
  { o with lanes := o.lanes.map (fun (l : LaneAcc) => if l.lane == lane then f l else l) }

/-- Performs the loads of the lanes that a test picks: the poisoned lane met, if any, and whether every picked lane is performed. -/
def Mach.loadLanes (m : Mach) (o : MemOp) (pick : LaneAcc → Bool) : Option (Nat × LaneAcc) × Bool × Mach :=
  (o.lanes.filter (fun l => !l.done && pick l)).foldl (fun acc l =>
    match acc with
    | (none, good, m) =>
      match m.loadLane o l with
      | .ok d m => (none, good, m.modOp o.id (·.setLane l.lane (fun x => { x with data := BitVec.ofNat 128 d, done := true })))
      | .poison line m => (some (line, l), good, m)
      | .waits m => (none, false, m)
    | r => r) (none, true, m)

/-! Stores. -/

/-- The bytes of an operand. -/
def LaneAcc.bytes (l : LaneAcc) (n : Nat) : List Byte := leBytes n l.data.toNat

/-- The line image and byte mask of a list of store lanes: the highest-numbered lane's value wins (R120). -/
def storeImage (ls : List LaneAcc) (n : Nat) : LineData × DWord :=
  ls.foldl (fun acc l =>
    let o := (match l.tgt with | .hbm pa => pa | .host ha => ha | .window _ _ va => va | .localMem x => x) % 64
    let mask := maskOf o n
    (mergeLine acc.1 (placeBytes o (l.bytes n)) mask, acc.2 ||| mask)) (0, 0)

/-- The line carries poison where an access of core half `h` finds it. -/
def Mach.poisonedAt (m : Mach) (h line : Nat) : Bool :=
  if remoteFor h line then (match m.rlcLine h line with | some l => l.poison | none => false)
  else (match tfind m.mem.llc line with | some l => l.poison | none => false)

/-- A store of a core to a device line: at the RLC of the core's half, which holds it in M or E, or at its home (R238). -/
def Mach.storeHbm (m : Mach) (o : MemOp) (line : Nat) (d : LineData) (mask : DWord) (bad : Bool) : Perf Unit :=
  let h := halfOfCore o.core
  let num := (m.krn o.krn).num
  let patch := fun (m : Mach) => if m.poisonedAt h line then m else m.modCore o.core (·.l1Patch line d mask)
  if remoteFor h line then
    match m.rlcLine h line with
    | some l =>
      if l.st == .m || l.st == .e then
        .done () (patch ((m.rlcStore h line o.part num l d mask bad).servedFirst h line o.id))
      else .waits m
    | none => .waits m
  else
    match m.cohWrite line o.part num d mask bad true with
    | .done _ m => .done () (patch m)
    | .waits m => .waits m

/-! Atomics (R124, R252). -/

/-- The atomic of one lane on a device line. DEDUCED: log 60. -/
def Mach.atomHbm (m : Mach) (o : MemOp) (op : AtomOp) (l : LaneAcc) (pa : Nat) (bad : Bool) : Perf AtomRes :=
  match m.cohAtom (pa / 64) o.part op (faddN o.bytes) (pa % 64) o.bytes
      (if op == .cas then l.swap.toNat else l.data.toNat) (if op == .cas then l.data.toNat else 0) bad with
  | .done r m =>
    match r, tfind m.mem.llc (pa / 64) with
    | .old _, some x => .done r (m.modCore o.core (·.l1Patch (pa / 64) x.data (maskOf (pa % 64) o.bytes)))
    | _, _ => .done r m
  | .waits m => .waits m

/-- An atomic on host memory for a partition: on a cached line in E or M, else as a read and a write of the host's (R254; log 30). -/
def Mach.hostAtom (m : Mach) (part : Nat) (op : AtomOp) (bytes opnd cmp ha : Nat) (bad : Bool) : Perf AtomRes :=
  let link := m.spaceLink part
  let new := fun old => leBytes bytes (atomNew op (8 * bytes) (faddN bytes) old opnd cmp)
  if bad then .done .mismatch m
  else if m.hostCached link then
    match m.hostLine (ha / 64) part true with
    | .done (d, po) m =>
      if po then .done .poisoned m
      else
        let old := ofLe (slice (lineBytes d) (ha % 64) bytes)
        .done (.old old) (m.hostLinePut (ha / 64) (mergeLine d (placeBytes (ha % 64) (new old)) (maskOf (ha % 64) bytes)) false)
    | .waits m => .waits m
  else
    match m.hostRead link ha bytes part with
    | .done (b, _) m =>
      match m.hostWrite link ha (new (ofLe b)) part with
      | .done _ m => .done (.old (ofLe b)) m
      | .waits m => .waits m
    | .waits m => .waits m

/-- The operand and the compare value of a lane's atomic (R113, R124). -/
def LaneAcc.opnd (l : LaneAcc) (op : AtomOp) : Nat := if op == .cas then l.swap.toNat else l.data.toNat
def LaneAcc.cmp (l : LaneAcc) (op : AtomOp) : Nat := if op == .cas then l.data.toNat else 0

/-! The end of an access (R126, R263, R274). -/

/-- An access leaves: its increment, the L1 invalidation of an acquire, and what waited for it. -/
def Mach.endOp (m : Mach) (o : MemOp) : Mach :=
  let m := { m with ops := m.ops.filter (fun (x : MemOp) => x.id != o.id) }
  let m := if ordAcq o.ord then m.dropL1 o.core else m
  (((m.noteOp o.krn o.core).complete o.eve o.krn o.core o.ec).wake o.gid).endInvalidations

/-- A store or reduction whose lanes are all performed is complete; a group's fence may end when any access is performed. -/
def Mach.settleOp (m : Mach) (id : Nat) : Mach :=
  match m.ops.find? (fun o => o.id == id) with
  | none => m
  | some o =>
    match o.kind with
    | .store | .red _ => if o.lanes.all (·.done) then m.endOp o else m.wake o.gid
    | _ => m.wake o.gid

/-- Stops the launch of an access for a fault, at the lane's address. -/
def Mach.faultOp (m : Mach) (o : MemOp) (code : Nat) (l : LaneAcc) : Mach :=
  let m := { m with ops := m.ops.filter (fun (x : MemOp) => x.id != o.id) }
  m.endInvalidations.abortKrn o.krn code (some l.addr)

/-- Marks lanes performed. -/
def Mach.doneLanes (m : Mach) (o : MemOp) (ls : List LaneAcc) : Mach :=
  m.modOp o.id (fun x => { x with lanes := x.lanes.map (fun (l : LaneAcc) => if ls.any (fun y => y.lane == l.lane) then { l with done := true } else l) })

/-- The stores of lanes that lie in one line, or in local memory. DEDUCED: log 61. -/
def Mach.performStore (m : Mach) (o : MemOp) (ls : List LaneAcc) (key : Nat) (bad : Bool) : Perf Unit :=
  if o.isLocal then
    .done () (ls.foldl (fun m l =>
      match l.tgt with
      | .localMem off => m.modCore o.core (fun c => { c with loc := putBytes c.loc off (l.bytes o.bytes) })
      | _ => m) m)
  else
    let im := storeImage ls o.bytes
    if key < 2 ^ 46 then m.storeHbm o key im.1 im.2 bad
    else if bad && !m.hostCached (m.spaceLink o.part) then .done () m
    else
      ls.foldl (fun (acc : Perf Unit) l =>
        match acc, l.tgt with
        | .done _ m, .host ha =>
          match m.hostWrite (m.spaceLink o.part) ha (l.bytes o.bytes) o.part with
          | .done _ m =>
            .done () (if bad then m.modMem (fun a =>
              match tfind a.llc key with | some x => { a with llc := tins a.llc key { x with poison := true } } | none => a) else m)
          | .waits m => .waits m
        | r, _ => r) (.done () m)

/-- Performs the store lanes of an access that lie in line `key` (all of them for local memory). -/
def Mach.runStore (m : Mach) (o : MemOp) (ls : List LaneAcc) (key : Nat) (bad : Bool) : Mach :=
  match m.performStore o ls key bad with
  | .waits m => m
  | .done _ m =>
    let m := (m.doneLanes o ls).settleOp o.id
    match bad && !o.isLocal, ls with
    | true, l :: _ => m.abortKrn o.krn fTail (some l.addr)
    | _, _ => m

/-- Performs atomic lanes in ascending order (R124). DEDUCED: log 60. -/
def Mach.runAtoms (m : Mach) (o : MemOp) (op : AtomOp) (isRed bad : Bool) : List LaneAcc → Mach
  | [] => m.settleOp o.id
  | l :: ls =>
    let r : Perf AtomRes := match l.tgt with
      | .hbm pa => m.atomHbm o op l pa bad
      | .host ha => m.hostAtom o.part op o.bytes (l.opnd op) (l.cmp op) ha bad
      | .localMem off =>
        let old := ofLe (getBytes (m.core o.core).loc off o.bytes)
        let new := atomNew op (8 * o.bytes) (faddN o.bytes) old (if op == .cas then l.swap.toNat else l.data.toNat)
          (if op == .cas then l.data.toNat else 0)
        .done (.old old) (m.modCore o.core (fun c => { c with loc := putBytes c.loc off (leBytes o.bytes new) }))
      | .window _ _ _ => .waits m
    match r with
    | .waits m => m
    | .done (.old v) m =>
      (m.modOp o.id (·.setLane l.lane (fun x => { x with data := BitVec.ofNat 128 v, done := true }))).runAtoms o op isRed bad ls
    | .done .mismatch m => m.faultOp o fTail l
    | .done .poisoned m =>
      if isRed then
        let m := match l.tgt with | .hbm pa => m.discarded (pa / 64) o.part (m.krn o.krn).num | _ => m
        (m.modOp o.id (·.setLane l.lane (fun x => { x with done := true }))).runAtoms o op isRed bad ls
      else
        let num := (m.krn o.krn).num
        let m := match l.tgt with
          | .hbm pa => m.deferred 0x11 (pa / 64) o.part num
          | .host ha => m.hostPoison ha o.part num
          | _ => m
        m.faultOp o fPoison l

/-! Accesses to another device (R431). -/

/-- The atomic operation's code (R420). -/
def aopCode : AtomOp → Nat
  | .add => 0 | .mins => 1 | .minu => 2 | .maxs => 3 | .maxu => 4 | .and => 5 | .or => 6 | .xor => 7 | .xchg => 8 | .cas => 9 | .fadd => 10

/-- The operand line of an atomic: the operand from byte 0, and the compare value of CAS from byte 8 (DESIGN CHOICE, log 31). -/
def opndLine (op : AtomOp) (l : LaneAcc) (n : Nat) : LineData :=
  if op == .cas then lineOf (leBytes n l.swap.toNat ++ List.replicate (8 - n) 0 ++ leBytes n l.data.toNat ++ List.replicate 56 0)
  else lineOf (leBytes n l.data.toNat ++ List.replicate 64 0)

/-- A frame whose payload lines no longer match their Tails, where `bad`. -/
def spoilFrame (bad : Bool) (f : Frame) : Frame := if bad then { f with lines := f.lines.map (fun e => (e.1, .mismatch)) } else f

/-- The frame of one lane of an access to a window. -/
def Mach.laneFrame (m : Mach) (o : MemOp) (l : LaneAcc) (word va : Nat) : Frame :=
  let f := fun op => { m.windowFrame o.part o.krn word va op with size := BitVec.ofNat 3 (Nat.log2 o.bytes) }
  let atom := fun (op : AtomOp) (code : Nat) =>
    { withRange (f code) va o.bytes with aop := BitVec.ofNat 4 (aopCode op), lines := [(opndLine op l o.bytes, .good)] }
  match o.kind with
  | .load => withRange (f opGet) va o.bytes
  | .atomic op => atom op opAtom
  | .red op => atom op opRed
  | .store => withBytes (f (if winMulticast word then opMput else if winEvent word then opEvt else if winMailbox word then opMbox else opPut)) va
      (l.bytes o.bytes)

/-- The lanes of a store that together write one whole line of a window travel as one frame (R431). -/
def wholeLine (o : MemOp) (word va : Nat) : List LaneAcc :=
  let ls := o.lanes.filter (fun l => match l.tgt with | .window w _ a => w == word && a / 64 == va / 64 | _ => false)
  if o.kind == .store && (storeImage ls o.bytes).2 == BitVec.allOnes 64 && !winEvent word && !winMailbox word then ls else []

/-- Marks lanes as sent; those of an MPUT are performed when it is accepted at egress (R434). -/
def Mach.sentLanes (m : Mach) (o : MemOp) (ls : List LaneAcc) (done : Bool) : Mach :=
  m.modOp o.id (fun x => { x with lanes := x.lanes.map (fun (l : LaneAcc) =>
    if ls.any (fun y => y.lane == l.lane) then { l with sent := true, done := l.done || done } else l) })

/-- Sends the frames of an access's window lanes that have not left, once the access is released; `bad` is a Tail mismatch of their payload. -/
def Mach.sendLanes (m : Mach) (id : Nat) (bad : Bool) : Mach :=
  match m.ops.find? (fun o => o.id == id) with
  | none => m
  | some o =>
    if !m.released o then m
    else
      ((o.lanes.filter (fun l => !l.sent)).foldl (fun m l =>
        match l.tgt, m.ops.find? (fun x => x.id == id) with
        | .window w _ va, some x =>
          if x.lanes.any (fun y => y.lane == l.lane && y.sent) || !m.inOrder o l then m
          else
            let all := wholeLine o w va
            let base := va / 64 * 64
            let f := if all.isEmpty then m.laneFrame o l w va
              else withBytes (m.windowFrame o.part o.krn w base (if winMulticast w then opMput else opPut)) base (lineBytes (storeImage all o.bytes).1)
            match m.request (spoilFrame bad f) o.part o.krn (.mem id) with
            | .sent m => m.sentLanes o (if all.isEmpty then [l] else all) f.mc
            | .full => m
            | .noRoute => m.abortRemote o.krn stInvalid (winDst w) va
        | _, _ => m) m).settleOp id

end Sys2Proof.Machine
end

