-- ==== Sys2Proof/Machine/Sched.lean ====
section
/-! DEFINITION. Machine/Sched.lean: kernel launches and their commands, event-counter banks, block placement, block and instance
ends, the deadlock rules and the watchdog (R76 to R81, R91 to R95, R103, R143, R190, R278, R343, R383 to R388). -/

namespace Sys2Proof.Machine

/-! Launches. -/

/-- What a launch is started with (R190, R383). -/
structure LaunchReq where
  part : Nat
  num : Nat
  fromStep : Bool
  node : Nat
  kgi : Kgi
  kernel : Nat
  desc : KernelDesc
  clusters : DWord
  args : Nat
  key : BitVec 128
  epoch : Word
  keyValid : Bool
  lc : Bool
  total : Nat
  deriving DecidableEq, Repr

/-- Accepts a launch: it waits for banks and blocks in its clusters. -/
def Mach.launch (m : Mach) (r : LaunchReq) : Mach :=
  m.bumpId.setKrn m.nextId { Krn.reset with
    live := true, part := r.part, num := r.num, fromStep := r.fromStep, node := r.node, handle := r.kgi.handle, kernel := r.kernel,
    desc := r.desc, code := r.kgi.code, clusters := r.clusters, args := r.args, key := r.key, epoch := r.epoch,
    keyValid := r.keyValid, lc := r.lc, accepted := m.nextId, total := r.total }

/-- The MCI launches of a space that have not ended: its allowance holds 256 (R591). -/
def Mach.mciKrns (m : Mach) (space : Nat) : List Nat := (m.krnsOfPart space).filter (fun k => !(m.krn k).fromStep)

/-- The MCI launch of a number. -/
def Mach.krnByNum (m : Mach) (space num : Nat) : Option Nat := (m.mciKrns space).find? (fun k => (m.krn k).num == num)

/-- KRN.LAUNCH. -/
def krnLaunch (fn : Fn) (m : Mach) (c : Cmd) : Ans :=
  let space := spaceOf fn
  let q := m.part space
  let mask : DWord := BitVec.ofNat 64 (c.f 16 8)
  let flags := c.f 52 4
  match q.kgis.find? (fun k => k.handle == c.f 4 4) with
  | none => invalid m 4
  | some kgi =>
    match kgi.kernels[c.f 8 4]? with
    | none => invalid m 8
    | some d =>
      if mask = 0 || mask &&& ~~~q.clusters != 0 then invalid m 16
      else if 2 ^ 52 ≤ c.f 24 8 then invalid m 24
      else if 4 ≤ flags then invalid m 52
      else if (m.krnByNum space (c.f 0 4)).isSome then invalid m 0xFFFE
      else if 256 ≤ (m.mciKrns space).length then .now stNoResource 6 [] m
      else
        ok (m.launch { part := space, num := c.f 0 4, fromStep := false, node := 0, kgi := kgi, kernel := c.f 8 4, desc := d, clusters := mask,
                       args := c.f 24 8, key := BitVec.ofNat 128 (c.f 32 16), epoch := BitVec.ofNat 32 (c.f 48 4),
                       keyValid := flags % 2 == 1, lc := flags / 2 % 2 == 1, total := d.blocks })

/-- KRN_LAUNCH (R190, R383, R591). -/
def execKrnLaunch (fn : Fn) (ch : Nat) (s : State) : Out :=
  mci { opcode := 0x0501, who := .f, fields := [(0, 4), (4, 4), (8, 4), (16, 8), (24, 8), (32, 16), (48, 4), (52, 4)], rlen := 0 } fn ch
    (krnLaunch fn) s

/-- KRN_WAIT (R343): the end status at once where the launch has ended, else when it ends or the timeout expires; it is kept until the
answer is posted. -/
def execKrnWait (fn : Fn) (ch : Nat) (s : State) : Out :=
  mci { opcode := 0x0502, who := .f, fields := [(0, 4), (4, 4)], rlen := 12 } fn ch
    (fun m c =>
      let space := spaceOf fn
      let num := c.f 0 4
      if (m.krnByNum space num).isSome then
        .later (.krn space num (if c.f 4 4 = 0 then none else some (m.now + us * c.f 4 4))) m
      else
        match (m.part space).ends.find? (fun e => e.num == num) with
        | some e => .now e.status 0 (waitResult e) m
        | none => invalid m 0) s

/-- KRN_WAIT_TIMEOUT (R343): the launch keeps running. -/
def execKrnWaitTimeout (fn : Fn) (ch : Nat) (s : State) : Out :=
  s.run fun m =>
    if !chanOk fn ch then .refused .noSuchUnit
    else
      match (m.chan (chanKey fn ch)).cur with
      | some (c, .krn _ _ (some t)) => gate m (decide (t ≤ m.now) && m.moonServes) (m.answer (chanKey fn ch) c stTimeout 0 [])
      | _ => .next m

/-- KRN_ABORT (R93). DEDUCED: log 80. -/
def execKrnAbort (fn : Fn) (ch : Nat) (s : State) : Out :=
  mci { opcode := 0x0503, who := .f, fields := [(0, 4)], rlen := 0 } fn ch
    (fun m c =>
      match m.krnByNum (spaceOf fn) (c.f 0 4) with
      | some k => ok (m.abortKrn k fAbort none)
      | none => invalid m 0) s

/-- KRN_CLASS (R384, R385): OK without effect where no launch of the name is live. DEDUCED: log 80. -/
def execKrnClass (fn : Fn) (ch : Nat) (s : State) : Out :=
  mci { opcode := 0x0504, who := .f, fields := [(0, 4), (4, 1)], rlen := 0 } fn ch
    (fun m c =>
      if 1 < c.f 4 1 then invalid m 4
      else
        match m.krnByNum (spaceOf fn) (c.f 0 4) with
        | some k => ok (m.modKrn k (fun x => { x with lc := c.f 4 1 == 1 }))
        | none => ok m) s

/-! Local memory of a core (R78, R81). -/

/-- The launches that hold a bank in a cluster. -/
def Mach.holders (m : Mach) (c : Nat) : List Nat :=
  let x := m.clu c
  (if x.bank0 = 0 then [] else [x.bank0 - 1]) ++ (if x.bank1 = 0 then [] else [x.bank1 - 1])

/-- The granules in use on a core: the blocks' allocations and the receive areas of the launches that hold a bank (R81). -/
def Mach.granulesUsed (m : Mach) (core : Nat) : Nat :=
  total ((m.blocksOfCore core).map (fun b => (m.blk b).granules)) +
    total ((m.holders (clusterOf core)).map (fun k => if tget 0 (m.krn k).recv core = 0 then 0 else granulesOf (m.krn k).desc.recvBytes))

/-- Where the allocation of block slot `b` of a core, or the receive area of its bank `b`, begins, in granules: each slot and bank has
512 granules of addresses to itself, and R81 bounds what is in use together (DESIGN CHOICE: log 18). -/
def slotBase (b : Nat) : Nat := 512 * (b % 16)
def recvBase (bank : Nat) : Nat := 512 * (16 + bank)

/-! Banks (R78, R386). -/

/-- A launch has blocks left to launch in a cluster: lost ones of the cluster, or any not yet launched. -/
def Krn.more (x : Krn) (c : Nat) : Bool := x.live && !x.stopped && x.clusters.getLsbD c && (decide (x.next < x.total) || x.replay.any (fun r => r.1 == c))

/-- A partition lets a launch's blocks launch (R357, R368, R369): a frozen or resetting one none, and one that is freezing only
those of the step in progress (DEDUCED, log 19). -/
def Mach.mayLaunch (m : Mach) (x : Krn) : Bool :=
  (m.part x.part).st == .running && ((m.part x.part).freezing = 0 || x.fromStep)

/-- Order of service: latency-critical first, then the order of acceptance (R386, R387). -/
def serveOrder (x : Krn) : Nat := if x.lc then x.accepted else 2 ^ 64 + x.accepted

/-- The launch that takes the next bank of a cluster. -/
def Mach.nextForBank (m : Mach) (c : Nat) : Option Nat :=
  argMin (fun k => serveOrder (m.krn k)) ((tkeys m.krns).filter (fun k =>
    (m.krn k).more c && m.mayLaunch (m.krn k) && !(m.holders c).contains k))

/-- Gives launch `k` bank `b` of a cluster and its receive area on every core: counters zero, area zero. -/
def Mach.giveBank (m : Mach) (c k b : Nat) : Mach :=
  let n := granulesOf (m.krn k).desc.recvBytes
  let lo := 1024 * recvBase b
  let m := m.modClu c (fun x => if b = 0 then { x with bank0 := k + 1 } else { x with bank1 := k + 1 })
  let m := m.modKrn k (fun x =>
    { x with banks := tput 0 x.banks c (b + 1), recv := (coresOfCluster c).foldl (fun t i => tput 0 t i (if n = 0 then 0 else recvBase b + 1)) x.recv })
  (coresOfCluster c).foldl (fun m i => m.modCore i (fun x =>
    { x with ctr := x.ctr.filter (fun e => e.1 / 32 != b), ctrTide := x.ctrTide.filter (fun e => e.1 / 32 != b),
             loc := x.loc.filter (fun e => decide (e.1 < lo) || decide (lo + 1024 * n ≤ e.1)) })) m

/-- BANK_ASSIGN (R78, R386): the first waiting launch takes a free bank, unless its receive area does not fit. -/
def execBankAssign (cluster : Nat) (s : State) : Out :=
  s.run fun m =>
    if 64 ≤ cluster then .refused .noSuchUnit
    else
      let x := m.clu cluster
      let bank := if x.bank0 = 0 then some 0 else if x.bank1 = 0 then some 1 else none
      match bank, m.nextForBank cluster with
      | some b, some k =>
        let room := (coresOfCluster cluster).all (fun i => decide (m.granulesUsed i + granulesOf (m.krn k).desc.recvBytes ≤ 512))
        gate m (m.mayIssue && !x.gated && !x.fenced && room) (m.giveBank cluster k b)
      | _, _ => .next m

/-- Releases the banks of a launch in clusters where none of its blocks is resident or still to launch (R78). -/
def Mach.sweepBanks (m : Mach) (k : Nat) : Mach :=
  (tkeys (m.krn k).banks).foldl (fun m c =>
    if (m.krn k).more c || (m.blocksOfKrn k).any (fun b => clusterOf (blockCore b) == c) then m else m.releaseBank k c) m

/-! Placement (R79 to R81, R387). -/

/-- The resident groups of a core. -/
def Mach.groupsOfCore (m : Mach) (core : Nat) : List Nat :=
  (tkeys m.groups).filter (fun g => coreOf g == core && (m.grp g).live)

/-- Registers that the resident groups of a core hold (R81). -/
def Mach.regsUsed (m : Mach) (core : Nat) : Nat :=
  total ((m.groupsOfCore core).map (fun g => 32 * (m.krn (m.blk (m.grp g).block).krn).desc.regs))

/-- Resident groups of a sub-scheduler. -/
def Mach.groupsOfSub (m : Mach) (core sub : Nat) : Nat := (m.groupsOfCore core).countP (fun g => (m.grp g).sub == sub)

/-- A block of a kernel fits on a core (R81). -/
def Mach.fits (m : Mach) (d : KernelDesc) (core : Nat) : Bool :=
  m.coreLive core && decide ((m.blocksOfCore core).length < 16) && decide ((m.groupsOfCore core).length + d.g ≤ 48) &&
    decide (d.g ≤ total ((List.range 4).map (fun i => 12 - m.groupsOfSub core i))) && decide (m.regsUsed core + 32 * d.regs * d.g ≤ 65536) &&
    !(d.usesAcc && (m.blocksOfCore core).any (fun b => (m.blk b).usesAcc)) && decide (m.granulesUsed core + granulesOf d.localBytes ≤ 512)

/-- The core that a block of a kernel is placed on: among those it fits, the one with the most free group slots, the lowest
number on a tie (R79). -/
def Mach.place (m : Mach) (d : KernelDesc) (c : Nat) : Option Nat :=
  argMin (fun i => (m.groupsOfCore i).length) ((coresOfCluster c).filter (m.fits d))

/-- The launches that the cluster scheduler considers, in order (R387). -/
def Mach.considered (m : Mach) (c : Nat) : List Nat :=
  sortBy (fun k => serveOrder (m.krn k)) ((m.holders c).filter (fun k => (m.krn k).more c && m.mayLaunch (m.krn k)))

/-- Walks the considered launches: the first whose block fits is chosen.  Once the block of a latency-critical launch fits
nowhere (`lcHeld`) no best-effort block launches; a launch in its 1 ms hold bars the later ones of its class (`barLc`, `barBe`;
R387). -/
def pick (m : Mach) (c : Nat) : List Nat → Bool → Bool → Bool → Option (Nat × Nat)
  | [], _, _, _ => none
  | k :: l, lcHeld, barLc, barBe =>
    let x := m.krn k
    if (if x.lc then barLc else barBe || lcHeld) then pick m c l lcHeld barLc barBe
    else
      match m.place x.desc c with
      | some core => some (k, core)
      | none =>
        let held := tget 0 x.holding c == 1
        pick m c l (lcHeld || x.lc) (barLc || (held && x.lc)) (barBe || (held && !x.lc))

/-- The registers a group starts with (R76). -/
def launchRegs (block index groups args : Nat) : Tbl Word × Tbl Word :=
  ((List.range 32).foldl (fun t l => tput 0 t l (BitVec.ofNat 32 (l + 32 * index))) [],
   [(0, block), (1, index), (2, groups), (3, args % 2 ^ 32), (4, args / 2 ^ 32)].foldl (fun t e => tput 0 t e.1 (BitVec.ofNat 32 e.2)) [])

/-- The lowest free slot among `n` of a core. -/
def freeSlot (slots : List Nat) (used : Nat → Bool) : Nat := (slots.find? (fun x => !used x)).getD 0

/-- Puts one group of a block into a slot: on the sub-scheduler with the most free slots (R80), with its launch state (R76) and
its streams (R190). -/
def Mach.addGroup (m : Mach) (core b age index : Nat) : Mach :=
  let x := m.krn (m.blk b).krn
  let id := (m.blk b).id
  let sub := (argMin (fun i => m.groupsOfSub core i) [0, 1, 2, 3]).getD 0
  let g := freeSlot (groupSlots core) (fun g => (m.grp g).live)
  let r := launchRegs id index x.desc.g x.args
  m.setGrp g { Group.reset with
    live := true, block := b, index := index, age := 64 * age + index, sub := sub, pc := BitVec.ofNat 32 x.desc.entry, v := r.1, u := r.2,
    seeding := if x.keyValid then .seeded else .unseeded, lanes := if x.keyValid then seedGroup x.key id index x.epoch else [] }

/-- Places a block of a launch on a core (R76, R81, R143). -/
def Mach.addBlock (m : Mach) (k id core : Nat) : Mach :=
  let d := (m.krn k).desc
  let age := m.nextId
  let b := freeSlot (blockSlots core) (fun b => (m.blk b).live)
  let m := m.bumpId.setBlk b { Block.reset with
    live := true, krn := k, id := id, age := age, launched := m.coreTide core, stepsAt := (m.clu (clusterOf core)).steps, base := slotBase b,
    granules := granulesOf d.localBytes, usesAcc := d.usesAcc }
  let m := if d.usesAcc then m.modCore core (fun c => { c with acc := [] }) else m
  (List.range d.g).foldl (fun m i => m.addGroup core b age i) m

/-- Marks which considered launches fit nowhere, for the 1 ms rule (R387). -/
def Mach.noteHolds (m : Mach) (c : Nat) : Mach :=
  (m.considered c).foldl (fun m k =>
    match m.place (m.krn k).desc c with
    | some _ => m.modKrn k (fun x => { x with holdSince := tput 0 x.holdSince c 0, holding := tput 0 x.holding c 0 })
    | none => m.modKrn k (fun x => { x with holdSince := if tget 0 x.holdSince c = 0 then tput 0 x.holdSince c (m.now + 1) else x.holdSince })) m

/-- Launches the next block of a launch on a core: the lost one of the lowest id first, else the next id (R79, R97). -/
def Mach.launchBlock (m : Mach) (c k core : Nat) : Mach :=
  let x := m.krn k
  match argMin (·.2) (x.replay.filter (fun r => r.1 == c)) with
  | some r =>
    let m := m.addBlock k r.2 core
    (m.modKrn k (fun x => { x with replay := x.replay.erase r, replayed := true })).sweepBanks k
  | none =>
    let m := m.addBlock k x.next core
    (m.modKrn k (fun x => { x with next := x.next + 1 })).sweepBanks k

/-- BLOCK_LAUNCH (R79, R387, R388): one launch decision of a cluster scheduler. -/
def execBlockLaunch (cluster : Nat) (s : State) : Out :=
  s.run fun m =>
    if 64 ≤ cluster then .refused .noSuchUnit
    else if !(m.mayIssue && !(m.clu cluster).gated && !(m.clu cluster).fenced) then .next m
    else
      let m := m.noteHolds cluster
      match pick m cluster (m.considered cluster) false false false with
      | some (k, core) =>
        .next ((m.launchBlock cluster k core).modKrn k (fun x =>
          { x with holdSince := tput 0 x.holdSince cluster 0, holding := tput 0 x.holding cluster 0 }))
      | none => .next m

/-- PLACEMENT_HOLD_TIMEOUT (R387): the launch's next block has fitted on no core for 1 ms. -/
def execPlacementHoldTimeout (cluster krn : Nat) (s : State) : Out :=
  s.run fun m =>
    if 64 ≤ cluster then .refused .noSuchUnit
    else
      let x := m.krn krn
      let t := tget 0 x.holdSince cluster
      gate m ((m.considered cluster).contains krn && t != 0 && decide (t - 1 + ms ≤ m.now) && (m.place x.desc cluster).isNone)
        (m.modKrn krn (fun x => { x with holding := tput 0 x.holding cluster 1 }))

/-! Ends (R119, R143, R278). -/

/-- Every group of a block has exited, its stores are performed and the tensor queue holds none of its instructions. -/
def Mach.blockDone (m : Mach) (b : Nat) : Bool :=
  (m.blk b).live && (m.groupsOfBlock b).all (fun g => (m.grp g).exited) && m.ops.all (fun o => o.block != b || o.krn != (m.blk b).krn) &&
    (m.core (blockCore b)).tq.all (fun t => t.block != b || t.krn != (m.blk b).krn)

/-- BLOCK_END (R119, R278). -/
def execBlockEnd (block : Nat) (s : State) : Out :=
  s.run fun m =>
    if 16384 ≤ block then .refused .noSuchUnit
    else
      let k := (m.blk block).krn
      gate m (m.blockDone block)
        (((m.freeBlock block).modClu (clusterOf (blockCore block)) (fun x => { x with idleSince := m.now })).modKrn k
          (fun x => { x with ended := x.ended + 1 }) |>.sweepBanks k)

/-- INSTANCE_COMPLETE (R195, R278). -/
def execInstanceComplete (krn : Nat) (s : State) : Out :=
  s.run fun m =>
    let x := m.krn krn
    gate m (x.live && !x.stopped && x.next == x.total && x.replay.isEmpty && decide (x.total ≤ x.ended) && (m.blocksOfKrn krn).isEmpty &&
        (m.part x.part).st != .resetting)
      (m.endKrn krn x.okStatus)

/-! Deadlock and the watchdog (R91 to R95, R103). -/

/-- A core has an incomplete memory operation of a launch (R91, R125). -/
def Mach.busyOps (m : Mach) (k core : Nat) : Bool :=
  m.ops.any (fun o => o.krn == k && o.core == core) || m.flushes.any (fun o => o.krn == k && o.core == core) ||
    m.copies.any (fun e => e.2.any (fun o => o.krn == k && o.core == core)) || m.mcasts.any (fun o => o.krn == k && o.core == core) ||
    m.clusters.any (fun e => e.2.ordq.any (fun d => d.krn == k && d.core == core))

/-- A group has been in EVT.WAIT without a deadline on a counter of one of the kinds since before `t`, and the counter has not changed
since then (R91, R92, R100). DESIGN CHOICE: log 114. -/
def Group.waitsSince (g : Group) (x : Krn) (c : Core) (kinds : List Nat) (t : Nat) : Bool :=
  match g.wait with
  | .event ctr _ _ none _ since => kinds.contains (x.ctrKind (ctr % 32)) && decide (since < t) && decide (tget 0 c.ctrTide ctr < t)
  | _ => false

/-- The resident groups of a launch on a core. -/
def Mach.groupsOn (m : Mach) (k core : Nat) : List Nat := (m.groupsOfCore core).filter (fun g => (m.blk (m.grp g).block).krn == k)

/-- No operation of a launch has completed on a core, and none of its groups has left it, since `t`. DESIGN CHOICE: log 114. -/
def Krn.stillSince (x : Krn) (core t : Nat) : Bool := decide (tget 0 x.opTide core < t) && decide (tget 0 x.leftTide core < t)

/-- EVENT_DEADLOCK (R91, R93): due once the tick in which its 4 us end is over, since a fence in that tick governs (R101).
DEDUCED: log 122. -/
def execEventDeadlock (core krn : Nat) (s : State) : Out :=
  s.run fun m =>
    if 1024 ≤ core then .refused .noSuchUnit
    else
      let gs := (m.groupsOn krn core).filter (fun g => !(m.grp g).exited)
      let now := m.coreTide core
      gate m ((m.krn krn).live && !gs.isEmpty && !(m.core core).halted && !m.busyOps krn core &&
          gs.all (fun g => (m.grp g).waitsSince (m.krn krn) (m.core core) [1] (now - 4 * us)) && (m.krn krn).stillSince core (now - 4 * us))
        (m.abortKrn krn fDeadlock none)

/-- QUIESCENCE_DEADLOCK (R92, R93, R101). DEDUCED: log 122. -/
def execQuiescenceDeadlock (krn : Nat) (s : State) : Out :=
  s.run fun m =>
    let x := m.krn krn
    let cores := (bitsOf x.clusters).flatMap coresOfCluster
    let live := fun i => (m.groupsOn krn i).filter (fun g => !(m.grp g).exited)
    gate m (x.live && cores.any (fun i => !(live i).isEmpty) && decide (x.netTide + 64 * us < m.now) &&
        m.sigs.all (fun g => g.krn != krn) && m.mcasts.all (fun o => o.krn != krn) &&
        cores.all (fun i =>
          let t := m.coreTide i - 64 * us
          !m.busyOps krn i && !(m.core i).halted && x.stillSince i t && (live i).all (fun g => (m.grp g).waitsSince x (m.core i) [0, 1, 2] t)))
      (m.abortKrn krn fDeadlock none)

/-- A block has passed its watchdog: 200 us and 256,000 steps since its launch, halts apart (R94, R103), and the tick in which it did so
is over, since a fence in that tick governs (R101). DEDUCED: log 122. -/
def Mach.watchdogDue (m : Mach) (b : Nat) : Bool :=
  let x := m.blk b
  x.live && !(m.core (blockCore b)).halted && decide (x.launched + x.paused + 200 * us < m.coreTide (blockCore b)) && decide ((m.clu (clusterOf (blockCore b))).stepsTide < m.now) &&
    decide (x.stepsAt + x.pausedSteps + 256000 ≤ (m.clu (clusterOf (blockCore b))).steps)

/-- BLOCK_WATCHDOG (R94, R95); in a function-level reset the block alone is stopped (R358). -/
def execBlockWatchdog (block : Nat) (s : State) : Out :=
  s.run fun m =>
    if 16384 ≤ block then .refused .noSuchUnit
    else
      let k := (m.blk block).krn
      gate m (m.watchdogDue block)
        (if (m.part (m.krnPart k)).st == .resetting then m.freeBlock block else m.abortKrn k fWatchdog none)

end Sys2Proof.Machine
end

