-- ==== Sys2Proof/Machine/StepBuilder.lean ====
section
/-! DEFINITION. Machine/StepBuilder.lean: sequence table, admission ring, step builder, run-ahead prefetch, bandwidth buckets and
the accounting threshold (R199 to R201, R389 to R416). -/

namespace Sys2Proof.Machine

/-! The sequence table (R392, R395, R396). -/

def Mach.seq (m : Mach) (p e : Nat) : SeqEntry := tget SeqEntry.reset (m.part p).seqs e
def Mach.setSeq (m : Mach) (p e : Nat) (x : SeqEntry) : Mach := m.modPart p (fun q => { q with seqs := tput SeqEntry.reset q.seqs e x })
def Mach.modSeq (m : Mach) (p e : Nat) (f : SeqEntry → SeqEntry) : Mach := m.setSeq p e (f (m.seq p e))

/-- Entry `e` lies in the partition's granules of 64 entries (R348, R413). -/
def Part.hasEntry (q : Part) (e : Nat) : Bool := decide (e < 64 * q.granules)

/-- The prefetches of an entry that leaves the predicted set and have not been issued are dropped (R407). -/
def Mach.leavePredicted (m : Mach) (p e : Nat) : Mach :=
  (m.modMem (fun a => { a with raTodo := a.raTodo.filter (fun t => t.part != p || t.entry != e + 1) })).modSb p
    (fun b => { b with predicted := b.predicted.filter (· != e) })

/-- An entry enters PAUSED and remembers the state it held (Table 15.2). -/
def SeqEntry.pauseIn (x : SeqEntry) : SeqEntry := if x.st == .paused then x else { x with prev := x.st, st := .paused }

/-- A paused entry leaves PAUSED when neither cause is set and no stop condition has been met (R392, R412). -/
def SeqEntry.unpause (x : SeqEntry) : SeqEntry :=
  if x.st == .paused && !x.hold && !x.draw && x.stop = 0 then { x with st := x.prev } else x

/-- The status of a normal retirement (R395). -/
def SeqEntry.okStatus (x : SeqEntry) : Nat := if !x.keyValid && !x.hostMode then stUnseeded else stOk

/-- An entry moves to RETIRING with a STOP_REASON and a STATUS. -/
def Mach.toRetiring (m : Mach) (p e stop status : Nat) (detail : Nat := 0) : Mach :=
  (m.modSeq p e (fun x => { x with st := .retiring, stop := stop, status := status, detail := detail, hold := false, draw := false })).leavePredicted p e

/-- The STOP_REASON of an entry that has just received a token, 0 for none (R396). -/
def SeqEntry.stopOf (x : SeqEntry) (ctxMax token : Nat) : Nat :=
  if x.stops.contains token then 1
  else if x.tokens = x.maxNew then 2
  else if x.tokens = x.outMax then 3
  else if ctxMax ≤ x.promptLen + x.tokens then 4
  else 0

/-- An output area cannot be written: the entry returns to FREE without its header and vector 1 is raised (R415). -/
def Mach.loseEntry (m : Mach) (p e : Nat) : Mach := ((m.setSeq p e SeqEntry.reset).leavePredicted p e).raiseVf p 1

/-- Appends a token: its slot, the Tide of the append, then TOKENS (R395); the entry as it then stands. -/
def Mach.appendTok (m : Mach) (p e token : Nat) : VWrite :=
  let x := m.seq p e
  match m.vwrite p (x.out + 64 + 4 * x.tokens) (leBytes 4 token) with
  | .ok m =>
    match m.vwrite p (x.out + 16) (leBytes 8 m.now) with
    | .ok m =>
      match m.vwrite p (x.out + 12) (leBytes 4 (x.tokens + 1)) with
      | .ok m => .ok (m.setSeq p e { x with tokens := x.tokens + 1, lastAppend := m.now })
      | w => w
    | w => w
  | w => w

/-- The output header of a retiring entry: STOP_REASON, then STATE and STATUS (R395). DEDUCED: log 87. -/
def Mach.writeHeader (m : Mach) (p e : Nat) : VWrite :=
  let x := m.seq p e
  match m.vwrite p (x.out + 9) (leBytes 1 x.stop) with
  | .ok m =>
    match m.vwrite p (x.out + 8) (leBytes 1 5) with
    | .ok m => m.vwrite p x.out (leBytes 8 (statusWord x.status x.detail).toNat)
    | w => w
  | w => w

/-- The prefetches of an entry have ended (Table 15.2). -/
def Mach.prefetchEnded (m : Mach) (p e : Nat) : Bool :=
  m.mem.raTodo.all (fun t => t.part != p || t.entry != e + 1) && m.mem.reqs.all (fun r => r.part != p || r.entry != e + 1)

/-- Retires an entry whose prefetches have ended: header, FREE, vector 3 (Table 15.2, R395, R415). -/
def Mach.retire (m : Mach) (p e : Nat) : Mach :=
  if (m.seq p e).st != .retiring || !m.prefetchEnded p e then m
  else
    match m.writeHeader p e with
    | .ok m => (m.setSeq p e SeqEntry.reset).raiseVf p 3
    | .waits m => m
    | .fault => m.loseEntry p e

/-- Retires every retiring entry that can be. -/
def Mach.retireAll (m : Mach) (p : Nat) : Mach := (tkeys (m.part p).seqs).foldl (fun m e => m.retire p e) m

/-- A host-posted token that met a stop condition retires its entry at the boundary (R412). -/
def Mach.settleStops (m : Mach) (p : Nat) : Mach :=
  (tkeys (m.part p).seqs).foldl (fun m e =>
    let x := m.seq p e
    if x.stop != 0 && x.st != .retiring then m.toRetiring p e x.stop x.okStatus else m) m

/-! Admission (R393, R394, R413, R415). -/

/-- The stop tokens in use of a descriptor. -/
def descStops (d : List Byte) : List Nat := (List.range (fieldAt d 36 4 / 16 % 16)).map (fun i => fieldAt d (64 + 4 * i) 4)

/-- The offset of the first field of a descriptor that is out of its range (Table 15.3). DEDUCED: log 86. -/
def descInvalid (d : List Byte) (ctxMax vocab : Nat) : Option Nat :=
  let flags := fieldAt d 36 4
  let n := flags / 16 % 16
  if fieldAt d 8 8 % 4 != 0 || decide (2 ^ 52 ≤ fieldAt d 8 8) then some 8
  else if fieldAt d 16 4 = 0 || decide (ctxMax ≤ fieldAt d 16 4) then some 16
  else if fieldAt d 20 4 = 0 then some 20
  else if fieldAt d 24 8 % 64 != 0 || decide (2 ^ 52 ≤ fieldAt d 24 8) then some 24
  else if fieldAt d 32 4 = 0 then some 32
  else if flags / 4 % 4 != 0 || decide (8 < n) || decide (256 ≤ flags) then some 36
  else if decide (0x7F800000 ≤ fieldAt d 40 4) && fieldAt d 40 4 != 2 ^ 31 then some 40
  else if (if flags % 2 = 1 then fieldAt d 44 4 = 0 || decide (4096 < fieldAt d 44 4) else fieldAt d 44 4 != 0) then some 44
  else if (descStops d).any (fun t => decide (vocab ≤ t)) || !zeroAt d (64 + 4 * n) (32 - 4 * n) then some 64
  else if fieldAt d 96 8 % 8 != 0 || decide (2 ^ 52 ≤ fieldAt d 96 8) then some 96
  else if 65535 < fieldAt d 104 4 then some 104
  else if !zeroAt d 108 20 then some 108
  else none

/-- The entry that an accepted descriptor makes (R393). -/
def seqEntry (d : List Byte) (desc : Nat) (key : BitVec 128) (tide : Nat) : SeqEntry :=
  let flags := fieldAt d 36 4
  { SeqEntry.reset with
    st := .admitted, desc := desc, prompt := fieldAt d 8 8, promptLen := fieldAt d 16 4, maxNew := fieldAt d 20 4, out := fieldAt d 24 8,
    outMax := fieldAt d 32 4, hostMode := flags % 2 == 1, keyValid := flags / 2 % 2 == 1, stops := descStops d,
    temp := BitVec.ofNat 32 (fieldAt d 40 4), hostK := fieldAt d 44 4, key := key, kvTable := fieldAt d 96 8, kvPages := fieldAt d 104 4,
    admitted := tide }

/-- What an admission answers: a status word, or a wait. -/
inductive AdmitRes where
  | done (status detail : Nat) (m : Mach)
  | waits (m : Mach)

/-- Writes STATUS to a descriptor, which completes the admission; a descriptor that cannot be written keeps what it held. -/
def Mach.admitDone (m : Mach) (p desc status detail : Nat) : AdmitRes :=
  match m.vwrite p desc (leBytes 8 (statusWord status detail).toNat) with
  | .ok m => .done status detail m
  | .waits m => .waits m
  | .fault => .done status detail m

/-- An accepted admission: the key, the entry, STATUS OK (R393).  A failed true-random source fails it (R205). -/
def Mach.admitKey (m : Mach) (p e desc : Nat) (d : List Byte) : AdmitRes :=
  let valid := fieldAt d 36 4 / 2 % 2 = 1
  if !valid && !m.sec.trngOk then m.admitDone p desc stAborted 0
  else
    let key := if valid then BitVec.ofNat 128 (fieldAt d 48 16) else Config.trueRandom m.free
    match m.admitDone p desc stOk 0 with
    | .done s dt m => .done s dt ((if valid then m else m.bumpFree).setSeq p e (seqEntry d desc key m.now))
    | w => w

/-- Admits descriptor `desc` into entry `e` (R393, R394, R413, R415). DEDUCED: log 86. -/
def Mach.admitSeq (m : Mach) (p e desc : Nat) : AdmitRes :=
  let q := m.part p
  if !q.sb.conf then .done stInvalid 0xFFFF m
  else if desc % 64 != 0 || decide (2 ^ 52 ≤ desc) then .done stInvalid 8 m
  else
    match m.vread p desc 128 .read with
    | .waits m => .waits m
    | .fault => .done stInvalid 8 m
    | .poisoned m => m.admitDone p desc stPoisoned 0
    | .ok d m =>
      if !q.hasEntry e then m.admitDone p desc stInvalid 0
      else if (m.seq p e).st != .free then m.admitDone p desc stBusy 0
      else
        match descInvalid d q.sb.ctxMax q.sb.vocab with
        | some off => m.admitDone p desc stInvalid off
        | none =>
          match m.vread p (fieldAt d 8 8) (4 * fieldAt d 16 4) .read with
          | .waits m => .waits m
          | .fault => m.admitDone p desc stInvalid 8
          | .poisoned m => m.admitDone p desc stPoisoned 0
          | .ok _ m => m.admitKey p e desc d

/-! Step boundaries (R403). -/

/-- SEQ.PAUSE, SEQ.RESUME and SEQ.CANCEL as they take effect; a FREE or RETIRING entry is left alone. -/
def Mach.doPause (m : Mach) (p e : Nat) : Mach :=
  let x := m.seq p e
  if x.st == .free || x.st == .retiring then m else (m.setSeq p e { x.pauseIn with hold := true }).leavePredicted p e
def Mach.doResume (m : Mach) (p e : Nat) : Mach := m.modSeq p e (fun x => if x.hold then { x with hold := false }.unpause else x)
def Mach.doCancel (m : Mach) (p e : Nat) : Mach :=
  let x := m.seq p e
  if x.st == .free || x.st == .retiring then m else m.toRetiring p e (if x.stop = 0 then 5 else x.stop) x.okStatus

/-- A mismatch that a second response put right at a partition's step builder (R402, R526). -/
def Mach.builderReread (m : Mach) (p : Nat) (check : ReadCheck) : Mach :=
  let h := halfOfCluster (firstBit (m.part p).clusters)
  m.reread check (h / 2) h

/-- An admission, with what the Tail checks find in its descriptor and prompt: a mismatch that stays completes it with POISONED, detail 1
(R526). -/
def Mach.admitChecked (m : Mach) (p e desc : Nat) (check : ReadCheck) : AdmitRes :=
  match check, m.admitSeq p e desc with
  | .bad, .done st d m1 =>
    match m.vread p desc 128 .read with
    | .ok _ m2 => if desc % 64 = 0 && decide (desc < 2 ^ 52) then m2.admitDone p desc stPoisoned 1 else .done st d m1
    | _ => .done st d m1
  | _, .done st d m1 => .done st d (m1.builderReread p check)
  | _, w => w

/-- Performs the commands and admissions that wait for the boundary, oldest first, up to one that must wait.  `check` is what the
Tail checks find for the first admission (R526). -/
def applyBoundary (p : Nat) (check : ReadCheck) : List Boundary → Mach → Mach
  | [], m => m.modSb p (fun b => { b with boundary := [] })
  | .pause e :: l, m => applyBoundary p check l (m.doPause p e)
  | .resume e :: l, m => applyBoundary p check l (m.doResume p e)
  | .cancel e :: l, m => applyBoundary p check l (m.doCancel p e)
  | .admitSeq e desc chan :: l, m =>
    match m.admitChecked p e desc check with
    | .waits m => m.modSb p (fun b => { b with boundary := .admitSeq e desc chan :: l })
    | .done st d m =>
      let m := if chan = 0 then m else
        match (m.chan (chan - 1)).cur with
        | some (c, .admitSeq q f) => if q == p && f == e then m.answer (chan - 1) c st d [] else m
        | _ => m
      applyBoundary p .good l m

/-- The step boundary: results posted by the host first, then what waits (R403, R412). -/
def Mach.boundaryNow (m : Mach) (p : Nat) (check : ReadCheck := .good) : Mach := applyBoundary p check (m.part p).sb.boundary (m.settleStops p)

/-! The admission ring (R397, R398). -/

/-- The ring cannot be used: ERR is set, HEAD becomes TAIL, and vector 1 is raised (R394, R398). -/
def Mach.ringError (m : Mach) (p : Nat) : Mach := (m.modSb p (fun b => { b with qdErr := true, qdHead := b.qdTail })).raiseVf p 1

/-- Reads ring entry by ring entry from HEAD: the admissions, with a poisoned entry's left out. -/
def ringRead (p : Nat) : Nat → Nat → List Boundary → Mach → Option (List Boundary × Mach) × Mach
  | 0, _, acc, m => (some (acc.reverse, m), m)
  | n + 1, i, acc, m =>
    let b := (m.part p).sb
    match m.vread p (b.qdBase.toNat + 16 * (i % b.qdSize)) 16 .read with
    | .ok d m => ringRead p n (i + 1) (.admitSeq (fieldAt d 0 4) (fieldAt d 8 8) 0 :: acc) m
    | .poisoned m => ringRead p n (i + 1) acc m
    | .fault => (none, m.ringError p)
    | .waits m => (none, m)

/-- Processes the ring from HEAD up to TAIL (R394, R397, R398): its admissions wait for the boundary, which is now where no step
runs. -/
def Mach.processRing (m : Mach) (p : Nat) : Mach :=
  let b := (m.part p).sb
  let n := (b.qdTail + 65536 - b.qdHead) % 65536
  if n = 0 || b.qdSize = 0 then m
  else if !b.conf || decide (b.qdSize < n) then m.ringError p
  else
    match ringRead p n b.qdHead [] m with
    | (some (l, m), _) =>
      let m := m.modSb p (fun b => { b with qdHead := b.qdTail, boundary := b.boundary ++ l })
      if (m.part p).sb.running then m else m.boundaryNow p
    | (none, m) => m

/-- QD_TAIL_WRITE (R282, R397, R398): while the ring is disabled the write is discarded; a partition that does not run takes it up
when it does. -/
def execQdTailWrite (part : Nat) (value : DWord) (s : State) : Out :=
  s.run fun m =>
    if !partOk part then .refused .noSuchUnit
    else
      let q := m.part part
      gate m (m.barGate (.vf q.link part) == .open_ && (q.sb.qdSize != 0 || m.behind (.vf q.link part)))
        (m.inPost (.vf q.link part) 0x20010 8 value
          (let m := m.modSb part (fun b => { b with qdTail := value.toNat % 65536 })
           if q.st == .running then m.processRing part else m))

/-- ENTRIES as it reads back: a power of two from 16 to 4,096, or 0 (R397). DESIGN CHOICE: log 113. -/
def ringSize (v : Nat) : Nat := if isPow2 (v % 65536) && decide (16 ≤ v % 65536) && decide (v % 65536 ≤ 4096) then v % 65536 else 0

/-- QD_CONFIG_WRITE (R397): QD_BASE, or QD_SIZE where `size`; ignored while HEAD and TAIL differ. DESIGN CHOICE: log 113. -/
def execQdConfigWrite (part : Nat) (size : Bool) (value : DWord) (s : State) : Out :=
  s.run fun m =>
    if !partOk part then .refused .noSuchUnit
    else
      let q := m.part part
      gate m (m.barGate (.vf q.link part) == .open_ && (q.sb.qdHead == q.sb.qdTail || m.behind (.vf q.link part)))
        (m.inPost (.vf q.link part) (if size then 0x20008 else 0x20000) 8 value
          (m.modSb part (fun b =>
            if size then { b with qdSize := ringSize value.toNat } else { b with qdBase := value &&& ~~~(0x3F : DWord) })))

/-! SEQ.CONFIG (R399, R400). -/

/-- A graph node from its 64 bytes, its cluster mask over the partition's clusters (Table 15.8). -/
def graphNode (d : List Byte) (cls : List Nat) : GNode :=
  let c := fieldAt d 8 8
  { kernel := fieldAt d 0 4,
    clusters := BitVec.ofNat 64 (total ((cls.zipIdx.filter (fun e => c = 0 || c.testBit e.2)).map (fun e => 2 ^ e.1))),
    arg := fieldAt d 16 8, blocks := fieldAt d 24 4, deps := (List.range (fieldAt d 28 4)).map (fun i => fieldAt d (32 + 4 * i) 4) }

/-- The offset within node `i` of its first offending field (R400). DEDUCED: log 85. -/
def nodeInvalid (d : List Byte) (i kernels clusters : Nat) : Option Nat :=
  let n := fieldAt d 28 4
  if kernels ≤ fieldAt d 0 4 then some 0
  else if fieldAt d 4 4 != 0 then some 4
  else if 2 ^ clusters ≤ fieldAt d 8 8 then some 8
  else if 8 < n then some 28
  else
    match (List.range 8).find? (fun j => if j < n then decide (i ≤ fieldAt d (32 + 4 * j) 4) else fieldAt d (32 + 4 * j) 4 != 0) with
    | some j => some (32 + 4 * j)
    | none => none

/-- The GRAPH offset of the first offending field of a configuration (R399, R400). DEDUCED: log 85. -/
def Mach.graphInvalid (m : Mach) (p : Nat) (g : List Byte) (kernels : Nat) : Option Nat :=
  let b := fieldAt g 0 4
  let n := fieldAt g 34 2
  if b = 0 || decide (4096 < b) then some 0
  else if fieldAt g 4 4 < b + 1 then some 4
  else if fieldAt g 8 4 = 0 then some 8
  else if fieldAt g 12 4 = 0 then some 12
  else if !m.mappedFor p .write (fieldAt g 16 8) (64 + 64 * b) then some 16
  else if !m.mappedFor p .write (fieldAt g 24 8) (4 * fieldAt g 12 4 * b) then some 24
  else if n = 0 || decide (256 < n) || decide (g.length < 64 + 64 * n) then some 34
  else
    (List.range n).findSome? (fun i =>
      (nodeInvalid (slice g (64 + 64 * i) 64) i kernels (m.clustersOf p).length).map (64 + 64 * i + ·))

/-- The step builder that a configuration makes (R402, R406); the ring's registers stay. -/
def configured (b : StepB) (c : Cmd) (g : List Byte) (cls : List Nat) : StepB :=
  { StepB.reset with
    conf := true, handle := c.f 0 4, hostListed := c.f 4 1 == 1, key := BitVec.ofNat 128 (c.f 8 16), keyValid := c.f 24 4 == 1,
    bMax := fieldAt g 0 4, tMax := fieldAt g 4 4, ctxMax := fieldAt g 8 4, vocab := fieldAt g 12 4, worklist := fieldAt g 16 8,
    logits := fieldAt g 24 8, prefetch := Nat.min 64 (fieldAt g 32 2),
    nodes := (List.range (fieldAt g 34 2)).map (fun i => graphNode (slice g (64 + 64 * i) 64) cls),
    ranStep := b.ranStep, ranPrefill := b.ranPrefill, qdBase := b.qdBase, qdSize := b.qdSize, qdTail := b.qdTail, qdHead := b.qdHead,
    qdErr := b.qdErr }

/-- SEQ_CONFIG (R399, R400, R402, R406). -/
def execSeqConfig (fn : Fn) (ch : Nat) (s : State) : Out :=
  mci { opcode := 0x0601, who := .f, fields := [(0, 4), (4, 1), (8, 16), (24, 4)], rlen := 0 } fn ch
    (fun m c =>
      let p := spaceOf fn
      match (m.part p).kgis.find? (fun k => k.handle == c.f 0 4) with
      | none => invalid m 0
      | some k =>
        if 1 < c.f 4 1 then invalid m 4
        else if 1 < c.f 24 4 then invalid m 24
        else if !(m.part p).seqs.isEmpty || (m.part p).sb.running then .now stBusy 0 [] m
        else
          match m.graphInvalid p k.graph k.kernels.length with
          | some off => invalid m off
          | none => ok (m.modSb p (fun b => configured b c k.graph (m.clustersOf p)))) s

/-! SEQ.ADMIT, SEQ.TOKEN, SEQ.PAUSE, SEQ.RESUME, SEQ.CANCEL (R201, R392 to R394, R403, R412). -/

/-- A SEQ.* command's entry is in the table and neither FREE nor RETIRING. -/
def Mach.entryLive (m : Mach) (p e : Nat) : Bool :=
  (m.part p).hasEntry e && (m.seq p e).st != .free && (m.seq p e).st != .retiring

/-- A command over one entry of a configured partition: INVALID with detail 0xFFFF where it is not configured (R394). -/
def seqCmd (opcode : Nat) (fields : List (Nat × Nat)) (fn : Fn) (ch : Nat) (body : Mach → Nat → Cmd → Ans) (s : State) : Out :=
  mci { opcode := opcode, who := .f, fields := fields, rlen := 0 } fn ch
    (fun m c => if (m.part (spaceOf fn)).sb.conf then body m (spaceOf fn) c else invalid m 0xFFFF) s

/-- SEQ_ADMIT (R393, R403): at once where no step runs, else at the boundary. -/
def execSeqAdmit (fn : Fn) (ch : Nat) (s : State) : Out :=
  seqCmd 0x0602 [(0, 4), (8, 8)] fn ch
    (fun m p c =>
      let b := (m.part p).sb
      if b.running || !b.boundary.isEmpty then
        .later (.admitSeq p (c.f 0 4)) (m.modSb p (fun b => { b with boundary := b.boundary ++ [.admitSeq (c.f 0 4) (c.f 8 8) (chanKey fn ch + 1)] }))
      else
        match m.admitSeq p (c.f 0 4) (c.f 8 8) with
        | .done st d m => .now st d [] m
        | .waits m => .retry m) s

/-- SEQ_TOKEN (R200, R201, R412): the posted token is appended and tested, DRAW is cleared. DEDUCED: log 84. -/
def execSeqToken (fn : Fn) (ch : Nat) (s : State) : Out :=
  seqCmd 0x0603 [(0, 4), (4, 4)] fn ch
    (fun m p c =>
      let e := c.f 0 4
      let x := m.seq p e
      if !(m.entryLive p e && x.st == .paused && x.draw) then invalid m 0
      else if (m.part p).sb.vocab ≤ c.f 4 4 then invalid m 4
      else
        match m.appendTok p e (c.f 4 4) with
        | .waits m => .retry m
        | .fault => ok (m.loseEntry p e)
        | .ok m => ok (m.modSeq p e (fun x => { x with draw := false, stop := x.stopOf (m.part p).sb.ctxMax (c.f 4 4) }.unpause))) s

/-- A command of R403 on one entry: performed now, or left for the boundary while a step runs. DEDUCED: log 84. -/
def seqEdit (opcode : Nat) (fn : Fn) (ch : Nat) (now : Mach → Nat → Nat → Mach) (later : Nat → Boundary) (s : State) : Out :=
  seqCmd opcode [(0, 4)] fn ch
    (fun m p c =>
      let b := (m.part p).sb
      if !m.entryLive p (c.f 0 4) then invalid m 0
      else if b.running || !b.boundary.isEmpty then ok (m.modSb p (fun b => { b with boundary := b.boundary ++ [later (c.f 0 4)] }))
      else ok (now m p (c.f 0 4))) s

/-- SEQ_PAUSE (R392). -/
def execSeqPause (fn : Fn) (ch : Nat) (s : State) : Out := seqEdit 0x0604 fn ch (fun m p e => m.doPause p e) .pause s

/-- SEQ_RESUME (R392). -/
def execSeqResume (fn : Fn) (ch : Nat) (s : State) : Out := seqEdit 0x0605 fn ch (fun m p e => m.doResume p e) .resume s

/-- SEQ_CANCEL (R392). -/
def execSeqCancel (fn : Fn) (ch : Nat) (s : State) : Out := seqEdit 0x0606 fn ch (fun m p e => m.doCancel p e) .cancel s

/-! Forming and running a step (R401 to R405). -/

/-- The tokens an entry holds for the algorithm (R404). -/
def SeqEntry.held (x : SeqEntry) : Nat := if x.st == .decode then x.promptLen + x.tokens else x.processed

/-- Adds decode entries to a list of at most `dmax` positions and `tMax` tokens (R404). -/
def addDecode (m : Mach) (p dmax tMax : Nat) : List Nat → List WorkPos → List WorkPos
  | [], l => l
  | e :: es, l =>
    if dmax ≤ l.length || tMax ≤ total (l.map (·.count)) then l
    else addDecode m p dmax tMax es (l ++ [{ entry := e, pos := (m.seq p e).held - 1, count := 1, sample := true }])

/-- Adds prefill entries (R404). -/
def addPrefill (m : Mach) (p bMax tMax : Nat) : List Nat → List WorkPos → List WorkPos
  | [], l => l
  | e :: es, l =>
    let used := total (l.map (·.count))
    if bMax ≤ l.length || tMax ≤ used then l
    else
      let x := m.seq p e
      let n := Nat.min (x.promptLen - x.held) (tMax - used)
      addPrefill m p bMax tMax es (l ++ [{ entry := e, pos := x.held, count := n, sample := x.held + n == x.promptLen }])

/-- The list of the next step in device mode (R404). -/
def Mach.formList (m : Mach) (p : Nat) : List WorkPos :=
  let b := (m.part p).sb
  let of := fun st => (tkeys (m.part p).seqs).filter (fun e => (m.seq p e).st == st)
  let pre := sortBy (fun e => (m.seq p e).admitted) (of .prefill) ++ sortBy (fun e => (m.seq p e).admitted) (of .admitted)
  let dec := sortBy (fun e => (m.seq p e).lastRun) (sortBy (fun e => (m.seq p e).admitted) (of .decode))
  addPrefill m p b.bMax b.tMax pre (addDecode m p (if pre.isEmpty then b.bMax else b.bMax - 1) b.tMax dec [])

/-- The 64 bytes of a work-list entry (Table 15.6); EPOCH is the tokens that the sequence holds with the positions of this entry (R199). -/
def Mach.workEntry (m : Mach) (p : Nat) (w : WorkPos) : List Byte :=
  let x := m.seq p w.entry
  leBytes 4 w.entry ++ leBytes 4 w.pos ++ leBytes 4 w.count ++ leBytes 4 (w.sample.toNat + 2 * x.hostMode.toNat) ++ leBytes 8 x.desc ++
    leBytes 16 x.key.toNat ++ leBytes 4 (w.pos + w.count) ++ leBytes 4 x.temp.toNat ++ List.replicate 16 0

/-- The work list of a step (R401). -/
def Mach.workList (m : Mach) (p : Nat) (l : List WorkPos) : List Byte :=
  leBytes 8 (m.part p).sb.step ++ leBytes 4 l.length ++ leBytes 4 (total (l.map (·.count))) ++ List.replicate 48 0 ++ l.flatMap (m.workEntry p)

/-- The step begins: its entries are in PREFILL or DECODE and have run now; no node is launched yet.  A work list that could not
be written ends the step as an aborted launch does. -/
def Mach.beginStep (m : Mach) (p : Nat) (l : List WorkPos) (failed : Bool) : Mach :=
  let m := l.foldl (fun m w => m.modSeq p w.entry (fun x =>
    { x with st := if x.st == .admitted then .prefill else x.st, lastRun := (m.part p).sb.stamp + 1 })) m
  m.modSb p (fun b => { b with running := true, list := l, launched := [], done := [], failed := failed, applied := 0, stamp := b.stamp + 1,
                               ranStep := true, ranPrefill := b.ranPrefill || l.any (fun w => decide (1 < w.count)) })

/-- Fetches a line into its home slice for a prefetch (R406): nothing where the home or an RLC holds it; a poisoned line fills
nothing (R415). -/
def Mach.prefetchSlice (m : Mach) (p line : Nat) : Mach :=
  if (tfind m.mem.llc line).isSome || (m.dirOf line).isSome || !m.settled line then m
  else
    let r := m.hbmRead line 0
    if r.1.2 then r.2
    else r.2.sliceFill line (m.wayMask p line) { data := r.1.1, dirty := false, poison := false, way := 0, lru := 0, ra := p + 1, host := .invalid }

/-- Prefetches one line: by RdS with RA into the RLC of every half of the partition for which it is remote, else into its home
slice (R406). -/
def Mach.prefetchLine (m : Mach) (p e line : Nat) (halves : List Nat) : Mach :=
  let m := if halves.any (fun h => !remoteFor h line) then m.prefetchSlice p line else m
  let far := halves.filter (fun h => remoteFor h line && (m.rlcLine h line).isNone)
  m.modMem (fun a => { a with raTodo := a.raTodo ++ far.map (fun h => { rlc := h, line := line, part := p, entry := e + 1 }) })

/-- Prefetches the last PREFETCH_PAGES pages of an entry's KV_TABLE (R406). DESIGN CHOICE: log 90. -/
def Mach.prefetchEntry (m : Mach) (p e : Nat) : Mach :=
  let x := m.seq p e
  let n := Nat.min (m.part p).sb.prefetch x.kvPages
  let halves := ((m.clustersOf p).map halfOfCluster).eraseDups
  match m.vread p (x.kvTable + 8 * (x.kvPages - n)) (8 * n) .read with
  | .ok t m =>
    (List.range n).foldl (fun m i =>
      match m.translate p .read (fieldAt t (8 * i) 8 / 65536 * 65536) with
      | .ok (.hbm pa) => (List.range 1024).foldl (fun m k => m.prefetchLine p e (pa / 64 + k) halves) m
      | _ => m) m
  | .poisoned m => m
  | .waits m => m
  | .fault => m

/-- The entries predicted to run in the next step: those of the list that stay in PREFILL or DECODE (R406). DESIGN CHOICE: log 90. -/
def Mach.predict (m : Mach) (p : Nat) (l : List WorkPos) : List Nat :=
  (l.filter (fun w => !(w.sample && (m.seq p w.entry).hostMode))).map (·.entry)

/-- Run-ahead of a step that has just begun: the prefetch, where the table held a prediction, and the new prediction (R404, R406). -/
def Mach.runAhead (m : Mach) (p : Nat) (l : List WorkPos) : Mach :=
  let pred := m.predict p l
  let m := if (m.part p).sb.predValid then pred.foldl (fun m e => m.prefetchEntry p e) m else m
  m.modSb p (fun b => { b with predicted := pred, predValid := true })

/-- The step builder may act for a partition: it runs and is not freezing (R357, R368, R369). -/
def Mach.mayStep (m : Mach) (p : Nat) : Bool := m.up && (m.part p).st == .running && (m.part p).freezing = 0

/-- Sends words to a channel of a partition's function until one is answered FULL (R324, R346); a channel that takes none discards them
(R321). Gives the words that are left. -/
def sendWords (key fnk : Nat) : List Word → Mach → List Word × Mach
  | [], m => ([], m)
  | w :: ws, m =>
    let c := m.chan key
    if c.mode || !c.enable then sendWords key fnk ws (m.logAer fnk 0)
    else if c.txFree = 0 then (w :: ws, m)
    else sendWords key fnk ws (m.acceptWord key w)

/-- The step builder sends its commands to Moon, oldest first; what a full channel refuses is sent again after the next boundary (R346). -/
def sendCommands (p fnk : Nat) : List (Nat × List Word) → Mach → Mach
  | [], m => m.modSb p (fun b => { b with toMoon := [] })
  | (c, ws) :: l, m =>
    match sendWords (8 * fnk + c % 8) fnk ws m with
    | ([], m) => sendCommands p fnk l m
    | (left, m) => m.modSb p (fun b => { b with toMoon := (c, left) :: l })

/-- The commands of the step builder to Moon at a step boundary: those not yet sent, then the one it has now, if any (R346).
DESIGN CHOICE: log 136. -/
def Mach.sendMoon (m : Mach) (p : Nat) : Mach :=
  sendCommands p (m.vfKey p) ((m.part p).sb.toMoon ++ (Config.builderCommand m.free).toList) m.bumpFree

/-- STEP_BOUNDARY (R346, R373, R402 to R406, R526): boundary commands and admissions, retirements, the commands to Moon, and in device mode the
next step. -/
def execStepBoundary (turn : StepTurn) (s : State) : Out :=
  s.run fun m =>
    let part := turn.part
    if !partOk part then .refused .noSuchUnit
    else if !(m.mayStep part && (m.part part).sb.conf && !(m.part part).sb.running && (m.capturedNow part).isNone) then .next m
    else
      let m := (((m.boundaryNow part turn.check).processRing part).retireAll part).sendMoon part
      let b := (m.part part).sb
      let l := m.formList part
      if b.hostListed || l.isEmpty || !b.boundary.isEmpty then .next m
      else
        match m.vwrite part b.worklist (m.workList part l) with
        | .waits m => .next m
        | .fault => .next (m.beginStep part l true)
        | .ok m => .next ((m.beginStep part l false).runAhead part l)

/-- The list of a host-listed step, or the field of SEQ.STEP that is refused (R405). DEDUCED: log 89. -/
def Mach.stepList (m : Mach) (p : Nat) (d : List Byte) (n : Nat) : Option (List WorkPos) :=
  let l := (List.range n).filterMap (fun i =>
    let e := fieldAt d (8 * i) 4
    let c := fieldAt d (8 * i + 4) 2
    let x := m.seq p e
    if fieldAt d (8 * i + 6) 2 != 0 || !m.entryLive p e || x.st == .paused then none
    else if c = 0 then (if x.st == .decode then some { entry := e, pos := x.held - 1, count := 1, sample := true } else none)
    else if x.st == .decode || decide (x.promptLen < x.held + c) then none
    else some ({ entry := e, pos := x.held, count := c, sample := x.held + c == x.promptLen } : WorkPos))
  if l.length = n && (l.map (·.entry)).eraseDups.length = n then some l else none

/-- SEQ_STEP (R394, R405): completes when the step ends. DEDUCED: log 89. -/
def execSeqStep (fn : Fn) (ch : Nat) (s : State) : Out :=
  seqCmd 0x0607 [(0, 8), (8, 4)] fn ch
    (fun m p c =>
      let b := (m.part p).sb
      let n := c.f 8 4
      if !b.hostListed then invalid m 0xFFFF
      else if b.running || !m.mayStep p then .retry m
      else if b.bMax < n then invalid m 8
      else if !b.boundary.isEmpty then .retry (m.boundaryNow p)
      else
        match (m.settleStops p).vread p (c.f 0 8) (8 * n) .read with
        | .waits m => .retry m
        | .fault => invalid m 0
        | .poisoned m => .now stPoisoned 0 [] m
        | .ok d m =>
          match m.stepList p d n with
          | none => invalid m 0
          | some l =>
            if b.tMax < total (l.map (·.count)) then invalid m 0
            else
              match m.vwrite p b.worklist (m.workList p l) with
              | .waits m => .retry m
              | .fault => .later (.step p) (m.beginStep p l true)
              | .ok m => .later (.step p) (m.beginStep p l false)) s

/-! The graph (R400). -/

/-- When a node became ready: after how many completed nodes; none while a dependency has not completed. -/
def StepB.readyAt (b : StepB) (node : Nat) : Option Nat :=
  ((nth ⟨0, 0, 0, 0, []⟩ b.nodes node).deps).foldl (fun r d =>
    match r, b.done.findIdx? (· == d) with
    | some t, some i => some (Nat.max t (i + 1))
    | _, _ => none) (some 0)

/-- The node that launches next: of those ready and not launched the one ready first, then the lowest (R400). -/
def StepB.nextNode (b : StepB) : Option Nat :=
  argMin (fun i => match b.readyAt i with | some t => 256 * t + i | none => 0)
    ((List.range b.nodes.length).filter (fun i => !b.launched.contains i && (b.readyAt i).isSome))

/-- The launch of a graph node (R383, R400, R402). DEDUCED: log 87. -/
def Mach.launchNode (m : Mach) (p node : Nat) : Mach :=
  let b := (m.part p).sb
  let g := nth ⟨0, 0, 0, 0, []⟩ b.nodes node
  match (m.part p).kgis.find? (fun k => k.handle == b.handle) with
  | some kgi =>
    let d := nth KernelDesc.reset kgi.kernels g.kernel
    (m.launch { part := p, num := 0, fromStep := true, node := node, kgi := kgi, kernel := g.kernel, desc := d, clusters := g.clusters,
                args := g.arg, key := b.key, epoch := BitVec.ofNat 32 b.step, keyValid := b.keyValid, lc := true,
                total := if g.blocks = 0 then d.blocks else g.blocks }).modSb p (fun b => { b with launched := b.launched ++ [node] })
  | none => m

/-- GRAPH_NODE_LAUNCH (R400, R402, R414). -/
def execGraphNodeLaunch (part node : Nat) (s : State) : Out :=
  s.run fun m =>
    if !partOk part then .refused .noSuchUnit
    else
      let q := m.part part
      gate m (m.up && q.st == .running && q.sb.running && !q.sb.failed && q.sb.nextNode == some node) (m.launchNode part node)

/-- The step's launches have ended (R400); after an abort no further node is launched (R414). -/
def StepB.graphDone (b : StepB) : Bool :=
  if b.failed then b.launched.all (b.done.contains ·) else (List.range b.nodes.length).all (b.done.contains ·)

/-- What applying one position answers: done, or the device that waits. -/
inductive Applied where
  | ok (m : Mach)
  | waits (m : Mach)

/-- A unit cannot use a result it reads: the entry retires with an error (R415). DEDUCED: log 88. -/
def Mach.badResult (m : Mach) (p e status : Nat) (detail : Nat := 0) : Mach := m.toRetiring p e 6 status detail

/-- A host-mode sample (R200): the top-k indices go to the output area and DRAW is set. -/
def Mach.applyHost (m : Mach) (p r : Nat) (w : WorkPos) : Applied :=
  let b := (m.part p).sb
  let x := m.seq p w.entry
  match m.vread p (b.logits + 4 * b.vocab * r) (4 * b.vocab) .read with
  | .waits m => .waits m
  | .fault => .ok (m.badResult p w.entry stAborted)
  | .poisoned m => .ok (m.badResult p w.entry stPoisoned)
  | .ok row m =>
    let keys := (List.range b.vocab).map (fun i => orderKey .f32 true (fieldAt row (4 * i) 4))
    match m.vwrite p (x.out + 64 + 4 * x.outMax) ((topkOf keys x.hostK).flatMap (leBytes 4)) with
    | .waits m => .waits m
    | .fault => .ok (m.loseEntry p w.entry)
    | .ok m => .ok ((m.setSeq p w.entry { x with processed := x.promptLen, prev := .decode, st := .paused, draw := true }).leavePredicted p w.entry)

/-- A device-mode sample: the RESULT is appended and tested (R395, R396, R404). -/
def Mach.applyDevice (m : Mach) (p r : Nat) (w : WorkPos) : Applied :=
  let b := (m.part p).sb
  match m.vread p (b.worklist + 64 + 64 * r + 48) 4 .read with
  | .waits m => .waits m
  | .fault => .ok (m.badResult p w.entry stAborted)
  | .poisoned m => .ok (m.badResult p w.entry stPoisoned)
  | .ok t m =>
    match m.appendTok p w.entry (ofLe t) with
    | .waits m => .waits m
    | .fault => .ok (m.loseEntry p w.entry)
    | .ok m =>
      let m := m.modSeq p w.entry (fun x => { x with processed := x.promptLen, st := .decode })
      let x := m.seq p w.entry
      let stop := x.stopOf b.ctxMax (ofLe t)
      .ok (if stop = 0 then m else m.toRetiring p w.entry stop x.okStatus)

/-- Applies the result of position `r` (R404). -/
def Mach.applyPos (m : Mach) (p r : Nat) (w : WorkPos) : Applied :=
  if !w.sample then .ok (m.modSeq p w.entry (fun x => { x with processed := x.processed + w.count }))
  else if (m.seq p w.entry).hostMode then m.applyHost p r w else m.applyDevice p r w

/-- Applies the results from position `r` on; a wait leaves the rest for later.  `check` is what the Tail checks find in the first
sampled result: with a mismatch that stays, its entry retires with POISONED, detail 1 (R526). -/
def applyList (p : Nat) (check : ReadCheck) : Nat → List WorkPos → Mach → Applied
  | _, [], m => .ok m
  | r, w :: l, m =>
    match if check == .bad && w.sample then .ok (m.badResult p w.entry stPoisoned 1) else m.applyPos p r w with
    | .ok m =>
      let m := if w.sample then m.builderReread p check else m
      applyList p (if w.sample then .good else check) (r + 1) l (m.modSb p (fun b => { b with applied := r + 1 }))
    | .waits m => .waits m

/-- An aborted step: its entries retire with ABORTED, vector 1 once (R414). DEDUCED: log 88. -/
def Mach.failStep (m : Mach) (p : Nat) : Mach :=
  if (m.part p).sb.applied != 0 then m
  else
    (((m.part p).sb.list.foldl (fun m w => m.toRetiring p w.entry 6 stAborted) m).raiseVf p 1).modSb p (fun b => { b with applied := 1 })

/-- A write of a launch of the partition's step that may go to host memory is outstanding: of a copy or an Ordering Unit descriptor, where the
partition maps host memory (R283). DEDUCED: log 138. -/
def Mach.stepWrites (m : Mach) (p : Nat) : Bool :=
  let mine := fun k => (m.krn k).fromStep && (m.krn k).part == p
  (m.part p).maps.any (fun r => r.target == 1) &&
    (m.copies.any (fun e => e.2.any (fun o => mine o.krn)) || m.clusters.any (fun e => e.2.ordq.any (fun d => mine d.krn)))

/-- The end of a step: vector 2, the next step number, and the clusters' idle time (R511); under a freeze this is the boundary (R368, R404). -/
def Mach.endStep (m : Mach) (p : Nat) : Mach :=
  let m := m.raiseVf p 2
  let m := m.modPart p (fun q =>
    { q with boundary := if q.freezing = 0 then q.boundary else m.now,
             sb := { q.sb with running := false, list := [], launched := [], done := [], failed := false, applied := 0, step := q.sb.step + 1 } })
  let m := (m.clustersOf p).foldl (fun m c => m.modClu c (fun x => { x with idleSince := m.now })) m
  m.answerAll (fun d => d == .step p) stOk 0 []

/-- The step ends when its results are applied, no entry is left in RETIRING and no write of it is outstanding (R283, R404). -/
def Mach.tryEnd (m : Mach) (p : Nat) : Mach :=
  let m := m.retireAll p
  if (tkeys (m.part p).seqs).any (fun e => (m.seq p e).st == .retiring) || m.stepWrites p then m else m.endStep p

/-- GRAPH_END (R200, R278, R283, R395, R396, R404, R414, R415, R526): the step's results are applied. -/
def execGraphEnd (turn : StepTurn) (s : State) : Out :=
  s.run fun m =>
    let part := turn.part
    if !partOk part then .refused .noSuchUnit
    else
      let q := m.part part
      if !(m.up && q.st == .running && q.sb.running && q.sb.graphDone) then .next m
      else if q.sb.failed then .next ((m.failStep part).tryEnd part)
      else
        match applyList part turn.check q.sb.applied (q.sb.list.drop q.sb.applied) m with
        | .ok m => .next (m.tryEnd part)
        | .waits m => .next m

/-! Failure, refill and threshold (R389, R391, R409, R416). -/

/-- The partitions whose step builder is a half's (R402). -/
def Mach.builtBy (m : Mach) (half : Nat) : List Nat :=
  m.existing.filter (fun p => halfOfCluster (firstBit (m.part p).clusters) == half)

/-- A step builder's error, for one partition (R416): its entries retire with ABORTED, the step in progress is given up. -/
def Mach.builderLost (m : Mach) (p : Nat) : Mach :=
  let m := ((m.krnsOfPart p).filter (fun k => (m.krn k).fromStep)).foldl (fun m k => m.removeKrn k) m
  let m := ((tkeys (m.part p).seqs).filter (fun e => (m.seq p e).st != .free)).foldl (fun m e => m.toRetiring p e 6 stAborted) m
  let m := m.modSb p (fun b => { b with predicted := [], predValid := false, running := false, list := [], launched := [], done := [],
                                        failed := false, applied := 0 })
  let m := (m.answerAll (fun d => d == .step p) stAborted 0 []).retireAll p
  m.logPart p { RasRec.mk0 0x28 2 p 0 m.now with place := halfOfCluster (firstBit (m.part p).clusters) }

/-- STEP_BUILDER_ERROR (R416). -/
def execStepBuilderError (half : Nat) (s : State) : Out :=
  s.run fun m =>
    if 8 ≤ half then .refused .noSuchUnit
    else gate m m.up ((m.builtBy half).foldl (fun m p => if (m.part p).st == .resetting then m else m.builderLost p) (m.eventAt 0x28 2 (half / 2) half 0))

/-- BUCKET_REFILL (R349, R389, R391): each 1 us boundary of Tide, for partitions that are not resetting. -/
def execBucketRefill (s : State) : Out :=
  s.run fun m =>
    gate m (m.up && decide (m.host.refillAt < m.now / us))
      (m.existing.foldl (fun m p => if (m.part p).st == .resetting then m else m.modPart p (fun q => { q with buckets := m.refillPart q }))
        (m.modHost (fun h => { h with refillAt := m.now / us })))

/-- ACCT_THRESHOLD_FIRE (R409); a partition whose interrupts are held (R369) keeps the threshold armed. -/
def execAcctThresholdFire (part : Nat) (s : State) : Out :=
  s.run fun m =>
    if !partOk part then .refused .noSuchUnit
    else
      let q := m.part part
      gate m (q.st == .running && q.thrArmed && decide (q.thrSel.toNat ≤ 10) && decide (q.thrVal.toNat ≤ tget 0 q.acct q.thrSel.toNat))
        ((m.modPart part (fun q => { q with thrArmed := false })).raiseVf part 4)

end Sys2Proof.Machine
end

