-- ==== Sys2Proof/Machine/Regs.lean ====
section
/-! DEFINITION. Machine/Regs.lean: the BAR0 maps: block extents, what every register reads, what a write of it does, and the
register-write commands (R8 to R10, R299, R300, R307, R577 to R583). -/

namespace Sys2Proof.Machine

/-! Block extents (Tables 22.1, 22.2). -/

/-- The extents of a function's BAR0 map, as (first offset, end). -/
def extents : Fn → List (Nat × Nat)
  | .pf _ => [(0, 0x10000), (0x10000, 0x18000), (0x20000, 0x40000), (0x40000, 0x50000), (0x50000, 0x60000), (0x60000, 0x80000),
              (0x80000, 0x100000), (0x100000, 0x110000), (0x3FF0000, 0x3FF0400), (0x3FF8000, 0x3FF8008)]
  | .vf _ _ => [(0, 0x10000), (0x10000, 0x18000), (0x20000, 0x30000), (0x30000, 0x40000), (0x40000, 0x50000), (0x80000, 0x88000),
                (0x88000, 0x88100)]

/-- An offset lies in a block of the function's map (R577, R579). -/
def inBlock (fn : Fn) (off : Nat) : Bool := (extents fn).any (fun e => decide (e.1 ≤ off) && decide (off < e.2))

/-! MSI-X tables (R307). -/

/-- Entries of a function's MSI-X table (R307). -/
def Mach.msixCount (m : Mach) : Fn → Nat
  | .pf _ => 64
  | .vf _ p => (m.part p).msix

/-- An unlisted entry of an MSI-X table. -/
def msixNone : MsixEntry := ⟨0, 0, true⟩

/-- Sends the pending vectors of a function that are no longer held back (R307, R315). -/
def Mach.flushPba (m : Mach) (key link : Nat) : Mach :=
  let f := m.fnSt key
  (tkeys f.pba).foldl (fun m v =>
    if !f.msixEn || f.msixMask || f.d3hot || (decide (4 ≤ key) && !f.mse) || !(m.hlink link).up || (tget msixNone f.table v).masked then m
    else (m.modFn key (fun f => { f with pba := tput false f.pba v false })).sendMsix key link v) m

/-- Word `w` (0-3) of an MSI-X table entry. -/
def msixWord (e : MsixEntry) (w : Nat) : Nat :=
  match w with
  | 0 => e.addr.toNat % 2 ^ 32
  | 1 => e.addr.toNat / 2 ^ 32
  | 2 => e.data.toNat
  | _ => e.masked.toNat

/-- An entry with word `w` written. -/
def msixPut (e : MsixEntry) (w v : Nat) : MsixEntry :=
  match w with
  | 0 => { e with addr := BitVec.ofNat 64 (e.addr.toNat / 2 ^ 32 * 2 ^ 32 + v) }
  | 1 => { e with addr := BitVec.ofNat 64 (v * 2 ^ 32 + e.addr.toNat % 2 ^ 32) }
  | 2 => { e with data := BitVec.ofNat 32 v }
  | _ => { e with masked := v % 2 == 1 }

/-- A write of word `w` of entry `i`; on a locked VF it is a change to a locked register (R311). -/
def Mach.writeMsix (m : Mach) (fn : Fn) (i w v : Nat) : Mach :=
  let key := fnKey fn
  let f := m.fnSt key
  if m.msixCount fn ≤ i then m
  else if f.tdisp == .locked || f.tdisp == .run then m.modFn key (fun f => { f with tdisp := .error })
  else (m.modFn key (fun f => { f with table := tput msixNone f.table i (msixPut (tget msixNone f.table i) w v) })).flushPba key (fnLink fn)

/-- 64 pending bits from vector 64 i on. -/
def pbaWord (f : FnState) (i : Nat) : Nat := total ((List.range 64).map (fun b => if tget false f.pba (64 * i + b) then 2 ^ b else 0))

/-! What each register reads (R8, R10, R578, R583, R584).  Offsets are multiples of 8. -/

/-- A number as bits from bit `b`. -/
def at_ (b n : Nat) : Nat := n * 2 ^ b

/-- The fields of DBG_STATE. -/
def Mach.dbgState (m : Mach) : Nat :=
  let life := match m.sec.life with | .blank => 0 | .provisioned => 1 | .deployed => 2 | .rma => 3
  let level := match m.sec.level with | .none => 0 | .observe => 1 | .invasive => 2
  let left := if m.sec.expiry = 0 then 0 else Nat.min (2 ^ 32 - 1) ((m.sec.expiry - m.now + us - 1) / us)
  life + at_ 2 level + at_ 4 m.sec.recovery.toNat + at_ 5 m.sec.vaultValid.toNat + at_ 16 left

/-- A signed number as 64 bits. -/
def int64 (i : Int) : Nat := (i % (2 ^ 64 : Int)).toNat

/-- TIDE_FABRIC and TIDE_SYNC (chapter 16). -/
def Mach.tideFabric (m : Mach) : Nat := int64 ((m.now : Int) + m.links.offset)
def Mach.tideSync (m : Mach) : Nat :=
  m.links.gm % 2 ^ 17 + at_ 17 (m.links.hops % 32) + at_ 22 m.links.locked.toNat + at_ 32 (int64 m.links.err % 65536)

/-- The state code of a partition. -/
def PartSt.code : PartSt → Nat
  | .absent => 0 | .running => 1 | .frozen => 2 | .resetting => 3

/-- The lowest of a half's limits that do not come from the cap (R38, R452, R454, R460, R462). -/
def Mach.hwLimit (m : Mach) (h : Nat) : Nat :=
  let x := m.half h
  let low := Nat.min x.thermal (tget 7 m.power.opMax h)
  let low := if x.hold = 0 then low else Nat.min low (x.hold - 1)
  let low := if x.fast = 0 then low else Nat.min low (x.fast - 1)
  if m.pins.throt then low else 0

/-- Tensor issue in a half is halved (R454, R455, R460, R467). -/
def Mach.tensorHalf (m : Mach) (h : Nat) : Bool :=
  let x := m.half h
  x.halved || m.power.capHalf || x.paced || (x.dead && decide (Nat.min x.limit (m.hwLimit h) < x.op))

/-- The lowest limit in force on a half (R38). -/
def Mach.limitNow (m : Mach) (h : Nat) : Nat := Nat.min (m.half h).limit (m.hwLimit h)

/-- PART_STATE[p] (chapter 14): state, link and units that await their scrub. -/
def Mach.partState (m : Mach) (p : Nat) : Nat :=
  let q := m.part p
  if q.st == .absent then 0 else q.st.code + at_ 2 q.link + at_ 16 ((m.unitsOf p).countP (fun u => (m.unit u).scrub))

/-- The registers that only Moon writes, as they stand when a firmware restart begins (R583). -/
def Mach.moonRegs (m : Mach) : Tbl Nat :=
  let t := (List.range 64).foldl (fun t i => tput 0 t i (m.partState (i + 1))) []
  (List.range 8).foldl (fun t h => tput 0 t (64 + h) (m.limitNow h)) t

/-- A register that only Moon writes: during a firmware restart it holds its last value (R583). -/
def Mach.byMoon (m : Mach) (i now : Nat) : Nat := if m.moon.restart = 0 then now else tget 0 m.moon.shown i

/-- PWR_HALF[h] (chapter 17). -/
def Mach.pwrHalf (m : Mach) (h : Nat) : Nat :=
  let x := m.half h
  let cause := x.capLimited.toNat + 2 * (decide (x.hold != 0)).toNat + 4 * (decide (x.thermal < 7)).toNat + 8 * (!m.pins.throt).toNat +
    16 * (x.fastSrc.getLsbD 2 || x.dead).toNat
  x.op + at_ 3 (m.byMoon (64 + h) (m.limitNow h)) + at_ 6 cause + at_ 11 (m.tensorHalf h).toNat + at_ 12 x.paced.toNat +
    at_ 16 (x.budget % 65536) + at_ 32 (x.power % 65536) + at_ 48 (x.tj % 256)

/-- PWR_DROOP[h] (chapter 17). -/
def Mach.pwrDroop (m : Mach) (h : Nat) : Nat := let x := m.half h; x.dCount + at_ 16 x.dMin + at_ 32 x.dDur

/-- PWR_OP_MAX. -/
def Mach.pwrOpMax (m : Mach) : Nat := total ((List.range 8).map (fun h => at_ (4 * h) (tget 7 m.power.opMax h)))

/-- TELEM_STEPRATE[n] (R47, R48). -/
def StepRate.read (r : StepRate) : Nat := r.steps.toNat + at_ 32 r.tj.toNat + at_ 40 r.op.toNat + at_ 62 r.mixed.toNat + at_ 63 r.valid.toNat

/-- TELEM_CORE_MAP[n]. -/
def Cluster.coreMap (c : Cluster) : Nat :=
  c.live.toNat + at_ 16 c.spare.toNat + at_ 21 c.spareValid.toNat + at_ 22 c.pending.toNat + at_ 26 c.pendingValid.toNat

/-- The registers of a mailbox channel at offset `o` of its page; reading this way has no side effect (R320, R582). -/
def Mach.readChannel (m : Mach) (key o : Nat) : Nat :=
  let c := m.chan key
  if o = 0 then c.mode.toNat + 2 * c.irqEn.toNat + 4 * c.enable.toNat
  else if o = 8 then (m.readStatus key).toNat
  else if o = 0x18 then (c.notices.headD 0).toNat
  else if o = 0x20 then c.next.toNat + 65536 * c.serving.toNat
  else if o = 0x200 then (c.outq.headD 0).toNat
  else 0

/-- The blocks that the port 0 physical function alone exposes: PART, PWR, METER, RAS and DBG (R295, R578, R583). -/
def Mach.readManager (m : Mach) (off : Nat) : Nat :=
  if off < 0x20200 then m.byMoon ((off - 0x20000) / 8) (m.partState ((off - 0x20000) / 8 + 1))
  else if off = 0x20200 then m.host.resetDone.toNat
  else if off < 0x21000 then 0
  else if off < 0x23000 then let i := (off - 0x21000) % 0x80 / 8
    if i ≤ 10 then tget 0 (m.part ((off - 0x21000) / 0x80 + 1)).acct i else 0
  else if off < 0x24000 then 0
  else if off < 0x24200 then let q := m.part ((off - 0x24000) / 8 + 1); q.domain.toNat + at_ 20 q.ingress.toNat
  else if off < 0x40000 then 0
  else if off < 0x40040 then m.pwrHalf ((off - 0x40000) / 8)
  else if 0x40100 ≤ off ∧ off < 0x40140 then m.pwrDroop ((off - 0x40100) / 8)
  else if off = 0x40200 then m.pwrOpMax
  else if off < 0x50000 then 0
  else if off < 0x500C0 then m.meterRail ((off - 0x50000) / 8)
  else if off = 0x50100 then m.meterStatus
  else if off = 0x60000 then m.ras.corrected + at_ 16 m.ras.deferred + at_ 32 m.ras.contained + at_ 48 m.ras.fatal
  else if off = 0x60008 then m.ras.next % 2 ^ 32 + at_ 32 (m.ras.oldest % 2 ^ 32)
  else if off = 0x60010 then m.ras.mask.toNat
  else if off = 0x60018 then m.ras.pend.toNat
  else if off = 0x60020 then m.mem.retired.length + at_ 16 m.ras.unitsRetired
  else if off = 0x60100 then
    (if m.sec.level == .invasive then at_ 6 m.ras.injLine.toNat + at_ 48 m.ras.injKind.toNat + at_ 63 m.ras.injGo.toNat else 0)
  else if off = 0x100000 then m.dbgState
  else if off = 0x100008 then m.sec.nonce.toNat
  else 0

/-- What a register of a physical function reads at an offset that is a multiple of 8. -/
def Mach.readPf (m : Mach) (l off : Nat) : Nat :=
  if off = 0 then 0x01040010
  else if off = 0x40 then m.now % 2 ^ 64
  else if off = 0x48 then m.tideFabric
  else if off = 0x50 then m.tideSync
  else if off < 0x10000 ∨ !m.served then 0
  else if off < 0x18000 then m.readChannel (chanKey (.pf l) ((off - 0x10000) / 0x1000)) (off % 0x1000)
  else if 0x80000 ≤ off ∧ off < 0x80200 then (m.clu ((off - 0x80000) / 8)).rate.read
  else if 0x80200 ≤ off ∧ off < 0x80240 then tget 0 m.clk.lcLate ((off - 0x80200) / 8)
  else if 0x80400 ≤ off ∧ off < 0x80600 then (m.clu ((off - 0x80400) / 8)).coreMap
  else if 0x3FF0000 ≤ off ∧ off < 0x3FF0400 then
    let e := tget msixNone (m.fnSt l).table ((off - 0x3FF0000) / 16)
    let w := off % 16 / 4
    msixWord e w + at_ 32 (msixWord e (w + 1))
  else if off = 0x3FF8000 then pbaWord (m.fnSt l) 0
  else if l = 0 then m.readManager off
  else 0

/-- What a register of a partition's VF reads at an offset that is a multiple of 8; an absent VF reads zero (R296). -/
def Mach.readVf (m : Mach) (l p off : Nat) : Nat :=
  let q := m.part p
  let key := fnKey (.vf l p)
  if !m.served || !m.bound l p then 0
  else if off = 0 then p + at_ 8 q.st.code + at_ 16 (total ((m.clustersOf p).map m.liveCores)) + at_ 32 (64 * q.granules) + at_ 48 (m.unitsOf p).length
  else if off = 8 then q.clusters.toNat
  else if off < 0x10000 then 0
  else if off < 0x18000 then m.readChannel (chanKey (.vf l p) ((off - 0x10000) / 0x1000)) (off % 0x1000)
  else if off = 0x20000 then q.sb.qdBase.toNat
  else if off = 0x20008 then q.sb.qdSize
  else if off = 0x20010 then q.sb.qdTail
  else if off = 0x20018 then q.sb.qdHead
  else if off = 0x20020 then q.sb.qdErr.toNat
  else if 0x30000 ≤ off ∧ off < 0x30058 then tget 0 q.acct ((off - 0x30000) / 8)
  else if off = 0x30100 then q.thrSel.toNat + at_ 8 q.thrArmed.toNat
  else if off = 0x30108 then q.thrVal.toNat
  else if off = 0x40000 then q.irqCause.toNat
  else if off = 0x40008 then (if q.ring.isEmpty then 0 else q.ringNext)
  else if 0x80000 ≤ off ∧ off < 0x88000 then
    let i := (off - 0x80000) / 16
    if i < q.msix then
      let e := tget msixNone (m.fnSt key).table i
      msixWord e (off % 16 / 4) + at_ 32 (msixWord e (off % 16 / 4 + 1))
    else 0
  else if 0x88000 ≤ off ∧ off < 0x88100 then pbaWord (m.fnSt key) ((off - 0x88000) / 8)
  else 0

/-- What the 64 bits at an offset of a function's BAR0 hold, the offset rounded down to 8 (R581). -/
def Mach.readReg (m : Mach) (fn : Fn) (off : Nat) : Nat :=
  match fn with
  | .pf l => m.readPf l (off / 8 * 8)
  | .vf l p => m.readVf l p (off / 8 * 8)

/-- A 32-bit word of a function's BAR0, with what reading it does: RXQ and NOTICE_OUT give up their front, TICKET gives a ticket (R299, R320,
R582). -/
def Mach.readWord (m : Mach) (fn : Fn) (off : Nat) : Nat × Mach :=
  let w := m.readReg fn off / 2 ^ (8 * (off % 8)) % 2 ^ 32
  if 0x10000 ≤ off ∧ off < 0x18000 then
    let key := chanKey fn ((off - 0x10000) / 0x1000)
    let o := off % 0x1000
    if o = 0x200 then (w, m.modChan key (fun c => { c with outq := c.outq.drop 1 }))
    else if o = 0x1C then (w, m.modChan key (fun c => { c with notices := c.notices.drop 1 }))
    else if o = 0x20 then (w, m.takeTicket key)
    else (w, m)
  else (w, m)

/-- The 32-bit words that contain `size` bytes at an offset, lowest first (R299). -/
def Mach.readWords (m : Mach) (fn : Fn) (off size : Nat) : List Byte × Mach :=
  (List.range ((off + Nat.max 1 size + 3) / 4 - off / 4)).foldl (fun (acc : List Byte × Mach) i =>
    let r := acc.2.readWord fn (off / 4 * 4 + 4 * i)
    (acc.1 ++ leBytes 4 r.1, r.2)) ([], m)

/-! What a write does (R8, R299).  `v` holds the 64 bits, `mask` the bits of the words written. -/

/-- The mask of a write of the lower word, the upper word or both. -/
def wordMask (lo hi : Bool) : DWord := (if lo then 0xFFFFFFFF else 0) ||| (if hi then 0xFFFFFFFF00000000 else 0)

/-- An RW register with the words of `mask` written. -/
def rw (mask old v : DWord) : DWord := (old &&& ~~~mask) ||| (v &&& mask)

/-- A write to a channel register (R299, R319, R326): WO registers act on the write of their upper half. -/
def Mach.writeChannel (m : Mach) (fn : Fn) (key o : Nat) (lo hi : Bool) (v : DWord) : Mach :=
  let low : Word := v.truncate 32
  if o = 0 then (if lo then m.writeCtl key v else m)
  else if o = 8 then m.writeStatus key (v &&& wordMask lo hi)
  else if o = 0x10 then
    let m := if lo then m.modChan key (fun c => { c with dbLow := low }) else m
    if hi then m.hostDoorbell fn key (BitVec.ofNat 64 ((m.chan key).dbLow.toNat + v.toNat / 2 ^ 32 * 2 ^ 32)) else m
  else if o = 0x20 then (if hi then m.release key (BitVec.ofNat 16 (v.toNat / 2 ^ 32)) else m)
  else if o = 0x100 then (if lo then m.hostTxq fn key low else m)
  else m

/-- RAS_INJECT (R548): acts at INVASIVE alone.  GO places the error: in HBM at once for kinds 1 and 2, at the line's next
slice-port write for kind 3. DESIGN CHOICE: log 94. -/
def Mach.writeInject (m : Mach) (mask v : DWord) : Mach :=
  if m.sec.level != .invasive then m
  else
    let old : DWord := BitVec.ofNat 64 (at_ 6 m.ras.injLine.toNat + at_ 48 m.ras.injKind.toNat)
    let n := rw mask old v
    let line := n.toNat / 64 % 2 ^ 42
    let kind := n.toNat / 2 ^ 48 % 4
    let go := (v &&& mask).getLsbD 63 || m.ras.injGo
    let m := m.modRas (fun r => { r with injLine := BitVec.ofNat 42 line, injKind := BitVec.ofNat 2 kind, injGo := go })
    if !go || decide (hbmLines ≤ line) then m
    else if kind = 1 ∨ kind = 2 then (m.modMem (fun a => { a with hbmErr := tput 0 a.hbmErr line kind })).modRas (fun r => { r with injGo := false })
    else if kind = 3 then m.modMem (fun a => { a with injectWrite := line + 1 })
    else m

/-- A write to the manager's blocks (R295). -/
def Mach.writeManager (m : Mach) (off : Nat) (mask v : DWord) : Mach :=
  if off = 0x20200 then m.modHost (fun h => { h with resetDone := h.resetDone &&& ~~~(v &&& mask) })
  else if 0x24000 ≤ off ∧ off < 0x24200 then
    m.modPart ((off - 0x24000) / 8 + 1) (fun q =>
      let n := rw mask (BitVec.ofNat 64 (q.domain.toNat + at_ 20 q.ingress.toNat)) v
      { q with domain := n.truncate 20, ingress := n.getLsbD 20 })
  else if off = 0x40200 then
    let n := rw mask (BitVec.ofNat 64 m.pwrOpMax) v
    m.modPower (fun w => { w with opMax := (List.range 8).foldl (fun t h => tput 7 t h (n.toNat / 2 ^ (4 * h) % 8)) w.opMax })
  else if off = 0x60010 then m.modRas (fun r => { r with mask := (rw mask (r.mask.zeroExtend 64) v).truncate 5 })
  else if off = 0x60018 then m.modRas (fun r => { r with pend := r.pend &&& ~~~((v &&& mask).truncate 5) })
  else if off = 0x60100 then m.writeInject mask v
  else m

/-- A write of a table's two words. -/
def Mach.writeMsix2 (m : Mach) (fn : Fn) (o : Nat) (lo hi : Bool) (v : DWord) : Mach :=
  let m := if lo then m.writeMsix fn (o / 16) (o % 16 / 4) (v.toNat % 2 ^ 32) else m
  if hi then m.writeMsix fn (o / 16) (o % 16 / 4 + 1) (v.toNat / 2 ^ 32) else m

/-- A write of one or both words at an offset that is a multiple of 8 of a physical function. -/
def Mach.writePf (m : Mach) (l off : Nat) (lo hi : Bool) (v : DWord) : Mach :=
  if 0x10000 ≤ off ∧ off < 0x18000 then m.writeChannel (.pf l) (chanKey (.pf l) ((off - 0x10000) / 0x1000)) (off % 0x1000) lo hi v
  else if 0x80200 ≤ off ∧ off < 0x80240 then
    let clear := fun n => (BitVec.ofNat 64 n &&& ~~~(v &&& wordMask lo hi)).toNat
    { m with clk := { m.clk with lcLate := tmod 0 m.clk.lcLate ((off - 0x80200) / 8) clear } }
  else if 0x3FF0000 ≤ off ∧ off < 0x3FF0400 then m.writeMsix2 (.pf l) (off - 0x3FF0000) lo hi v
  else if l = 0 then m.writeManager off (wordMask lo hi) v
  else m

/-- Writes to QD_BASE and QD_SIZE, ignored while HEAD and TAIL differ, and to QD_TAIL and QD_ERR (R397, R398). -/
def Mach.writeQd (m : Mach) (p off : Nat) (mask v : DWord) : Mach :=
  let b := (m.part p).sb
  if off = 0x20000 then
    (if b.qdHead = b.qdTail then m.modSb p (fun b => { b with qdBase := rw mask b.qdBase v &&& ~~~(0x3F : DWord) }) else m)
  else if off = 0x20008 then
    (if b.qdHead = b.qdTail ∧ mask.getLsbD 0 then m.modSb p (fun b => { b with qdSize := ringSize v.toNat }) else m)
  else if off = 0x20010 then
    (if mask.getLsbD 0 && b.qdSize != 0 then
      let m := m.modSb p (fun b => { b with qdTail := v.toNat % 65536 })
      if (m.part p).st == .running then m.processRing p else m
     else m)
  else if off = 0x20020 then m.modSb p (fun b => { b with qdErr := b.qdErr && !(v &&& mask).getLsbD 0 })
  else m

/-- ACCT_THRESH_CTL as written: SEL is RW, ARMED RW1S (R8). -/
def Part.writeThrCtl (q : Part) (mask v : DWord) : Part :=
  { q with thrSel := (rw mask (q.thrSel.zeroExtend 64) v).truncate 4, thrArmed := q.thrArmed || (v &&& mask).getLsbD 8 }

/-- A write of one or both words at an offset that is a multiple of 8 of a partition's VF. -/
def Mach.writeVf (m : Mach) (l p off : Nat) (lo hi : Bool) (v : DWord) : Mach :=
  let mask := wordMask lo hi
  if 0x10000 ≤ off ∧ off < 0x18000 then m.writeChannel (.vf l p) (chanKey (.vf l p) ((off - 0x10000) / 0x1000)) (off % 0x1000) lo hi v
  else if 0x20000 ≤ off ∧ off < 0x20028 then m.writeQd p off mask v
  else if off = 0x30100 then m.modPart p (fun q => q.writeThrCtl mask v)
  else if off = 0x30108 then m.modPart p (fun q => { q with thrVal := rw mask q.thrVal v })
  else if off = 0x40000 then m.modPart p (fun q => { q with irqCause := q.irqCause &&& ~~~((v &&& mask).truncate 5) })
  else if 0x80000 ≤ off ∧ off < 0x88000 then m.writeMsix2 (.vf l p) (off - 0x80000) lo hi v
  else m

/-- A write of one or both words of the 64 bits at an offset of a function's BAR0. -/
def Mach.writeReg (m : Mach) (fn : Fn) (off : Nat) (lo hi : Bool) (v : DWord) : Mach :=
  match fn with
  | .pf l => m.writePf l off lo hi v
  | .vf l p => m.writeVf l p off lo hi v

/-- A 32-bit write at an offset that is a multiple of 4. -/
def Mach.write32 (m : Mach) (fn : Fn) (off v : Nat) : Mach :=
  if off % 8 = 0 then m.writeReg fn off true false (BitVec.ofNat 64 (v % 2 ^ 32))
  else m.writeReg fn (off / 8 * 8) false true (BitVec.ofNat 64 (v % 2 ^ 32 * 2 ^ 32))

/-- A write covers only part of a word, or is of a size that the map does not take (R299). DEDUCED: log 95. -/
def partialWord (off size : Nat) : Bool := !((size == 4 || size == 8) && off % 4 == 0)

/-- A BAR0 write to a function whose BARs answer: partial words and offsets outside every block are discarded and logged (R299,
R300); a write of 8 bytes at 4 mod 8 is two 32-bit writes, low first. DEDUCED: log 95. -/
def Mach.barWrite (m : Mach) (fn : Fn) (off size : Nat) (v : DWord) : Mach :=
  if partialWord off size || !inBlock fn off then m.logAer (fnKey fn) 0
  else if size = 4 then m.write32 fn off v.toNat
  else if off % 8 = 0 then m.writeReg fn off true true v
  else
    let m := m.write32 fn off (v.toNat % 2 ^ 32)
    if inBlock fn (off + 4) then m.write32 fn (off + 4) (v.toNat / 2 ^ 32) else m.logAer (fnKey fn) 0

/-- Runs a BAR0 write of a function whose BARs answer, in the order of the port's posted writes (R282). -/
def onBar (fn : Fn) (s : State) (off size : Nat) (v : DWord) (f : Mach → Mach) : Out :=
  s.run fun m => if fnOk fn then gate m (m.barGate fn == .open_) (m.inPost fn off size v (f m)) else .refused .noSuchUnit

/-- REGISTER_WRITE (R8 to R10, R299, R300). -/
def execRegisterWrite (fn : Fn) (offset size : Nat) (value : DWord) (s : State) : Out :=
  onBar fn s offset size value fun m => m.barWrite fn offset size value

/-- The registers that hold write-1-to-clear bits. -/
def isW1c (fn : Fn) (off : Nat) : Bool :=
  match fn with
  | .pf l => (decide (0x10000 ≤ off) && decide (off < 0x18000) && off % 0x1000 == 8) || (decide (0x80200 ≤ off) && decide (off < 0x80240)) ||
      (l == 0 && (off == 0x20200 || off == 0x60018))
  | .vf _ _ => (decide (0x10000 ≤ off) && decide (off < 0x18000) && off % 0x1000 == 8) || off == 0x20020 || off == 0x40000

/-- W1C_CLEAR (R8): an aligned 8-byte write to a register with write-1-to-clear bits. -/
def execW1cClear (fn : Fn) (offset : Nat) (value : DWord) (s : State) : Out :=
  onBar fn s offset 8 value fun m => if offset % 8 = 0 ∧ isW1c fn offset then m.writeReg fn offset true true value else m

/-- BAR0_UNSUPPORTED_ACCESS (R299, R300, R313, R315, Table 12.3): an access outside every block, a write of part of a word, or a read of
another size or alignment than R299 asks for, which returns the words that contain it. -/
def execBar0UnsupportedAccess (fn : Fn) (offset size : Nat) (write : Bool) (s : State) : Out :=
  s.run fun m =>
    if !fnOk fn then .refused .noSuchUnit
    else
      let key := fnKey fn
      let inside := inBlock fn offset
      match m.barGate fn, write with
      | .closed, _ => .next m
      | .open_, true => .next (if partialWord offset size || !inside then m.logAer key 0 else m)
      | .open_, false =>
        .next (if inside then (let r := m.readWords fn offset size; r.2.emit (.readData key r.1)) else (m.logAer key 0).emit (.ur key))
      | _, true => .next (if inside then m else m.logAer key 0)
      | .ur, false => .next ((if inside then m else m.logAer key 0).emit (.ur key))
      | .zero, false =>
        .next (if inside then m.emit (.readData key ((m.readWords fn offset size).1)) else (m.logAer key 0).emit (.ur key))

/-- ACCT_THRESH_CTL_WRITE (R8, R409). -/
def execAcctThreshCtlWrite (part : Nat) (value : DWord) (s : State) : Out :=
  s.run fun m =>
    if !partOk part then .refused .noSuchUnit
    else gate m (m.barGate (.vf (m.part part).link part) == .open_)
      (m.inPost (.vf (m.part part).link part) 0x30100 8 value (m.modPart part (fun q => q.writeThrCtl (BitVec.allOnes 64) value)))

/-- A write by the port 0 physical function to one of the manager's registers (R295). -/
def managerWrite (off : Nat) (value : DWord) (s : State) : Out :=
  onBar (.pf 0) s off 8 value fun m => m.writeManager off (BitVec.allOnes 64) value

/-- PART_LINK_WRITE (R431). -/
def execPartLinkWrite (part : Nat) (value : DWord) (s : State) : Out :=
  if partOk part then managerWrite (0x24000 + 8 * (part - 1)) value s else .refused .noSuchUnit

/-- PWR_OP_MAX_WRITE (R452). -/
def execPwrOpMaxWrite (value : DWord) (s : State) : Out := managerWrite 0x40200 value s

/-- RAS_ALERT_MASK_WRITE (R584). -/
def execRasAlertMaskWrite (value : DWord) (s : State) : Out := managerWrite 0x60010 value s

/-- RAS_ALERT_PEND_CLEAR (R584). -/
def execRasAlertPendClear (value : DWord) (s : State) : Out := managerWrite 0x60018 value s

/-- RAS_INJECT_GO (R548). -/
def execRasInjectGo (value : DWord) (s : State) : Out := managerWrite 0x60100 (value ||| (1#64 <<< 63)) s

end Sys2Proof.Machine
end

