-- ==== Sys2Proof/Machine/HostIf.lean ====
section
/-! DEFINITION. Machine/HostIf.lean: the host ports: BAR2, configuration requests, HDM decoders, link-up, link-down and hot reset,
D3hot, TDISP, IDE, SPDM and DOE (R292 to R318, R496, R512, R515, R517, R518, R569). -/

namespace Sys2Proof.Machine

/-! BAR2 (R298, R303, R308, R313, R315). -/

/-- The pieces of a BAR2 access as device physical ranges; none when a page is not mapped to HBM for the access (R298). -/
def Mach.barPieces (m : Mach) (space va n : Nat) (acc : Acc) : Option (List (Nat × Nat × Nat)) :=
  (pieces va n).foldl (fun r pc =>
    match r, m.translate space acc pc.1 with
    | some l, .ok (.hbm pa) => some (l ++ [(pa, pc.2, pc.1 - va)])
    | _, _ => none) (some [])

/-- Reads the pieces: at the coherence point, or (`direct`) from HBM as the non-coherent host read of R228. -/
def readPieces (direct : Bool) (part : Nat) : List (Nat × Nat × Nat) → Mach → Perf (List Byte × Bool)
  | [], m => .done ([], false) m
  | (pa, n, _) :: l, m =>
    let one : Perf (List Byte × Bool) :=
      if direct then
        let r := (linesOf pa n).foldl (fun (acc : (List Byte × Bool) × Mach) line =>
          let h := acc.2.hbmRead line part
          ((acc.1.1 ++ lineBytes h.1.1, acc.1.2 || h.1.2), if h.1.2 && !acc.1.2 then h.2.deferred 0x11 line part 0 else h.2)) (([], false), m)
        .done (slice r.1.1 (pa % 64) n, r.1.2) r.2
      else m.cohBytes pa n part
    match one with
    | .waits m => .waits m
    | .done (b, po) m =>
      match readPieces direct part l m with
      | .done (bs, qo) m => .done (b ++ bs, po || qo) m
      | .waits m => .waits m

/-- A BAR2 read of a function whose BARs answer (R298, R303, R308). -/
def Mach.barRead (m : Mach) (fn : Fn) (va n : Nat) (direct tailBad : Bool) : Perf Unit :=
  let key := fnKey fn
  match m.barPieces (spaceOf fn) va n .read with
  | none => .done () ((m.logAer key 0).emit (.ur key))
  | some l =>
    let p := spacePart (spaceOf fn)
    match readPieces direct p l m with
    | .waits m => .waits m
    | .done (b, po) m =>
      let m := (m.account p 6 n).spend p 4 0 n
      .done ()
        (if po then (m.logAer key 2).emit (.readPoisoned key b)
         else if tailBad then ((m.event (Config.rasCode 7).1 (Config.rasCode 7).2).logAer key 2).emit (.readPoisoned key b)
         else m.emit (.readData key b))

/-- Writes pieces at the coherence point. -/
def writePieces (part : Nat) (data : List Byte) : List (Nat × Nat × Nat) → Mach → Perf Unit
  | [], m => .done () m
  | (pa, n, o) :: l, m =>
    match m.cohPut pa (slice data o n) part 0 true with
    | .done _ m => writePieces part data l m
    | .waits m => .waits m

/-- A BAR2 write of a function whose BARs answer, once every line of it can be written (R282, R298, R308, R364). -/
def Mach.bar2Put (m : Mach) (fn : Fn) (va : Nat) (data : List Byte) : Perf Unit :=
  match m.barPieces (spaceOf fn) va data.length .write with
  | none => .done () (m.logAer (fnKey fn) 0)
  | some l =>
    match l.findSome? (fun x => m.putWaits none x.1 x.2.1) with
    | some m => .waits m
    | none =>
      let p := spacePart (spaceOf fn)
      match writePieces p data l m with
      | .waits m => .waits m
      | .done _ m => .done () ((m.account p 7 data.length).spend p 5 0 data.length)

/-- Performs a host access as the function's gate says: before DEVICE_READY, for an absent VF, in D3hot or without Memory Space Enable a BAR2
read completes with Unsupported Request and a write is dropped (R296, R313, R315). DEDUCED: log 97. -/
def Mach.hostAccess (m : Mach) (e : Posted) : Perf Unit :=
  match m.barGate e.fn, e.acc with
  | .open_, .write2 va d => m.bar2Put e.fn va d
  | .open_, .read2 va n direct bad => m.barRead e.fn va n direct bad
  | .open_, .reg off size v => .done () (m.barWrite e.fn off size v)
  | .closed, _ => .done () m
  | _, .read2 _ _ _ _ => .done () (m.emit (.ur (fnKey e.fn)))
  | _, _ => .done () m

/-- Performs the waiting host accesses in their order: one waits while an earlier write of its port does (R282, R298).  DEDUCED: log 134. -/
def Mach.drainPosted (m : Mach) : Mach :=
  let step := fun (acc : Mach × List Posted) (e : Posted) =>
    if acc.2.any (fun x => portOf (fnLink x.fn) == portOf (fnLink e.fn) && x.acc.isWrite) then (acc.1, acc.2 ++ [e])
    else
      match acc.1.hostAccess e with
      | .done _ m => (m, acc.2)
      | .waits m => (m, acc.2 ++ [e])
  let r := m.host.posted.foldl step (m.modHost (fun h => { h with posted := [] }), [])
  r.1.modHost (fun h => { h with posted := r.2 })

/-- An access to BAR2 arrives: it joins the accesses of its port that wait, and what can be performed is. -/
def onBar2 (fn : Fn) (offset len : Nat) (a : HostAcc) (s : State) : Out :=
  s.run fun m =>
    if !fnOk fn then .refused .noSuchUnit
    else gate m (len != 0 && decide (offset + len ≤ (m.fnSt (fnKey fn)).bar2 * 2 ^ 30)) (m.queueHost fn a).drainPosted

/-- BAR2_READ (R298, R303, R308); `tailBad` is a Tail mismatch at host egress. DEDUCED: log 96. -/
def execBar2Read (fn : Fn) (offset len : Nat) (tailBad : Bool) (s : State) : Out := onBar2 fn offset len (.read2 offset len false tailBad) s

/-- BAR2_READ_NO_SNOOP (R303): in the CXL configuration port 0 ignores No Snoop. -/
def execBar2ReadNoSnoop (fn : Fn) (offset len : Nat) (s : State) : Out :=
  onBar2 fn offset len (.read2 offset len (!s.m.hostCached (fnLink fn)) false) s

/-- BAR2_WRITE (R282, R298). DEDUCED: log 96. -/
def execBar2Write (fn : Fn) (offset : Nat) (data : List Byte) (s : State) : Out := onBar2 fn offset data.length (.write2 offset data) s

/-! D3hot (R315, R512, R515, R517, R518). -/

/-- A function-level reset is in progress. -/
def Mach.flrRuns (m : Mach) : Bool := (List.range 65).any (fun p => (m.part p).st == .resetting)

/-- A core of a partition is halted under INVASIVE (R515). -/
def Mach.hasHalted (m : Mach) (p : Nat) : Bool := (m.coresOf p).any (fun c => (m.core c).halted)

/-- A SEC.LIFECYCLE or SEC.DBG_UNLOCK waits for a function-level reset (R517). DEDUCED: log 99. -/
def Mach.secWaits (m : Mach) : Bool :=
  m.flrRuns && (List.range 8).any (fun ch =>
    match m.peek ch with
    | .cmd c _ => c.opcode == 0x0A02 || c.opcode == 0x0A04
    | _ => false)

/-- The entry to D3hot (R512): every running partition without a halted core freezes. -/
def Mach.enterD3 (m : Mach) : Mach :=
  if m.start.d3hot || m.secWaits then m
  else
    let m := m.modStart (fun x => { x with d3hot := true, d3At := m.now })
    (m.existing.filter (fun p => (m.part p).st == .running && (m.part p).freezing = 0 && !m.hasHalted p)).foldl (fun m p => m.startFreeze p true) m

/-- D3HOT_ENTRY (R512): the host writes D3hot to the port 0 physical function. DEDUCED: log 99. -/
def execD3hotEntry (s : State) : Out :=
  s.run fun m => gate m (m.up && (m.hlink 0).up && !m.start.d3hot) ((m.modFn 0 (fun f => { f with d3hot := true })).enterD3)

/-- D3HOT_FREEZE_TIMEOUT (R512). -/
def execD3hotFreezeTimeout (part : Nat) (s : State) : Out :=
  s.run fun m =>
    if !partOk part then .refused .noSuchUnit
    else
      let q := m.part part
      gate m (m.start.d3hot && q.d3Froze && q.freezing != 0 && q.st == .running && decide (q.freezing - 1 + sec1 ≤ m.now)) (m.startFlr part)

/-- The return to D0 (R512, R518): the partitions that the entry froze thaw, held messages are sent, and a warm reset that
waited for D0 follows. DEDUCED: log 112. -/
def Mach.leaveD3 (m : Mach) : Mach :=
  let m := (m.existing.filter (fun p => (m.part p).d3Froze)).foldl (fun m p =>
    if (m.part p).st == .frozen then m.thaw p else m.modPart p (fun q => { q with freezing := 0, d3Froze := false })) m
  let warm := m.start.warmOnD0
  let m := m.modStart (fun x => { x with d3hot := false, warmOnD0 := false })
  let m := (m.modFn 0 (fun f => { f with d3hot := false })).flushPba 0 0
  if warm then m.scheduleWarm 0 else m

/-- D0_ENTRY (R512, R518). -/
def execD0Entry (s : State) : Out :=
  s.run fun m => gate m (m.up && (m.hlink 0).up && (m.fnSt 0).d3hot) m.leaveD3

/-! Configuration requests (R305, R307, R312, R315, R316). -/

/-- A write of a power state: the port 0 physical function's takes the device to D3hot or back. -/
def Mach.setPower (m : Mach) (fn : Fn) (d3 : Bool) : Mach :=
  let key := fnKey fn
  if key = 0 then
    if d3 then (m.modFn 0 (fun f => { f with d3hot := true })).enterD3 else if (m.fnSt 0).d3hot then m.leaveD3 else m
  else
    let m := m.modFn key (fun f => { f with d3hot := d3 })
    if d3 then m else m.flushPba key (fnLink fn)

/-- SR-IOV as a function reports it: TotalVFs 64, NumVFs, First VF Offset 1 and VF Stride 1 (R305). -/
def Mach.sriov (m : Mach) (l : Nat) : Nat := 64 + 2 ^ 16 * (m.hlink l).numVfs + 2 ^ 32 + 2 ^ 48

/-- A locked function's configuration has changed: it moves to ERROR (R311). -/
def FnState.breakLock (f : FnState) : FnState := if f.tdisp == .locked || f.tdisp == .run then { f with tdisp := .error } else f

/-- The function is locked: what its lock freezes does not change (R311). -/
def FnState.isLocked (f : FnState) : Bool := f.tdisp == .locked || f.tdisp == .run

/-- The size of a BAR in bytes (Table 12.2); the VF BARs of a physical function are those of its VFs. -/
def Mach.barSize (m : Mach) (fn : Fn) (vf two : Bool) : Nat :=
  if two then (if vf then 2 ^ 38 else (m.fnSt (fnKey fn)).bar2 * 2 ^ 30)
  else match fn with | .pf _ => if vf then 2 ^ 20 else 2 ^ 26 | .vf _ _ => 2 ^ 20

/-- A base address as a BAR of a size holds it: its low bits are zero. -/
def barBase (size : Nat) (addr : DWord) : DWord := BitVec.ofNat 64 (addr.toNat / size * size)

/-- The address at which a BAR stands: a VF's lies in the VF BAR of its physical function, after those of the VFs before it (R305). -/
def Mach.barAddress (m : Mach) (fn : Fn) (vf two : Bool) : Nat :=
  match fn with
  | .pf l =>
    let f := m.fnSt l
    (if vf then (if two then f.vfBar2 else f.vfBar0) else if two then f.bar2At else f.bar0).toNat
  | .vf l p => (if two then (m.fnSt l).vfBar2 else (m.fnSt l).vfBar0).toNat + (p - 1) * m.barSize fn true two

/-- What a write of a physical function's BAR does; one that would move the VFs of its link moves the locked ones to ERROR instead (R297, R305,
R311). -/
def Mach.setBar (m : Mach) (l : Nat) (vf two : Bool) (addr : DWord) : Mach :=
  let a := barBase (m.barSize (.pf l) vf two) addr
  let keys := (List.range 64).map (fun p => 4 + 64 * l + (p + 1))
  if vf && keys.any (fun k => (m.fnSt k).isLocked) then keys.foldl (fun m k => m.modFn k FnState.breakLock) m
  else m.modFn l (fun f => if vf then (if two then { f with vfBar2 := a } else { f with vfBar0 := a }) else if two then { f with bar2At := a } else { f with bar0 := a })

/-- A payload or read-request size of Table 12.1, at most `top`. -/
def tlpSize (top n : Nat) : Bool := [128, 256, 512, 1024, 2048, 4096].contains n && decide (n ≤ top)

/-- The link runs in FLIT mode: at 64 GT/s (Table 12.1). -/
def HLink.flit (h : HLink) : Bool := h.rate == 128

/-- The number that names a link power state, and a CXL IDE mode. -/
def powerCode : LinkPower → Nat
  | .l0 => 0 | .l0p => 1 | .l1 => 2
def cxlIdeCode : CxlIdeMode → Nat
  | .off => 0 | .skid => 1 | .containment => 2

/-- The link as its registers report it: rate in half GT/s, width, FLIT mode, tag bits, the largest payload and read request, the power state and
the configuration (Table 12.1; the places DESIGN CHOICE, log 135). -/
def HLink.report (h : HLink) : Nat :=
  h.rate + at_ 8 h.width + at_ 16 h.flit.toNat + at_ 17 (if h.flit then 14 else 10) + at_ 24 512 + at_ 40 4096 + at_ 56 (powerCode h.power) + at_ 58 h.cxl.toNat +
    at_ 60 (cxlIdeCode h.cxlIde)

/-- What a configuration request makes of the device, and the data it returns.  The places of fields in what is read are the model's (DESIGN
CHOICE, log 135). -/
def Mach.configAct (m : Mach) (fn : Fn) : CfgReq → Mach × Nat
  | .memorySpace on => ((m.modFn (fnKey fn) (fun f => { f with mse := on, bar2 := if on then f.bar2 else f.bar2New })).flushPba (fnKey fn) (fnLink fn), 0)
  | .msixEnable on => ((m.modFn (fnKey fn) (fun f => { f with msixEn := on })).flushPba (fnKey fn) (fnLink fn), 0)
  | .msixFunctionMask on => ((m.modFn (fnKey fn) (fun f => { f with msixMask := on })).flushPba (fnKey fn) (fnLink fn), 0)
  | .powerState d3 => (m.setPower fn d3, 0)
  | .readVfs => (m, match fn with | .pf l => m.sriov l | .vf _ _ => 0)
  | .bar vf two addr => (match fn with | .pf l => m.setBar l vf two addr | .vf _ _ => m, 0)
  | .readBar vf two => (m, m.barAddress fn vf two + 4 + (if two then 8 else 0))
  | .devControl payload rr =>
    (if tlpSize 512 payload && tlpSize 4096 rr then m.modFn (fnKey fn) (fun f => { f with payload := payload, readReq := rr }) else m, 0)
  | .readDevControl => (m, (m.fnSt (fnKey fn)).payload + at_ 16 (m.fnSt (fnKey fn)).readReq)
  | .readLink => (m, (m.hlink (fnLink fn)).report)
  | .linkPower st =>
    (match fn with | .pf l => (if st == .l0p && !(m.hlink l).flit then m else m.modLink l (fun h => { h with power := st })) | .vf _ _ => m, 0)
  | .atsEnable on => (m.modFn (fnKey fn) (fun f => if f.isLocked then f.breakLock else { f with atsEn := on }), 0)
  | .readAts => (m, 32 + at_ 8 1 + at_ 16 16 + at_ 24 (m.fnSt (fnKey fn)).atsEn.toNat)
  | .aerSeverity v => (m.modFn (fnKey fn) (fun f => { f with aerSev := v }), 0)
  | .clearAer v => (m.modFn (fnKey fn) (fun f => { f with aer := f.aer &&& ~~~v, aerAdvisory := f.aerAdvisory && !v.getLsbD 0 }), 0)
  | .readAer => (m, (m.fnSt (fnKey fn)).aer.toNat + at_ 4 (m.fnSt (fnKey fn)).aerAdvisory.toNat + at_ 8 (m.fnSt (fnKey fn)).aerSev.toNat)
  | .readReadiness => (m, 600)
  | .ideAssociate stream => (m.modFn (fnKey fn) (fun f => { f with via := match stream with | some k => k + 1 | none => 0 }), 0)
  | .cxlIde mode => (if fn == .pf 0 && (m.hlink 0).cxl then m.modLink 0 (fun h => { h with cxlIde := mode }) else m, 0)
  | .readCxlRange => (m, if fn == .pf 0 then m.host.pool * 2 ^ 30 else 0)
  | .readHdm second =>
    let d := if second then m.host.hdm1 else m.host.hdm0
    (m, if fn == .pf 0 then d.committed.toNat + 2 * d.error.toNat else 0)
  | .readCxlRas => (m, if fn == .pf 0 then m.host.cxlRas.toNat else 0)
  | .clearCxlRas => (if fn == .pf 0 then m.modHost (fun h => { h with cxlRas := false }) else m, 0)

/-- What a configuration request does to a function that is there, and its completion. -/
def Mach.config (m : Mach) (fn : Fn) (req : CfgReq) : Mach := (m.configAct fn req).1.emit (.config (fnKey fn) (m.configAct fn req).2)

/-- CONFIG_REQUEST (R312): Request Retry Status until the configuration space is ready. -/
def execConfigRequest (fn : Fn) (req : CfgReq) (s : State) : Out :=
  s.run fun m =>
    if !fnOk fn then .refused .noSuchUnit
    else if !m.linkExists (fnLink fn) || !(m.hlink (fnLink fn)).up then .next m
    else if !(m.hlink (fnLink fn)).cfgReady then .next (m.emit (.retry (fnLink fn)))
    else if !m.present fn then .next (m.emit (.ur (fnKey fn)))
    else .next (m.config fn req)

/-- A function's configuration space is reached: its link is up, configuration space is ready and the function is there. -/
def Mach.cfgOpen (m : Mach) (fn : Fn) : Bool :=
  fnOk fn && m.linkExists (fnLink fn) && (m.hlink (fnLink fn)).up && (m.hlink (fnLink fn)).cfgReady && m.present fn

/-- BAR2_RESIZE (R297, R311, R316): sizes are powers of two GiB. -/
def execBar2Resize (fn : Fn) (size : Nat) (s : State) : Out :=
  s.run fun m =>
    if !fnOk fn then .refused .noSuchUnit
    else
      let top := match fn with | .pf _ => 512 | .vf _ _ => 256
      let f := m.fnSt (fnKey fn)
      gate m (m.cfgOpen fn && isPow2 size && decide (size ≤ top))
        (if f.tdisp == .locked || f.tdisp == .run then m.modFn (fnKey fn) FnState.breakLock
         else m.modFn (fnKey fn) (fun f => { f with bar2 := if f.mse then f.bar2 else size, bar2New := size }))

/-- Phase 6 of the start ends when configuration space is ready on every trained link (Table 21.1, R42, R572). -/
def Mach.passPhase6 (m : Mach) : Mach :=
  if m.start.phase == .run 6 && [0, 1, 2, 3].all (fun i => !(m.hlink i).up || (m.hlink i).cfgReady) then m.modStart (fun x => { x with phase := .run 7 })
  else m

/-- Configuration space becomes ready on a link and the Device Readiness Status message is sent (R312); phase 6 of the start
ends when every trained link is ready (Table 21.1). -/
def Mach.linkReady (m : Mach) (l : Nat) : Mach :=
  ((m.modLink l (fun x => { x with cfgReady := true, drs := true })).emit (.drs l)).passPhase6

/-- The start has reached the point from which configuration spaces become ready (Table 21.1, R519, R572, R576). -/
def Mach.cfgPhase (m : Mach) : Bool :=
  match m.start.phase with
  | .run n => decide (6 ≤ n)
  | .held => false
  | _ => true

/-- DEVICE_READINESS_STATUS (R312). -/
def execDeviceReadinessStatus (link : Nat) (s : State) : Out :=
  s.run fun m =>
    if 4 ≤ link then .refused .noSuchUnit
    else gate m (m.linkExists link && (m.hlink link).up && !(m.hlink link).cfgReady && m.cfgPhase) (m.linkReady link)

/-- VF `p` of a link after a change of VF Enable or NumVFs (R305): one that goes loses its configuration, a partition's stays. -/
def Mach.vfAfter (m : Mach) (l : Nat) (enable : Bool) (num p : Nat) : FnState :=
  let f := m.fnSt (4 + 64 * l + p)
  let covered := enable && decide (p ≤ num)
  if covered then { f with kept := false }
  else if m.bound l p && m.present (.vf l p) then { f with kept := true }
  else FnState.reset

/-- VF_ENABLE_CHANGE (R305). -/
def execVfEnableChange (link : Nat) (enable : Bool) (numVfs : Nat) (s : State) : Out :=
  s.run fun m =>
    if 4 ≤ link then .refused .noSuchUnit
    else
      let held := (List.range 65).any (fun p => p != 0 && m.bound link p && m.present (.vf link p) && !(enable && decide (p ≤ numVfs)))
      let after := (List.range 65).foldl (fun (n : Mach) p => if p = 0 then n else n.modFn (4 + 64 * link + p) (fun _ => m.vfAfter link enable numVfs p)) m
      let after := after.modLink link (fun x => { x with vfEnable := enable, numVfs := numVfs })
      gate m (m.cfgOpen (.pf link) && decide (numVfs ≤ 64)) (if held then after.logAer link 0 else after)

/-! HDM decoders (R302). -/

/-- The decoder of a number. -/
def HostSt.hdm (h : HostSt) (i : Nat) : HdmDecoder := if i = 0 then h.hdm0 else h.hdm1
def HostSt.setHdm (h : HostSt) (i : Nat) (d : HdmDecoder) : HostSt := if i = 0 then { h with hdm0 := d } else { h with hdm1 := d }

/-- A commit is in order: one way, whole 256 MiB granules inside the host pool, apart from the other decoder. -/
def Mach.hdmOk (m : Mach) (i base size pool ways : Nat) : Bool :=
  let o := m.host.hdm (1 - i)
  ways == 1 && base % 2 ^ 28 == 0 && size % 2 ^ 28 == 0 && pool % 2 ^ 28 == 0 && size != 0 && decide (pool + size ≤ m.host.pool * 2 ^ 30) &&
    !(o.committed && (overlap base size o.base o.size || overlap pool size o.pool o.size))

/-- The offset in the host pool of a line of it. -/
def Mach.poolOffset (m : Mach) (line : Nat) : Option Nat :=
  (m.poolUnits.findIdx? (· == line / 2 ^ 24)).map (fun i => i * 2 ^ 30 + line % 2 ^ 24 * 64)

/-- A committed decoder maps a line of the host pool: the host reaches it by CXL.mem (R302). -/
def Mach.hdmMaps (m : Mach) (line : Nat) : Bool :=
  match m.poolOffset line with
  | some o => [m.host.hdm0, m.host.hdm1].any (fun d => d.committed && decide (d.pool ≤ o) && decide (o < d.pool + d.size))
  | none => false

/-- HDM_DECODER_COMMIT (R302). -/
def execHdmDecoderCommit (dec base size pool ways : Nat) (s : State) : Out :=
  s.run fun m =>
    if 2 ≤ dec then .refused .noSuchUnit
    else gate m (m.cfgOpen (.pf 0) && (m.hlink 0).cxl && !(m.host.hdm dec).committed)
      (m.modHost (fun h => h.setHdm dec
        (if m.hdmOk dec base size pool ways then ⟨true, false, base, size, pool⟩ else { h.hdm dec with error := true })))

/-! Links up, down and reset (R292 to R294, R314, R317, R560, R569, Table 21.2). -/

/-- A rate (in half GT/s) and width that Table 12.1 lists for a link. -/
def trained (l rate width : Nat) : Bool :=
  [128, 64, 32, 16, 10, 5].contains rate && [16, 8, 4, 2, 1].contains width && (decide (l < 2) || decide (width ≤ 8))

/-- HOST_LINK_UP (R292, R294, R560): CXL on port 0 alone, at 32 or 64 GT/s; a link that trains after phase 6 has its
configuration space ready then (R572). -/
def execHostLinkUp (link rate width : Nat) (cxl : Bool) (s : State) : Out :=
  s.run fun m =>
    if 4 ≤ link then .refused .noSuchUnit
    else
      let h := m.hlink link
      let ready := match m.start.phase with | .run n => decide (7 ≤ n) | .held => false | _ => true
      let up := m.modLink link (fun x => { x with up := true, rate := rate, width := width, cxl := cxl, downAt := 0, power := .l0 })
      let up := if ready && !h.cfgReady then up.linkReady link else up
      gate m (m.linkExists link && !h.up && !h.perst && m.clk.locked && decide (300 * us ≤ m.now) && m.start.phase != .held &&
          trained link rate width && (!cxl || (link == 0 && decide (64 ≤ rate))))
        ((List.range 65).foldl (fun m p => if p = 0 then m.flushPba link link else m.flushPba (4 + 64 * link + p) link) up)

/-- A link goes down (R317). -/
def Mach.dropLink (m : Mach) (l : Nat) : Mach := (m.modLink l (fun x => { x with up := false, downAt := m.now + 1 })).passPhase6

/-- HOST_LINK_DOWN (R317). -/
def execHostLinkDown (link : Nat) (s : State) : Out :=
  s.run fun m => if 4 ≤ link then .refused .noSuchUnit else gate m (m.hlink link).up (m.dropLink link)

/-- The host lines of the slices are invalidated (R569): dirty data is lost and logged as a contained record. -/
def Mach.dropHostLines (m : Mach) : Mach :=
  let dirty := m.mem.llc.any (fun e => decide (2 ^ 46 ≤ e.1) && e.2.dirty)
  let m := m.modMem (fun a => { a with llc := a.llc.filter (fun e => decide (e.1 < 2 ^ 46)), txns := a.txns.filter (fun t => decide (t.req.line < 2 ^ 46)) })
  if dirty then m.event (Config.rasCode 9).1 2 else m

/-- A function after its configuration space is reset; a TDISP interface keeps ERROR and leaves its lock by it (R311); its AER registers are
sticky (PRESUMED, log 135).  DEDUCED: log 98. -/
def FnState.configReset (f : FnState) : FnState :=
  { FnState.reset with tdisp := match f.tdisp with | .unlocked => .unlocked | _ => .error, aer := f.aer, aerSev := f.aerSev, aerAdvisory := f.aerAdvisory }

/-- The host-link hot reset of Table 21.2 (R314, R344, R569): configuration space, VF Enable and NumVFs, physical-function
mailboxes and MSI-X tables reset, and the partitions bound to the link are reset. DEDUCED: logs 98 and 112. -/
def Mach.hotReset (m : Mach) (l : Nat) : Mach :=
  let m := m.modLink l (fun x =>
    { x with up := false, downAt := 0, cxl := false, vfEnable := false, numVfs := 0, session := false, spdm := false, doe := 0, ide := [],
             cxlIde := .off, power := .l0 })
  let m := m.modHost (fun h => { h with posted := h.posted.filter (fun e => fnLink e.fn != l) })
  let m := (List.range 65).foldl (fun m p => m.modFn (if p = 0 then l else 4 + 64 * l + p) FnState.configReset) m
  let m := m.resetChans l
  let m := m.modMem (fun a => { a with atsWait := a.atsWait.filter (fun x => x.1 != 65 + l) })
  let m := ((m.existing.filter (fun p => (m.part p).link == l)).foldl (fun m p => m.startFlr p) m).passPhase6
  if l = 0 then
    let m := m.modHost (fun h => { h with hdm0 := ⟨false, false, 0, 0, 0⟩, hdm1 := ⟨false, false, 0, 0, 0⟩ })
    let m := if m.start.d3hot then m.leaveD3 else m
    m.dropHostLines
  else m

/-- The AER registers of a link's functions at a fundamental reset. -/
def Mach.clearAer (m : Mach) (l : Nat) : Mach :=
  (List.range 65).foldl (fun m p => m.modFn (if p = 0 then l else 4 + 64 * l + p) (fun f =>
    { f with aer := FnState.reset.aer, aerSev := FnState.reset.aerSev, aerAdvisory := false })) m

/-- HOST_LINK_HOT_RESET (R314, R565). -/
def execHostLinkHotReset (link : Nat) (s : State) : Out :=
  s.run fun m => if 4 ≤ link then .refused .noSuchUnit else gate m (m.hlink link).up (m.hotReset link)

/-- HOST_LINK_DOWN_GRACE_EXPIRY (R317). -/
def execHostLinkDownGraceExpiry (link : Nat) (s : State) : Out :=
  s.run fun m =>
    if 4 ≤ link then .refused .noSuchUnit
    else
      let h := m.hlink link
      gate m (!h.up && h.downAt != 0 && decide (h.downAt - 1 + 10 * ms ≤ m.now)) (m.hotReset link)

/-! TDISP (R311). -/

/-- Runs a TDISP event on the VF of a partition that exists, over the link's secured session. -/
def onTdi (part : Nat) (s : State) (due : Mach → FnState → Bool) (f : Mach → FnState → FnState) : Out :=
  s.run fun m =>
    if !partOk part then .refused .noSuchUnit
    else
      let key := m.vfKey part
      gate m ((m.part part).st != .absent && due m (m.fnSt key)) (m.modFn key (f m))

/-- TDISP_CONFIG_LOCKED (R311). -/
def execTdispConfigLocked (part : Nat) (s : State) : Out :=
  onTdi part s (fun m f => f.tdisp == .unlocked && (m.hlink (m.part part).link).session) (fun _ f => { f with tdisp := .locked })

/-- TDISP_RUN (R311): the interface is bound to a secure IDE stream of its link. -/
def execTdispRun (part stream : Nat) (s : State) : Out :=
  onTdi part s (fun m f => f.tdisp == .locked && (m.hlink (m.part part).link).session && (tget ⟨0, false⟩ (m.hlink (m.part part).link).ide stream).secure)
    (fun _ f => { f with tdisp := .run, stream := stream + 1 })

/-- TDISP_LOCKED_CONFIG_CHANGE (R311). -/
def execTdispLockedConfigChange (part : Nat) (s : State) : Out :=
  onTdi part s (fun _ f => f.tdisp == .locked || f.tdisp == .run) (fun _ f => f.breakLock)

/-- TDISP_UNLOCK (R311). -/
def execTdispUnlock (part : Nat) (s : State) : Out :=
  onTdi part s (fun _ f => f.tdisp != .unlocked) (fun _ f => { f with tdisp := .unlocked, stream := 0 })

/-! IDE, SPDM and DOE (R308 to R310, R496). -/

/-- IDE streams of a link: the link stream 0, 8 selective streams and CXL IDE on port 0, 4 selective streams on each port 1 link (R310). -/
def streamOk (l stream : Nat) : Bool := decide (l < 4) && decide (stream ≤ (if l = 0 then 9 else 4))

/-- The stream may be keyed: one link stream for a port, and CXL IDE in the CXL configuration (R310). -/
def Mach.streamFree (m : Mach) (l stream : Nat) : Bool :=
  if stream = 0 then [1, 2, 3].all (fun k => decide (l = 0) || k == l || !(tget ⟨0, false⟩ (m.hlink k).ide 0).secure)
  else stream != 9 || (m.hlink l).cxl

/-- IDE_KM (R310). -/
def execIdeKm (link stream : Nat) (key : BitVec 256) (s : State) : Out :=
  s.run fun m =>
    if !streamOk link stream then .refused .noSuchUnit
    else gate m ((m.hlink link).up && (m.hlink link).session && m.streamFree link stream) (m.modLink link (fun x => { x with ide := tput ⟨0, false⟩ x.ide stream ⟨key, true⟩ }))

/-- IDE_CHECK_FAILED (R308, R310): the stream becomes Insecure and the physical function logs IDE Check Failed. -/
def execIdeCheckFailed (link stream : Nat) (s : State) : Out :=
  s.run fun m =>
    if !streamOk link stream then .refused .noSuchUnit
    else gate m (tget ⟨0, false⟩ (m.hlink link).ide stream).secure
      ((m.modLink link (fun x => { x with ide := tmod ⟨0, false⟩ x.ide stream (fun e => { e with secure := false }) })).logAer link 4)

/-- Runs a request on the DOE mailbox of a link's physical function, which Moon answers (R309). -/
def onDoe (link : Nat) (s : State) (f : Mach → Mach) : Out :=
  s.run fun m =>
    if 4 ≤ link then .refused .noSuchUnit
    else gate m (m.cfgOpen (.pf link) && m.moonServes) (f m)

/-- SPDM response codes (DSP0274; PRESUMED, log 12), and the error codes of an ERROR response. -/
def spdmVersion : Nat := 0x04
def spdmCert : Nat := 0x02
def spdmMeas : Nat := 0x60
def spdmKeyRsp : Nat := 0x64
def spdmError : Nat := 0x7F
def spdmUnspecified : List Byte := [0x05]
def spdmMismatch : List Byte := [0x41]

/-- GET_VERSION (R496): VersionMismatch where only versions below 1.3 (major in [7:4], minor in [3:0]) are offered. -/
def execGetVersion (link version : Nat) (s : State) : Out :=
  onDoe link s fun m =>
    if version < 0x13 then m.emit (.spdm link spdmError spdmMismatch)
    else (m.modLink link (fun x => { x with spdm := true })).emit (.spdm link spdmVersion [0x13])

/-- GET_CERTIFICATE (R496): the slot 0 chain; in BLANK the error Unspecified. -/
def execGetCertificate (link : Nat) (s : State) : Out :=
  onDoe link s fun m =>
    if m.sec.life == .blank then m.emit (.spdm link spdmError spdmUnspecified) else m.emit (.spdm link spdmCert (Config.certificate 1))

/-- The blocks of GET_MEASUREMENTS: index and value of registers 1 to 8 (R495, R496). -/
def Mach.measBlocks (m : Mach) : List Byte := (List.range 8).flatMap (fun i => leBytes 1 (i + 1) ++ hashBytes (tget 0 m.sec.meas (i + 1)))

/-- GET_MEASUREMENTS (R496): signed by the Alias key; in BLANK the error Unspecified. -/
def execGetMeasurements (link : Nat) (s : State) : Out :=
  onDoe link s fun m =>
    if m.sec.life == .blank then m.emit (.spdm link spdmError spdmUnspecified)
    else m.emit (.spdm link spdmMeas (m.measBlocks ++ Config.sign 96 m.measBlocks))

/-- SPDM_KEY_EXCHANGE (R309): a secured session under the negotiated version; no key signs one in BLANK. -/
def execSpdmKeyExchange (link : Nat) (s : State) : Out :=
  onDoe link s fun m =>
    if m.sec.life == .blank || !(m.hlink link).spdm then m.emit (.spdm link spdmError spdmUnspecified)
    else (m.modLink link (fun x => { x with session := true })).emit (.spdm link spdmKeyRsp (Config.spdmBody 0 m.free))

/-- The DOE protocols of a physical function as (vendor, type): Discovery, CMA/SPDM, Secured CMA/SPDM and on port 0 CDAT
(R309; the numbers PRESUMED, log 12). -/
def doeProtocols (link : Nat) : List (Nat × Nat) := [(1, 0), (1, 1), (1, 2)] ++ (if link = 0 then [(0x1E98, 2)] else [])

/-- DOE_DISCOVERY (R309): the next protocol, and the index after it. -/
def execDoeDiscovery (link : Nat) (s : State) : Out :=
  onDoe link s fun m =>
    let l := doeProtocols link
    let i := (m.hlink link).doe
    let e := nth (1, 0) l i
    let next := if i + 1 < l.length then i + 1 else 0
    (m.modLink link (fun x => { x with doe := next })).emit (.doe link (leBytes 2 e.1 ++ leBytes 1 e.2 ++ leBytes 1 next))

/-- CDAT_READ (R309): port 0's DOE mailbox alone carries CDAT. -/
def execCdatRead (link : Nat) (s : State) : Out :=
  onDoe link s fun m => if link = 0 then m.emit (.doe link (Config.spdmBody 1 0)) else m

end Sys2Proof.Machine
end

