-- ==== Sys2Proof/Machine/Coherence.lean ====
section
/-! DEFINITION. Machine/Coherence.lean: the coherence protocol message by message: requests and evictions of the RLCs, the home's queue
and transactions, snoops and forwards, answers, data and completions, back-invalidate snoops, CXL.cache, and read-ahead (chapter 10,
R213 to R217, R318).

A line's request reaches its home by the row of its message (RDS, RDX, ...), which stands for sending and arrival; a message from the
home, or an eviction, is held in `msgs` until the row of its arrival. -/

namespace Sys2Proof.Machine

/-! What is held (R241, R242). -/

/-- The partition of a request: of the RLC's outstanding request, or the number that a non-caching agent carries (log 39). -/
def Mach.reqPart (m : Mach) (q : HomeReq) : Nat :=
  if q.agent < 8 then (match m.mem.reqs.find? (fun r => r.rlc == q.agent && r.line == q.line) with | some r => r.part | none => 0)
  else if 16 ≤ q.agent && decide (q.agent ≤ 80) then q.agent - 16 else 0

/-- Forwards on their way to an RLC for a line. -/
def Mach.forwardsTo (m : Mach) (rlc line : Nat) : Nat :=
  m.mem.msgs.countP (fun c => match c with | .snoop k h l _ _ _ => (k == .fwdS || k == .fwdX) && h == rlc && l == line | _ => false)

/-- The home has recorded an RLC as a holder; the forwards on their way to it concern a line that it has evicted (R248, R250). -/
def Mach.markServed (m : Mach) (rlc line : Nat) : Mach :=
  let n := m.forwardsTo rlc line
  m.modMem (fun a =>
    { a with reqs := a.reqs.map (fun (r : RlcReq) => if r.rlc == rlc && r.line == line then { r with served := true, old := n } else r) })

/-- The home's data on its way to an RLC, whose request is then served (R248). -/
def Mach.sendData (m : Mach) (rlc line : Nat) (st : RlcSt) (d : LineData) (poison : Bool) : Mach :=
  (m.post (.data st rlc line d poison 0)).markServed rlc line

/-- The home's own value for a request, kept in the slice (R213); a read-ahead's bytes are charged to nobody yet (R217, R407).
DEDUCED: log 40. -/
def Mach.valueFor (m : Mach) (q : HomeReq) : (LineData × Bool) × Mach :=
  m.homeFetch q.line (if q.kind == .rds true then 0 else m.reqPart q) true

/-- The host's answer to a read or a write. -/
def Mach.tellHost (m : Mach) (line : Nat) (d : LineData × Bool) : Mach :=
  let m := m.emit (.memData line d.1 d.2)
  if d.2 then ((m.event (Config.rasCode 7).1 (Config.rasCode 7).2).logAer 0 2) else m

/-! Performing a request at the home (Table 10.4). -/

/-- An RLC becomes the owner, with data, or with Cmp where it is an Upgr of a holder; `st` is M, or what a crossed forward would have
given (R250). -/
def Mach.giveM (m : Mach) (q : HomeReq) (holder : Bool) (st : RlcSt) : Mach :=
  let e : DirEntry := { DirEntry.blank (m.lineOrd q.line) with st := .ownedRlc, f := q.agent + 1 }
  if holder then ((m.dirPut q.line e).post (.cmp q.agent q.line)).markServed q.agent q.line
  else
    let r := m.valueFor q
    ((r.2.dirPut q.line e).sendData q.agent q.line st r.1.1 r.1.2)

/-- An RLC without another holder receives the line in E (R240). -/
def Mach.giveE (m : Mach) (q : HomeReq) (e : DirEntry) : Mach :=
  let r := m.valueFor q
  (r.2.dirPut q.line { e with st := .ownedRlc, sharers := 0, f := q.agent + 1 }).sendData q.agent q.line .e r.1.1 r.1.2

/-- A read-ahead meets a poisoned line: it is dropped, fills nothing, and its bytes are charged (R407). -/
def Mach.dropRa (m : Mach) (q : HomeReq) : Mach :=
  let p := m.reqPart q
  (m.modMem (fun a => { a with reqs := a.reqs.filter (fun (x : RlcReq) => x.rlc != q.agent || x.line != q.line) })).chargeRa (if p = 0 then 0 else p + 1)

/-- An RLC receives the line in F, or in S, beside what other holders there are (R240). -/
def Mach.giveShared (m : Mach) (q : HomeReq) (e : DirEntry) (f : Bool) : Mach :=
  let r := m.valueFor q
  if q.kind == .rds true && r.1.2 then r.2.dropRa q
  else
    (r.2.dirPut q.line { e with st := .shared, sharers := e.sharers ||| (1#8 <<< q.agent), f := if f then q.agent + 1 else e.f }).sendData
      q.agent q.line (if f then .f else .s) r.1.1 r.1.2

/-- The requester recorded as a sharer. -/
def Mach.holdsAs (m : Mach) (q : HomeReq) : Bool :=
  match m.dirOf q.line with
  | some e => e.st == .shared && e.sharers.getLsbD q.agent
  | none => false

/-- An entry in which the host alone holds the line. -/
def Mach.hostEntry (m : Mach) (line : Nat) (st : DirSt) : DirEntry := { DirEntry.blank (m.lineOrd line) with st := st, host := true }

/-- A rebuilt entry is gone: the line is Uncached, and poisoned where more than one holder returned M data (R261). -/
def Mach.rebuilt (m : Mach) (line dirties : Nat) : Mach :=
  let m := m.dirDrop line
  if dirties ≤ 1 then m.logDev { RasRec.mk0 0x4 0 0 0 m.now with addr := 64 * line, kind := 1 }
  else
    let r := m.homeFetch line 0 true
    (r.2.homeStore line 0 r.1.1 true true).poisonEvent line 6

/-- Performs the request of a transaction once every snoop it needs has been answered: the effect, the directory, and the answer. -/
def Mach.perform (m : Mach) (t : Txn) : Mach :=
  let q := t.req
  let e := (m.dirOf q.line).getD (DirEntry.blank (m.lineOrd q.line))
  let part := m.reqPart q
  let cmp := fun (m : Mach) => if q.agent = 8 then m.emit (.memCmp q.line) else m.post (.cmp q.agent q.line)
  match q.kind with
  | .rds ra => m.giveShared q e (!ra || ((sharersBut e q.agent).isEmpty && !e.host))
  | .rdx | .upgr => m.giveM q (q.kind == .upgr && m.holdsAs q) (t.grant.getD .m)
  | .rdcur =>
    let r := m.valueFor q
    r.2.emit (.homeData q.agent q.line r.1.1 r.1.2)
  | .wrline d bad => cmp ((m.dirDrop q.line).writeHome q.line part 0 d (BitVec.allOnes 64) bad true 4)
  | .wrpart d mask bad => cmp ((m.dirDrop q.line).writeHome q.line part 0 d mask bad true 4)
  | .atom op off wide opnd c bad =>
    let n := if wide then 8 else 4
    let r := (m.dirDrop q.line).atomHome q.line part op (faddN n) (off % 64 / n * n) n opnd.toNat c.toNat bad
    match r.1 with
    | .old v => cmp (r.2.emit (.homeData q.agent q.line (lineOf (leBytes 64 v)) false))
    | .poisoned => cmp (r.2.emit (.homeData q.agent q.line 0 true))
    | .mismatch => cmp r.2
  | .flush => cmp (m.writeBackLine q.line true)
  | .hostRd mv =>
    let r := m.valueFor q
    match mv with
    | .invalid => r.2.tellHost q.line r.1
    | .shared => (r.2.dirPut q.line { e with st := .shared, host := true }).tellHost q.line r.1
    | .any => (r.2.dirPut q.line (m.hostEntry q.line .ownedHost)).tellHost q.line r.1
  | .hostWr d => cmp ((m.dirDrop q.line).writeHome q.line 0 0 d (BitVec.allOnes 64) false true 4)
  | .takeBack => m
  | .rebuild => m.rebuilt q.line t.dirties

/-- The snoop that a request sends to an owner or, by invalidation, to every holder (Table 10.4, R249). -/
def snoopFor (q : HomeReq) (e : DirEntry) : SnoopKind :=
  match q.kind with
  | .flush => .snpData
  | .rdcur | .hostRd .invalid | .hostRd .shared => if e.ownerOrd then .recall else .snpData
  | _ => if e.ownerOrd && e.st == DirSt.ownedRlc then .recall else .snpInv

/-- Forwards a request to a holder: in an owner-ordered region the requester is recorded as the owner and nothing stays open (R247), else
the transaction stays open until the requester has the data (R246). -/
def Mach.forwardTo (m : Mach) (q : HomeReq) (e : DirEntry) (h : Nat) (write : Bool) : Mach :=
  let k := if write then SnoopKind.fwdX else .fwdS
  let own := e.ownerOrd && e.st == DirSt.ownedRlc
  let owned : DirEntry := { e with st := .ownedRlc, sharers := 0, f := q.agent + 1 }
  let shared : DirEntry := { e with st := .shared, sharers := e.sharers ||| (1#8 <<< h) ||| (1#8 <<< q.agent), f := q.agent + 1 }
  let m := (m.dirPut q.line (if own || write then owned else shared)).markServed q.agent q.line
  let m := if own then m
    else m.openTxn { Txn.of q with waits := [h], dataWait := true, forwarded := true, clean := !write && e.st == .shared }
  m.sendSnoop k h q.line q.agent own

/-- Takes up a request at its home (R240, R255, Table 10.4): a read-ahead never takes a line in E, nor moves an owner's. DEDUCED: log 128. -/
def Mach.serve (m : Mach) (q : HomeReq) : Mach :=
  let take := fun (holder : Bool) => (m.openTxn { Txn.of q with dataWait := true }).giveM q holder .m
  match m.dirOf q.line with
  | none =>
    match q.kind with
    | .rds false => m.giveE q (DirEntry.blank (m.lineOrd q.line))
    | .rdx | .upgr => take false
    | _ => m.perform (Txn.of q)
  | some e =>
    if q.kind == .rebuild then m.snoopAll q .snpInv (List.range 8) m.cxlUp true
    else
      match e.st with
      | .shared =>
        let others := sharersBut e q.agent
        match q.kind with
        | .rds ra =>
          if others.isEmpty && !e.host then (if ra then m.giveShared q e true else m.giveE q e)
          else if ra || (tfind m.mem.llc q.line).isSome then m.giveShared q e false
          else if e.f != 0 && e.f != q.agent + 1 then m.forwardTo q e (e.f - 1) false
          else m.giveShared q e true
        | _ =>
          if q.reads then m.perform (Txn.of q)
          else if others.isEmpty && !(e.host && q.agent != 8) then
            match q.kind with
            | .rdx | .upgr => take (q.kind == .upgr && m.holdsAs q)
            | _ => m.perform (Txn.of q)
          else m.snoopAll q .snpInv others (e.host && q.agent != 8) true
      | .ownedRlc =>
        match q.kind with
        | .rds true => m.snoopAll q .snpData [e.f - 1] false false
        | .rds false => m.forwardTo q e (e.f - 1) false
        | .rdx | .upgr => m.forwardTo q e (e.f - 1) true
        | _ => m.snoopAll q (snoopFor q e) [e.f - 1] false false
      | .ownedHost => if q.agent = 8 then m.perform (Txn.of q) else m.snoopAll q .snpInv [] true (!q.reads)

/-- A request needs no snoop and no transaction: a read that the home serves itself (R240, R242). -/
def Mach.noSnoop (m : Mach) (q : HomeReq) : Bool :=
  q.reads && (match m.dirOf q.line with
    | none => true
    | some e => e.st == .shared &&
        (decide (8 ≤ q.agent) || q.kind == .rds true || (tfind m.mem.llc q.line).isSome || e.f == 0 || e.f == q.agent + 1))

/-- A request may be taken up: no transaction is open on the line, or only one that does not delay a read, the slice has a free one where
one is needed, and no eviction of the same agent is on its way (R242). -/
def Mach.mayServe (m : Mach) (q : HomeReq) : Bool :=
  (if m.noSnoop q then (match m.txnOf q.line with | none => true | some t => t.clean) else (m.txnOf q.line).isNone && m.txnRoom q.line) &&
    m.mem.msgs.all (fun c => match c with | .evict _ h l _ _ => h != q.agent || l != q.line | _ => true)

/-- A request passes those that wait before it: none of them is for its line, or all of those are reads of other agents, and it needs no
snoop (R242). -/
def Mach.inTurn (m : Mach) (before : List HomeReq) (q : HomeReq) : Bool :=
  before.all (fun x => x.line != q.line || (x.agent != q.agent && x.reads && m.noSnoop q))

/-- A request that records a holder: its line needs a directory entry (R241). -/
def HomeReq.records (q : HomeReq) : Bool :=
  match q.kind with
  | .rds _ | .rdx | .upgr | .hostRd .shared | .hostRd .any => true
  | _ => false

/-- Takes up, in their order, the waiting requests that may be; one whose line finds its directory set full waits for an eviction (R256). -/
def Mach.pumpFrom (m : Mach) (before : List HomeReq) : List HomeReq → Mach
  | [] => m
  | q :: l =>
    if !m.inTurn before q || !m.mayServe q then m.pumpFrom (before ++ [q]) l
    else if q.records && !m.dirRoom q.line then (m.evictEntry q.line).pumpFrom (before ++ [q]) l
    else ((m.modMem (fun a => { a with homeQ := a.homeQ.erase q })).serve q).pumpFrom before l

/-- Takes up the waiting requests that may be, then the host accesses that waited for a line (R282). -/
def Mach.pump (m : Mach) : Mach :=
  let m := m.pumpFrom [] m.mem.homeQ
  if m.host.posted.isEmpty then m else m.drainPosted

/-- A request reaches its home. -/
def Mach.request_ (m : Mach) (q : HomeReq) : Mach := (m.modMem (fun a => { a with homeQ := a.homeQ ++ [q] })).pump

/-- A transaction goes on once nothing is awaited: it is performed, or closes when its requester has the data. -/
def Mach.advance (m : Mach) (line : Nat) : Mach :=
  match m.txnOf line with
  | none => m.pump
  | some t =>
    if !t.waits.isEmpty then m
    else if t.forwarded then (if t.dataWait then m else (m.closeTxn line).pump)
    else if t.dataWait then m
    else
      match t.req.kind with
      | .rds _ | .rdx | .upgr =>
        let m := (m.modTxn line (fun t => { t with dataWait := true })).perform t
        if m.mem.reqs.all (fun r => r.rlc != t.req.agent || r.line != line) then (m.closeTxn line).pump else m
      | _ => ((m.closeTxn line).perform t).pump

/-- A holder's answer is no longer awaited. -/
def Mach.answered (m : Mach) (line holder : Nat) : Mach := (m.modTxn line (fun t => { t with waits := t.waits.erase holder })).advance line

/-- A command that names an RLC and a line. -/
def onLine (rlc line : Nat) (s : State) (f : Mach → Res) : Out :=
  s.run fun m => if 8 ≤ rlc then .refused .noSuchUnit else if hbmLines ≤ line then .fault .notMappable else f m

/-! Read-ahead (R217). -/

/-- The partition whose access waits on a line at an RLC. -/
def Mach.waitingPart (m : Mach) (rlc line : Nat) : Nat :=
  match m.ops.find? (fun o => halfOfCore o.core == rlc && o.lanes.any (fun l => !l.done && l.tgt.lineKey == some line)) with
  | some o => o.part
  | none => m.ownerOf (64 * line)

/-- A partition has mapped the page of a line. -/
def Mach.partMaps (m : Mach) (p line : Nat) : Bool :=
  let o := m.offsetOf p (64 * line)
  p != 0 && m.ownerOf (64 * line) == p && (m.part p).maps.any (fun r => r.target == 0 && r.aperture == 0 && decide (r.tgt ≤ o) && decide (o < r.tgt + r.len))

/-- READAHEAD_TRIGGER (R217): four ascending misses: the block's remaining remote lines, then those of the next block, within mapped
pages. -/
def execReadaheadTrigger (rlc block : Nat) (s : State) : Out :=
  s.run fun m =>
    if 8 ≤ rlc then .refused .noSuchUnit
    else
      match m.mem.trackers.find? (fun t => t.rlc == rlc && t.block == block && decide (4 ≤ t.count) && !t.triggered) with
      | none => .next m
      | some t =>
        let lines := (List.range 256).map (128 * block + ·)
        let want := lines.filter (fun l => decide (l < hbmLines) && remoteFor rlc l && (m.rlcLine rlc l).isNone &&
          m.mem.reqs.all (fun r => r.rlc != rlc || r.line != l) && m.partMaps t.part l)
        .next (m.modMem (fun a =>
          { a with raTodo := a.raTodo ++ want.map (fun l => { rlc := rlc, line := l, part := t.part, entry := 0 }),
                   trackers := a.trackers.map (fun (x : Tracker) => if x.rlc == rlc && x.block == block then { x with triggered := true } else x) }))

/-- READAHEAD_TRACKER_RELEASE (R217): no miss for 4 us. -/
def execReadaheadTrackerRelease (rlc block : Nat) (s : State) : Out :=
  s.run fun m =>
    if 8 ≤ rlc then .refused .noSuchUnit
    else .next (m.modMem (fun a => { a with trackers := a.trackers.filter (fun t => t.rlc != rlc || t.block != block || decide (m.now < t.lastMiss + 4 * us)) }))

/-! Requests (R216, R240, R244). -/

/-- An RLC sends a request that reaches the line's home; it sends one per line at a time. -/
def Mach.rlcSend (m : Mach) (rlc line : Nat) (kind : HomeKind) (part entry : Nat) : Mach :=
  (m.modMem (fun a => { a with reqs := a.reqs ++ [{ rlc := rlc, line := line, kind := kind, served := false, part := part, entry := entry, old := 0, dropped := false }] })).request_
    ⟨kind, rlc, line⟩

/-- An RLC has no request outstanding on a line. -/
def Mach.freeToAsk (m : Mach) (rlc line : Nat) : Bool := remoteFor rlc line && m.mem.reqs.all (fun r => r.rlc != rlc || r.line != line)

/-- RDS (R216, R217, R240): a demand miss, or with `ra` the fetch of a line that read-ahead or a prefetch wants, at most 16 of an RLC's
read-ahead outstanding. -/
def execRds (rlc line : Nat) (ra : Bool) (s : State) : Out :=
  onLine rlc line s fun m =>
    let idle := m.freeToAsk rlc line && (m.rlcLine rlc line).isNone
    if !ra then
      let part := m.waitingPart rlc line
      gate m idle ((m.noteMiss rlc line part).rlcSend rlc line (.rds false) part 0)
    else
      match m.mem.raTodo.find? (fun t => t.rlc == rlc && t.line == line) with
      | none => .next m
      | some t =>
        let m1 := m.modMem (fun a => { a with raTodo := a.raTodo.erase t })
        if !idle then .next m1
        else
          gate m (t.entry != 0 || decide (m.mem.reqs.countP (fun r => r.rlc == rlc && r.entry == 0 && r.kind == .rds true) < 16))
            (m1.rlcSend rlc line (.rds true) t.part t.entry)

/-- RDX (R244, R245). -/
def execRdx (rlc line : Nat) (s : State) : Out :=
  onLine rlc line s fun m =>
    let part := m.waitingPart rlc line
    gate m (m.freeToAsk rlc line && (m.rlcLine rlc line).isNone) ((m.noteMiss rlc line part).rlcSend rlc line .rdx part 0)

/-- UPGR (R244): of a holder in S or F. -/
def execUpgr (rlc line : Nat) (s : State) : Out :=
  onLine rlc line s fun m =>
    gate m (m.freeToAsk rlc line && (match m.rlcLine rlc line with | some l => l.st == .s || l.st == .f | none => false))
      (m.rlcSend rlc line .upgr (m.waitingPart rlc line) 0)

/-- A request of any agent that keeps no copy. -/
def anyReq (agent line : Nat) (kind : HomeKind) (s : State) : Out :=
  s.run fun m => if hbmLines ≤ line then .fault .notMappable else .next (m.request_ ⟨kind, agent, line⟩)

/-- RDCUR (R245). -/
def execRdcur (agent line : Nat) (s : State) : Out := anyReq agent line .rdcur s

/-- WRLINE (R245, R527, R530). -/
def execWrline (agent line : Nat) (data : LineData) (tailBad : Bool) (s : State) : Out := anyReq agent line (.wrline data tailBad) s

/-- WRPART (R245, R527, R528, R532). -/
def execWrpart (agent line : Nat) (data : LineData) (mask : DWord) (tailBad : Bool) (s : State) : Out :=
  anyReq agent line (.wrpart data mask tailBad) s

/-- ATOM (R252, R527, R531). -/
def execAtom (agent line : Nat) (op : AtomOp) (offset : Nat) (wide : Bool) (opnd cmp : DWord) (tailBad : Bool) (s : State) : Out :=
  anyReq agent line (.atom op offset wide opnd cmp tailBad) s

/-- COH_FLUSH (R229, R245). -/
def execCohFlush (agent line : Nat) (s : State) : Out := anyReq agent line .flush s

/-! Evictions (R245, R250, R251, R257). -/

/-- Dirty data of an eviction goes into the slice; the recorded owner, or the F holder, is cleared; WbAck follows. -/
def Mach.takeEvict (m : Mach) (k : EvictKind) (rlc line : Nat) (d : LineData) (poison : Bool) : Mach :=
  let m := m.unpost (.evict k rlc line d poison)
  let m := if k == .wb then m.homeStore line 0 d poison true else m
  let m := match m.dirOf line with
    | some e =>
      if e.f != rlc + 1 then m
      else if e.st == DirSt.ownedRlc then m.dirDrop line
      else
        let e := { e with f := 0, sharers := e.sharers &&& ~~~(1#8 <<< rlc) }
        if e.sharers == 0 && !e.host then m.dirDrop line else m.modMem (fun a => { a with dir := tins a.dir line e })
    | none => m
  (m.post (.wback rlc line)).pump

/-- An eviction message of a kind reaches its home. -/
def evictRow (k : EvictKind) (rlc line : Nat) (s : State) : Out :=
  onLine rlc line s fun m =>
    match m.mem.msgs.find? (fun c => match c with | .evict k' h l _ _ => k' == k && h == rlc && l == line | _ => false) with
    | some (.evict _ _ _ d po) => .next (m.takeEvict k rlc line d po)
    | _ => .next m

/-- WB (R250, R251). -/
def execWb (rlc line : Nat) (s : State) : Out := evictRow .wb rlc line s

/-- EVE (R245, R250). -/
def execEve (rlc line : Nat) (s : State) : Out := evictRow .eve rlc line s

/-- EVF (R245, R257). -/
def execEvf (rlc line : Nat) (s : State) : Out := evictRow .evf rlc line s

/-- WBACK (R243, R251). -/
def execWback (rlc line : Nat) (s : State) : Out :=
  onLine rlc line s fun m =>
    gate m (m.mem.msgs.contains (.wback rlc line))
      ((m.unpost (.wback rlc line)).modMem (fun a => { a with evicting := a.evicting.filter (fun e => e.1 != rlc || e.2.1 != line) }))

/-! Snoops and forwards (Table 10.3, R248, R250). -/

/-- The oldest snoop of some kinds on its way to an RLC. -/
def Mach.snoopTo (m : Mach) (ks : List SnoopKind) (rlc line : Nat) : Option CohMsg :=
  m.mem.msgs.find? (fun c => match c with | .snoop k h l _ _ _ => ks.contains k && h == rlc && l == line | _ => false)

/-- What an RLC awaits for a line whose request the home has granted (R244, R248; log 41). -/
inductive Awaited where
  /-- Nothing: no request, or one that the home has not taken up. -/
  | nothing
  /-- Data that is not in M and is on its way: a copy that a snoop takes back. -/
  | copy (c : CohMsg)
  /-- The line in M, or data that another RLC is still to send, or Cmp: a snoop finds the line when it has arrived. -/
  | line

/-- What the RLC awaits. -/
def Mach.awaited (m : Mach) (rlc line : Nat) : Awaited :=
  match m.mem.reqs.find? (fun r => r.rlc == rlc && r.line == line) with
  | none => .nothing
  | some r =>
    if !r.served then .nothing
    else
      match m.mem.msgs.find? (fun c => match c with | .data st h l _ _ _ => h == rlc && l == line && st != .m | _ => false) with
      | some c => .copy c
      | none => .line

/-- The RLC's granted request is served by the home as a fresh request (R244). -/
def Mach.askAgain (m : Mach) (rlc line : Nat) : Mach :=
  match m.mem.reqs.find? (fun r => r.rlc == rlc && r.line == line) with
  | some r =>
    (m.modMem (fun a =>
      { a with reqs := a.reqs.map (fun (x : RlcReq) => if x.rlc == rlc && x.line == line then { x with served := false, old := 0 } else x) })).request_
      ⟨r.kind, rlc, line⟩
  | none => m

/-- An access that waited when the line arrived is still to be performed (R248). -/
def Mach.firstDue (m : Mach) (rlc line : Nat) : Bool :=
  m.mem.first.any (fun x => x.1 == rlc && x.2.1 == line && m.ops.any (fun o => o.id == x.2.2))

/-- The kind of an RLC's unacknowledged eviction of a line. -/
def Mach.evictKind (m : Mach) (rlc line : Nat) : Option EvictKind := (m.mem.evicting.find? (fun e => e.1 == rlc && e.2.1 == line)).map (·.2.2)

/-- The state that a forward would have given for a line that was evicted (R250). -/
def lostState (k : Option EvictKind) (write own : Bool) : RlcSt :=
  if !write && !own then .f else match k with | some .wb => .m | some .evf => if write then .e else .f | _ => .e

/-- A holder's answer to SnpInv, Recall and SnpData (Table 10.3, R250). -/
def Mach.answerSnoop (m : Mach) (keep : Bool) (rlc line req : Nat) : Mach :=
  match m.rlcLine rlc line with
  | none => match m.evictKind rlc line with
    | some k => m.post (.wbInFlight rlc line req (lostState (some k) true false) false m.now)
    | none => m.post (.rspI rlc line m.now)
  | some l =>
    if l.st == .m then
      (if keep then m.rlcState rlc line .f else m.rlcDrop rlc line).post (.rspData rlc line l.data l.poison m.now)
    else if keep then
      (if l.st == .e then m.rlcState rlc line .f else m).post (.rspS rlc line m.now)
    else (m.rlcDrop rlc line).post (.rspI rlc line m.now)

/-- SNPINV, RECALL, SNPDATA: answered from the present state (R244); a copy on its way is given up and asked for again; a line on its way
in M is awaited first (R248). DEDUCED: log 41. -/
def snoopRow (k : SnoopKind) (rlc line : Nat) (s : State) : Out :=
  onLine rlc line s fun m =>
    match m.snoopTo [k] rlc line with
    | some c =>
      match c with
      | .snoop _ _ _ req _ _ =>
        let answer := fun (m : Mach) => (m.unpost c).answerSnoop (k == .snpData) rlc line req
        match m.awaited rlc line with
        | .nothing => .next (answer m)
        | .copy d => .next ((answer (m.unpost d)).askAgain rlc line)
        | .line => .next m
      | _ => .next m
    | none => .next m

/-- SNPINV (R244). -/
def execSnpinv (rlc line : Nat) (s : State) : Out := snoopRow .snpInv rlc line s

/-- SNPDATA (R244, R245). -/
def execSnpdata (rlc line : Nat) (s : State) : Out := snoopRow .snpData rlc line s

/-- RECALL (R244, R249). -/
def execRecall (rlc line : Nat) (s : State) : Out := snoopRow .recall rlc line s

/-- A holder serves a forward (Table 10.3): data to the requester, and in a home-ordered region an M holder's data to the home too.
DEDUCED: log 77. -/
def Mach.serveForward (m : Mach) (write own : Bool) (rlc line req : Nat) : Mach :=
  match m.rlcLine rlc line with
  | none => m.post (.wbInFlight rlc line req (lostState (m.evictKind rlc line) write own) own m.now)
  | some l =>
    let give := fun (m : Mach) (st : RlcSt) => m.post (.data st req line l.data l.poison (m.now + 1))
    let settle := fun (m : Mach) => if own then m else m.answered line rlc
    if l.st == .s then m.post (.wbInFlight rlc line req (lostState none write own) own m.now)
    else if write then settle (give (m.rlcDrop rlc line) (if l.st == .m then .m else .e))
    else if own && l.st != .f then give (m.rlcDrop rlc line) l.st
    else if l.st == .m then (give (m.rlcState rlc line .s) .f).post (.rspData rlc line l.data l.poison m.now)
    else settle (give (m.rlcState rlc line .s) .f)

/-- A forward sent before the RLC's granted request has arrived (R250). -/
def Mach.oldForward (m : Mach) (rlc line : Nat) : Bool := m.mem.reqs.any (fun r => r.rlc == rlc && r.line == line && r.old != 0)

/-- FWDS and FWDX: held while the RLC awaits the line, and until the accesses that waited for it are performed (R248); one that was sent
before the line was granted anew is answered at once (R250). -/
def forwardRow (write : Bool) (rlc line : Nat) (s : State) : Out :=
  onLine rlc line s fun m =>
    match m.snoopTo [.fwdS, .fwdX] rlc line with
    | some (.snoop k a b req own t) =>
      let m1 := m.unpost (.snoop k a b req own t)
      let m2 := m1.modMem (fun x =>
        { x with reqs := x.reqs.map (fun (r : RlcReq) => if r.rlc == rlc && r.line == line then { r with old := r.old - 1 } else r) })
      let free := match m.awaited rlc line with | .nothing => !m.firstDue rlc line | _ => m.oldForward rlc line
      gate m ((k == .fwdX) == write && free) (m2.serveForward write own rlc line req)
    | _ => .next m

/-- FWDS (R244, R247, R248). -/
def execFwds (rlc line : Nat) (s : State) : Out := forwardRow false rlc line s

/-- FWDX (R244, R247, R248). -/
def execFwdx (rlc line : Nat) (s : State) : Out := forwardRow true rlc line s

/-! Answers at the home (R245, R250). -/

/-- A holder is recorded no longer. -/
def Mach.forgetHolder (m : Mach) (rlc line : Nat) : Mach :=
  match m.dirOf line with
  | some e =>
    if e.st == DirSt.ownedRlc then (if e.f == rlc + 1 then m.dirDrop line else m)
    else
      let e := { e with sharers := e.sharers &&& ~~~(1#8 <<< rlc), f := if e.f = rlc + 1 then 0 else e.f }
      if e.sharers == 0 && !e.host then m.dirDrop line else m.modMem (fun a => { a with dir := tins a.dir line e })
  | none => m

/-- An owner that answered SnpData keeps the line in F: the line is Shared. -/
def Mach.keepF (m : Mach) (rlc line : Nat) : Mach :=
  match m.dirOf line with
  | some e => m.modMem (fun a => { a with dir := tins a.dir line { e with st := .shared, sharers := 1#8 <<< rlc, f := rlc + 1, ownerOrd := e.ownerOrd } })
  | none => m

/-- The transaction of a line was forwarded. -/
def Mach.wasForwarded (m : Mach) (line : Nat) : Bool := match m.txnOf line with | some t => t.forwarded | none => false

/-- RSPI (R243). -/
def execRspi (rlc line : Nat) (s : State) : Out :=
  onLine rlc line s fun m =>
    match m.mem.msgs.find? (fun c => match c with | .rspI h l _ => h == rlc && l == line | _ => false) with
    | some c => .next (((m.unpost c).forgetHolder rlc line).answered line rlc)
    | none => .next m

/-- RSPS (R243). -/
def execRsps (rlc line : Nat) (s : State) : Out :=
  onLine rlc line s fun m =>
    match m.mem.msgs.find? (fun c => match c with | .rspS h l _ => h == rlc && l == line | _ => false) with
    | some c => .next (((m.unpost c).keepF rlc line).answered line rlc)
    | none => .next m

/-- RSPDATA (R245): the line is written into the slice, which marks it dirty. -/
def execRspdata (rlc line : Nat) (s : State) : Out :=
  onLine rlc line s fun m =>
    match m.mem.msgs.find? (fun c => match c with | .rspData h l _ _ _ => h == rlc && l == line | _ => false) with
    | some (.rspData h l d po t) =>
      let m := (m.unpost (.rspData h l d po t)).homeStore line 0 d po true
      let m := m.modTxn line (fun t => { t with dirties := t.dirties + 1 })
      let m := if m.wasForwarded line then m
        else match m.rlcLine rlc line with
          | some x => if x.st == .f then m.keepF rlc line else m.forgetHolder rlc line
          | none => m.forgetHolder rlc line
      .next (m.answered line rlc)
    | _ => .next m

/-- WBINFLIGHT (R250): held until the eviction message has arrived; the request is then served from the slice or HBM, with the state that
the snoop would have given. -/
def execWbinflight (rlc line : Nat) (s : State) : Out :=
  onLine rlc line s fun m =>
    match m.mem.msgs.find? (fun c => match c with | .wbInFlight h l _ _ _ _ => h == rlc && l == line | _ => false) with
    | some (.wbInFlight h l req st own t) =>
      let arrived := m.mem.msgs.all (fun c => match c with | .evict _ h' l' _ _ => h' != rlc || l' != line | _ => true)
      let m1 := m.unpost (.wbInFlight h l req st own t)
      if own then
        let r := m1.homeFetch line 0 false
        gate m arrived (r.2.post (.data st req line r.1.1 r.1.2 0))
      else
        gate m arrived ((m1.modTxn line (fun t =>
          if t.forwarded then { t with forwarded := false, dataWait := false, grant := some st } else t)).answered line rlc)
    | _ => .next m

/-! Data and completions at the requester (R216, R243, R246, R250). -/

/-- The accesses of the RLC's half that wait on a line and can be performed when it arrives in a state. -/
def Mach.waitersOf (m : Mach) (rlc line : Nat) (st : RlcSt) : List Nat :=
  (m.ops.filter (fun o => halfOfCore o.core == rlc && (o.isLoad || (match o.kind with | .store => st == .m || st == .e | _ => false)) && m.released o &&
    o.lanes.any (fun l => !l.done && l.tgt.lineKey == some line && m.inOrder o l))).map (·.id)

/-- Closes a transaction whose requester has what it asked for. DEDUCED: log 76. -/
def Mach.closeServed (m : Mach) (line : Nat) : Mach :=
  match m.txnOf line with
  | some t => if t.waits.isEmpty && !t.dataWait then (m.closeTxn line).pump else m
  | none => m.pump

/-- The line is in the RLC: the request is over and the home's transaction closes. DEDUCED: log 76. -/
def Mach.filled (m : Mach) (rlc line : Nat) (st : RlcSt) : Mach :=
  let m := m.modMem (fun a =>
    { a with reqs := a.reqs.filter (fun (r : RlcReq) => r.rlc != rlc || r.line != line), first := a.first ++ (m.waitersOf rlc line st).map (fun o => (rlc, line, o)) })
  (m.modTxn line (fun t => if t.req.agent == rlc then { t with dataWait := false } else t)).closeServed line

/-- The partition plus 1 of the read-ahead or prefetch that asked for a line, 0 for a demand. -/
def RlcReq.raOf (r : RlcReq) : Nat := if r.kind == .rds true then r.part + 1 else 0

/-- DATA_ST (R216, R217, R243, R246, R251): the line fills the RLC; the displaced line leaves, an M line only when no writeback of the RLC
to its home slice is outstanding. -/
def execDataSt (rlc line : Nat) (s : State) : Out :=
  onLine rlc line s fun m =>
    match m.mem.msgs.find? (fun c => match c with | .data _ h l _ _ _ => h == rlc && l == line | _ => false),
        m.mem.reqs.find? (fun r => r.rlc == rlc && r.line == line) with
    | some (.data st h l d po t), some r =>
      match m.rlcVictim rlc line (m.wayMask r.part line) with
      | none => .next m
      | some v =>
        let m := if r.dropped then m.chargeRa (r.part + 1) else m
        let m := (m.unpost (.data st h l d po t)).rlcFill rlc line v st (d, po) (if r.dropped then 0 else r.raOf)
        .next (m.filled rlc line st)
    | _, _ => .next m

/-- CMP (R243, R244): an Upgr's holder goes to M; other agents learn that their request is done. -/
def execCmp (agent line : Nat) (s : State) : Out :=
  s.run fun m =>
    if hbmLines ≤ line then .fault .notMappable
    else if !m.mem.msgs.contains (.cmp agent line) then .next m
    else
      let m := m.unpost (.cmp agent line)
      if m.mem.reqs.any (fun r => r.rlc == agent && r.line == line && r.kind == .upgr) then .next ((m.rlcState agent line .m).filled agent line .m)
      else .next m.pump

/-! Time-outs (R259, R260). -/

/-- The time at which a snoop or an answer between on-package agents was sent. -/
def CohMsg.since : CohMsg → Option Nat
  | .snoop _ _ _ _ _ t => some t
  | .rspI _ _ t => some t
  | .rspS _ _ t => some t
  | .rspData _ _ _ _ t => some t
  | .wbInFlight _ _ _ _ _ t => some t
  | .data _ _ _ _ _ t => if t = 0 then none else some (t - 1)
  | _ => none

/-- SNOOP_TIMEOUT (R259): 100 us: a fabric failure. -/
def execSnoopTimeout (line : Nat) (s : State) : Out :=
  s.run fun m =>
    if hbmLines ≤ line then .fault .notMappable
    else
      gate m (m.mem.msgs.any (fun c => c.line == line && (match c.since with | some t => decide (t + 100 * us ≤ m.now) | none => false))) (m.fatal .fabric)

/-- The line is poisoned at its home, as an unanswered BISnp leaves it (R260). -/
def Mach.poisonLine (m : Mach) (line : Nat) : Mach :=
  let r := m.homeFetch line 0 false
  ((r.2.homeStore line 0 r.1.1 true true)).poisonEvent line 5

/-- The host bit of a line is cleared. -/
def Mach.clearHost (m : Mach) (line : Nat) : Mach :=
  match m.dirOf line with
  | some e =>
    if e.st == .ownedHost || e.sharers == 0 then m.dirDrop line else m.modMem (fun a => { a with dir := tins a.dir line { e with host := false } })
  | none => m

/-- The back-invalidate snoop of a line that is on its way to the host, or awaited. -/
def Mach.bisnpOf (m : Mach) (line : Nat) (sent : Bool) : Option CohMsg :=
  m.mem.msgs.find? (fun c => match c with | .bisnp _ l _ x => l == line && x == sent | _ => false)

/-- BISNP_TIMEOUT (R260, R308): 1 ms without an answer. -/
def execBisnpTimeout (line : Nat) (s : State) : Out :=
  s.run fun m =>
    if hbmLines ≤ line then .fault .notMappable
    else
      match m.bisnpOf line true with
      | some (.bisnp inv l t x) =>
        let owned := m.hostOwns line
        let m1 := (m.unpost (.bisnp inv l t x)).clearHost line
        let m1 := if owned then m1.poisonLine line else m1
        gate m (decide (t + ms ≤ m.now)) ((m1.event (Config.rasCode 6).1 (Config.rasCode 6).2).cxlError.answered line 8)
      | _ => .next m

/-! The host (R253, R254, R318). -/

/-- BISNPINV, BISNPDATA: the snoop reaches the host. -/
def bisnpRow (inv : Bool) (line : Nat) (s : State) : Out :=
  s.run fun m =>
    if hbmLines ≤ line then .fault .notMappable
    else
      match m.bisnpOf line false with
      | some (.bisnp i l t x) => gate m (i == inv) (((m.unpost (.bisnp i l t x)).post (.bisnp i l t true)).emit (.bisnp i line))
      | _ => .next m

/-- BISNPINV (R253). -/
def execBisnpinv (line : Nat) (s : State) : Out := bisnpRow true line s

/-- BISNPDATA (R253). -/
def execBisnpdata (line : Nat) (s : State) : Out := bisnpRow false line s

/-- BISNP_RESPONSE (R253, Table 10.4): returned data goes into the slice; after BISnpInv the host holds nothing, after BISnpData it
shares the line. -/
def execBisnpResponse (line : Nat) (data : Option LineData) (s : State) : Out :=
  s.run fun m =>
    if hbmLines ≤ line then .fault .notMappable
    else
      match m.bisnpOf line true with
      | some (.bisnp inv l t x) =>
        let m := m.unpost (.bisnp inv l t x)
        let m := match data with
          | some d => (m.homeStore line 0 d false true).modTxn line (fun t => { t with dirties := t.dirties + 1 })
          | none => m
        let m := if inv then m.clearHost line
          else match m.dirOf line with
            | some e => m.modMem (fun a => { a with dir := tins a.dir line { e with st := .shared } })
            | none => m
        .next (m.answered line 8)
      | _ => .next m

/-- HOST_MEMRD (R253, R302): of a line that a committed decoder maps. -/
def execHostMemrd (line : Nat) (mv : MetaValue) (s : State) : Out :=
  s.run fun m =>
    if hbmLines ≤ line then .fault .notMappable else gate m (m.cxlUp && m.hdmMaps line) (m.request_ ⟨.hostRd mv, 8, line⟩)

/-- HOST_MEMWR (R250, R253, R302): a write that crosses a BISnp answers it with its data; any other is performed at the home. -/
def execHostMemwr (line : Nat) (data : LineData) (s : State) : Out :=
  s.run fun m =>
    if hbmLines ≤ line then .fault .notMappable
    else
      let crossing := (match m.bisnpOf line true with | some c => some c | none => m.bisnpOf line false)
      match crossing with
      | some c =>
        gate m m.cxlUp (((((m.unpost c).clearHost line).writeHome line 0 0 data (BitVec.allOnes 64) false true 4).emit (.memCmp line)).answered line 8)
      | none => gate m (m.cxlUp && m.hdmMaps line) (m.request_ ⟨.hostWr data, 8, line⟩)

/-- HOST_CXL_CACHE_SNOOP (R254): the slice answers for a host line. -/
def execHostCxlCacheSnoop (hline : Nat) (kind : HostSnoop) (s : State) : Out :=
  s.run fun m =>
    let key := hostKey hline
    match tfind m.mem.llc key with
    | none => gate m m.cxlUp (m.emit (.cacheRsp hline false 0 false))
    | some l =>
      let keep := fun (m : Mach) =>
        match kind with
        | .inv => m.modMem (fun a => { a with llc := tdel a.llc key })
        | .data => m.modMem (fun a => { a with llc := tins a.llc key { l with dirty := false, host := if l.host == .invalid then .invalid else .shared } })
        | .cur => m
      gate m m.cxlUp (keep (m.emit (.cacheRsp hline l.dirty l.data l.poison)))

/-- CXL_CACHE_HOST_RESPONSE (R214, R254, R408): the host grants a state, with the data, and the slice keeps the line. -/
def execCxlCacheHostResponse (hline : Nat) (st : HostGrant) (data : LineData) (s : State) : Out :=
  s.run fun m =>
    let key := hostKey hline
    match m.txnOf key with
    | none => .next m
    | some t =>
      let part := m.reqPart t.req
      let m := ((m.closeTxn key).account part 7 64).spend part 5 0 64
      if st == .invalid then .next m
      else
        let l : LlcLine := { data := data, dirty := st == .modified, poison := false, way := 0, lru := 0, ra := 0, host := st }
        match tfind m.mem.llc key with
        | some x => .next (m.modMem (fun a => { a with llc := tins a.llc key { l with way := x.way, lru := x.lru } }))
        | none => .next (m.sliceFill key (if part = 0 then 1 else (m.part part).ways) l)

/-- CXL_PROTOCOL_ERROR (R260, R318): the line is poisoned, the error is logged and reported, and the link retrains. DEDUCED: log 78. -/
def execCxlProtocolError (line : Nat) (s : State) : Out :=
  s.run fun m =>
    if hbmLines ≤ line && decide (line < 2 ^ 46) then .fault .notMappable
    else
      let hit := fun (m : Mach) =>
        if line < 2 ^ 46 then
          let m := (m.clearHost line).poisonLine line
          match m.bisnpOf line true with
          | some c => (m.unpost c).answered line 8
          | none => m
        else m.modMem (fun a => match tfind a.llc line with | some l => { a with llc := tins a.llc line { l with poison := true } } | none => a)
      gate m m.cxlUp (((hit m).event (Config.rasCode 6).1 (Config.rasCode 6).2).cxlError.dropLink 0)

end Sys2Proof.Machine
end

