-- ==== Sys2Proof/Machine/Control.lean ====
section
/-! DEFINITION. Machine/Control.lean: the instructions of format C (R119, R136, Table 05.5). -/

namespace Sys2Proof.Machine

/-- The virtual address of word `i` of a group's CODE section (R119). -/
def Mach.wordVa (m : Mach) (g : Nat) (i : Int) : Nat := (((m.krn (m.krnOf g)).code : Int) + 8 * i).toNat % 2 ^ 52

/-- A word index lies in the kernel's code range (R136). -/
def Mach.inRange (m : Mach) (g : Nat) (i : Int) : Bool :=
  let d := (m.krn (m.krnOf g)).desc
  decide ((d.entry : Int) ≤ i) && decide (i < (d.entry : Int) + d.length)

/-- Goes to a word: ADDRESS_FAULT outside the kernel's range (R136). -/
def jumpTo (m : Mach) (g : Nat) (i : Int) (m' : Mach) : Eff :=
  if m.inRange g i then .jump (BitVec.ofNat 32 i.toNat) m' else .fault fAddress (some (m.wordVa g i)) m

/-- The word that TGT names, counted from this instruction (Table 05.5). -/
def Mach.target (m : Mach) (g : Nat) (f : FmtC) : Int := ((m.grp g).pc.toNat : Int) + sgn 32 f.tgt.toNat

/-- A conditional jump: nothing where the condition does not hold. -/
def runC (g : Nat) (i : Instr) (f : FmtC) (eff : Mach → Eff) (s : State) : Out :=
  issue g i [] true f.pi f.pn (fun m _ => if m.condition g f then eff m else .go m) s

/-- BRA (R119). -/
def execBra (g : Nat) (f : FmtC) (s : State) : Out := runC g (.bra g f) f (fun m => jumpTo m g (m.target g f) m) s

/-- BRX (R119): to the word index in u[CU]. -/
def execBrx (g : Nat) (f : FmtC) (s : State) : Out := runC g (.brx g f) f (fun m => jumpTo m g (m.uGet g f.cu.toNat) m) s

/-- CALL (R119): u[CU] takes the word index of the next instruction. -/
def execCall (g : Nat) (f : FmtC) (s : State) : Out :=
  runC g (.call g f) f (fun m => jumpTo m g (m.target g f) (m.uPut g f.cu.toNat ((m.grp g).pc + 1).toNat)) s

/-- RET (R119): to the word index in u[CU]. -/
def execRet (g : Nat) (f : FmtC) (s : State) : Out := runC g (.ret g f) f (fun m => jumpTo m g (m.uGet g f.cu.toNat) m) s

/-- EXIT (R119): the group ends. -/
def execExit (g : Nat) (f : FmtC) (s : State) : Out :=
  issue g (.exit g f) [] true f.pi f.pn (fun m _ => .go ((m.modGrp g (fun x => { x with exited := true })).noteLeft (m.krnOf g) (coreOf g))) s

/-- NOP (R119). -/
def execNop (g : Nat) (f : FmtC) (s : State) : Out := issue g (.nop g f) [] true f.pi f.pn (fun m _ => .go m) s

end Sys2Proof.Machine
end

