-- ==== Sys2Proof/Machine/Movers.lean ====
section
/-! DEFINITION. Machine/Movers.lean: FENCE.ACQ, FLUSH, the copy engines and multicast (R60 to R66, R69 to R71, R122, R123, R126, R130,
R137, R225 to R231, R269, R271, R274, R275, R280, R431, R531, R550). -/

namespace Sys2Proof.Machine

/-! Ranges (R122, R137). -/

/-- A range wraps past 2^52. -/
def wraps (va n : Nat) : Bool := decide (2 ^ 52 < va + n)

/-- The device physical ranges that a virtual range maps to. -/
def Mach.mappedHbm (m : Mach) (space va n : Nat) : List (Nat × Nat) :=
  (pieces va n).filterMap (fun pc => match m.translate space .read pc.1 with | .ok (.hbm pa) => some (pa, pc.2) | _ => none)

/-- The first piece of a range that lies on an execute-only page (R222). DEDUCED: log 57. -/
def Mach.codePage (m : Mach) (space va n : Nat) : Option Nat :=
  ((pieces va n).find? (fun pc => match m.mapOf space pc.1 with | some r => r.access == 2 | none => false)).map (·.1)

/-- Drops the L1 lines of a virtual range, rounded outwards to lines. -/
def Mach.dropRange (m : Mach) (core space va n : Nat) : Mach :=
  let lo := va / 64 * 64
  let rs := m.mappedHbm space lo ((va + n + 63) / 64 * 64 - lo)
  let hit := fun line => rs.any (fun r => decide (r.1 ≤ 64 * line) && decide (64 * line < r.1 + r.2))
  (m.modCore core (·.l1Drop hit)).noFill core hit

/-- FENCE_ACQ (R122, R137, R222, R269). DEDUCED: log 57. -/
def execFenceAcq (g : Nat) (f : FmtS) (s : State) : Out :=
  runS g (.fenceAcq g f) f [] (fun m =>
    let va := m.uPair g f.ua.toNat
    let n := m.uGet g f.ub.toNat
    let part := (m.krn (m.krnOf g)).part
    if f.scope == .core then .go m
    else if n != 0 && wraps va n then .fault fAddress (some (va % 2 ^ 52)) m
    else if !m.loadsPerformed g then .hold m
    else if n = 0 then .go (m.dropL1 (coreOf g))
    else
      match m.codePage part va n with
      | some a => .fault fAddress (some a) m
      | none => .go (m.dropRange (coreOf g) part va n)) s

/-! FLUSH (R123, R126, R137, R229, R271). -/

/-- An asynchronous operation of a group: with EVE = 0 the group waits for it (R126). -/
def awaitOp (m : Mach) (g id : Nat) (eve : Bool) : Mach := if eve then m else m.modGrp g (fun x => { x with wait := .op id })

/-- FLUSH: issued once the group's stores are performed; of length zero it completes at once. -/
def execFlush (g : Nat) (f : FmtS) (s : State) : Out :=
  runS g (.flush g f) f [] (fun m =>
    let va := m.uPair g f.ua.toNat
    let n := m.uGet g f.ub.toNat
    let k := m.krnOf g
    if n != 0 && wraps va n then .fault fAddress (some (va % 2 ^ 52)) m
    else if !m.storesPerformed g then .hold m
    else if n = 0 then .go (m.complete f.eve k (coreOf g) f.ec.toNat)
    else
      let op : FlushOp := { id := m.nextId, gid := g, krn := k, core := coreOf g, part := (m.krn k).part, va := va, len := n, eve := f.eve, ec := f.ec.toNat }
      .go (awaitOp { m.bumpId with flushes := m.flushes ++ [op] } g m.nextId f.eve)) s

/-- FLUSH_COMPLETE: the lines of the range are written back; a page with no valid mapping stops it there with ADDRESS_FAULT. -/
def execFlushComplete (op : Nat) (s : State) : Out :=
  s.run fun m =>
    match m.flushes.find? (fun o => o.id == op) with
    | none => .next m
    | some o =>
      let lo := o.va / 64 * 64
      let n := (o.va + o.len + 63) / 64 * 64 - lo
      let bad := (pieces lo n).find? (fun pc => m.translate o.part .read pc.1 == .fault)
      match m.vflush o.part lo (match bad with | some pc => pc.1 - lo | none => n) .read with
      | .waits m => .next m
      | .fault => .next m
      | .ok m =>
        let m := { m with flushes := m.flushes.filter (fun (x : FlushOp) => x.id != op) }
        match bad with
        | some pc => .next (m.abortKrn o.krn fAddress (some pc.1))
        | none => .next (((m.noteOp o.krn o.core).complete o.eve o.krn o.core o.ec).opDone o.gid op)

/-! Copy engines (R225 to R227, R231, R280, R531). -/

/-- CTRL: source and destination in local memory, stream. -/
def CopyOp.srcLocal (o : CopyOp) : Bool := o.ctrl.getLsbD 0
def CopyOp.dstLocal (o : CopyOp) : Bool := o.ctrl.getLsbD 1
def CopyOp.stream (o : CopyOp) : Bool := o.ctrl.getLsbD 2

/-- The last byte of a side of the copy, plus 1. -/
def CopyOp.span (o : CopyOp) (a pitch : Nat) : Nat := a + (o.rows - 1) * pitch + o.len

/-- A copy that fails with INVALID before it moves any byte (R227); `room` is the length of the block's allocation and `rest` bytes
48-63 of the descriptor. DEDUCED: log 66. -/
def CopyOp.bad (o : CopyOp) (room : Nat) (rest : List Byte) : Bool :=
  o.len == 0 || decide (2 ^ 31 < o.len) || o.rows == 0 || decide (8 ≤ o.ctrl.toNat) || !rest.all (· == 0) ||
    (decide (1 < o.rows) && (decide (o.spitch < o.len) || decide (o.dpitch < o.len))) || (o.stream && o.srcLocal) ||
    (if o.srcLocal then decide (room < o.span o.src o.spitch) else decide (2 ^ 52 < o.span o.src o.spitch)) ||
    (if o.dstLocal then decide (room < o.span o.dst o.dpitch) else decide (2 ^ 52 < o.span o.dst o.dpitch))

/-- The queues of a half's engines, and the engine that the next copy goes to: the fewest queued, the lower number at a tie. -/
def Mach.copyEngine (m : Mach) (half : Nat) : Nat := (argMin (fun e => (m.copyQ e).length) ((List.range 4).map (4 * half + ·))).getD (4 * half)

/-- CE_COPY (R126, R225, R226, R227). DEDUCED: log 34. -/
def execCeCopy (g : Nat) (f : FmtS) (s : State) : Out :=
  runS g (.ceCopy g f) f [] (fun m =>
    let k := m.krnOf g
    let part := (m.krn k).part
    let va := m.uPair g f.ua.toNat
    let e := m.copyEngine (halfOfCore (coreOf g))
    if !m.storesPerformed g || decide (8 ≤ (m.copyQ e).length) then .hold m
    else if va % 64 != 0 || decide (2 ^ 52 ≤ va) || !m.mappedFor part .write va 64 then .fault fAddress (some (va % 2 ^ 52)) m
    else
      let blk := m.blk (m.grp g).block
      let enter := fun (m : Mach) (b : List Byte) (early : Option (Nat × Nat)) =>
        let o : CopyOp :=
          { id := m.nextId, gid := g, krn := k, core := coreOf g, base := 1024 * blk.base, part := part, va := va, src := fieldAt b 8 8,
            dst := fieldAt b 16 8, len := fieldAt b 24 4, rows := fieldAt b 28 2, ctrl := BitVec.ofNat 16 (fieldAt b 30 2),
            spitch := fieldAt b 32 8, dpitch := fieldAt b 40 8, eve := f.eve, ec := f.ec.toNat, pos := 0, status := early, faultAt := none }
        let o := if early.isNone && o.bad (1024 * blk.granules) (slice b 48 16) then { o with status := some (stInvalid, 0) } else o
        Eff.go (awaitOp (m.bumpId.setCopyQ e (m.copyQ e ++ [o])) g o.id f.eve)
      match m.vreadFor (some (halfOfCore (coreOf g))) (m.krn k).num part va 64 .read with
      | .waits m => .hold m
      | .fault => .fault fAddress (some va) m
      | .poisoned m => enter m [] (some (stPoisoned, 0))
      | .ok b m => enter m b none) s

/-- The source and destination address of byte `pos` of a copy. -/
def CopyOp.srcAt (o : CopyOp) (pos : Nat) : Nat := o.src + pos / o.len * o.spitch + pos % o.len
def CopyOp.dstAt (o : CopyOp) (pos : Nat) : Nat := o.dst + pos / o.len * o.dpitch + pos % o.len

/-- The half whose RLC a copy's accesses use (R215, R225): none for a stream copy, which bypasses RLCs. -/
def CopyOp.half (o : CopyOp) : Option Nat := if o.stream then none else some (halfOfCore o.core)

/-- What a source yields: bytes, short where a poisoned line follows. -/
inductive CopySrc where
  | bytes (b : List Byte) (poisoned : Bool) (m : Mach)
  /-- The bytes are at another device: a frame must fetch them. -/
  | remote (word va : Nat)
  | fault
  | waits (m : Mach)

/-- Reads device bytes line by line, at the coherence point or, for a stream copy, from HBM; the first poisoned line ends it. -/
def Mach.copyLines (m : Mach) (o : CopyOp) (pa n : Nat) : CopySrc :=
  let go := (linesOf pa n).foldl (fun (acc : CopySrc) line =>
    match acc with
    | .bytes bs false m =>
      let r : Perf (LineData × Bool) := if o.stream then (let x := m.hbmRead line o.part; .done x.1 x.2) else m.lineRead o.half line o.part
      match r with
      | .done (d, po) m =>
        if po then .bytes bs true (m.deferred 0x11 line o.part (m.krn o.krn).num)
        else
          let lo := if line = pa / 64 then pa % 64 else 0
          .bytes (bs ++ slice (lineBytes d) lo (Nat.min (64 - lo) (n - bs.length))) false m
      | .waits m => .waits m
    | r => r) (.bytes [] false m)
  go

/-- Reads `n` bytes of a copy's source, which lie in one page. DEDUCED: log 64. -/
def Mach.copyRead (m : Mach) (o : CopyOp) (pos n : Nat) : CopySrc :=
  let a := o.srcAt pos
  if o.srcLocal then .bytes (getBytes (m.core o.core).loc (o.base + a) n) false m
  else
    match m.translate o.part .read a with
    | .ok (.hbm pa) => m.copyLines o pa n
    | .ok (.host ha) =>
      match m.hostRead (m.spaceLink o.part) ha n o.part with
      | .done (b, po) m => if po then .bytes [] true (m.hostPoison ha o.part (m.krn o.krn).num) else .bytes b false m
      | .waits m => .waits m
    | .ok (.window w _ va) => if winMulticast w || winEvent w || winMailbox w then .fault else .remote w va
    | .ats page => .waits (m.askAts o.part page)
    | _ => .fault

/-- What writing a copy's bytes meets. -/
inductive CopyDst where
  | ok (m : Mach)
  | fault (va : Nat)
  | noRoute (dst addr : Nat)
  | waits (m : Mach)

/-- Writes bytes of a copy at its destination, which lie in one page (R225, R227, R431): local memory, home slices, host memory or
frames to another device. -/
def Mach.copyWrite (m : Mach) (o : CopyOp) (pos : Nat) (bytes : List Byte) : CopyDst :=
  let a := o.dstAt pos
  let put := fun (p : Perf Unit) => match p with | .done _ m => CopyDst.ok m | .waits m => .waits m
  if bytes.isEmpty then .ok m
  else if o.dstLocal then .ok (m.modCore o.core (fun c => { c with loc := putBytes c.loc (o.base + a) bytes }))
  else
    match m.translate o.part .write a with
    | .ok (.hbm pa) => put (m.cohPutFor o.half pa bytes o.part (m.krn o.krn).num (!o.stream))
    | .ok (.host ha) => put (m.hostWrite (m.spaceLink o.part) ha bytes o.part)
    | .ok (.window w _ va) =>
      if winEvent w || winMailbox w then .fault a
      else
        match m.request (withBytes (m.windowFrame o.part o.krn w va (if winMulticast w then opMput else opPut)) va bytes) o.part o.krn (.copy o.id pos) with
        | .sent m => .ok m
        | .full => .waits m
        | .noRoute => .noRoute (winDst w) va
    | .ats page => .waits (m.askAts o.part page)
    | _ => .fault a

/-- Changes a copy in its queue. -/
def Mach.modCopy (m : Mach) (id : Nat) (f : CopyOp → CopyOp) : Mach :=
  { m with copies := tmap m.copies (fun (q : List CopyOp) => q.map (fun (o : CopyOp) => if o.id == id then f o else o)) }

/-- A copy has met an unmapped page at an address: it ends with ABORTED and ADDRESS_FAULT (R231). -/
def Mach.copyFault (m : Mach) (o : CopyOp) (va : Nat) : Mach :=
  m.modCopy o.id (fun x => { x with status := some (stAborted, 0), faultAt := some va })

/-- Bytes of the next piece of a copy: to the end of the row, of the source page and of an aligned 4 KiB of the destination; one
line of a source at another device. DEDUCED: log 66. -/
def CopyOp.piece (o : CopyOp) (remote : Bool) : Nat :=
  let s := o.srcAt o.pos
  let row := o.len - o.pos % o.len
  Nat.min (Nat.min row (4096 - o.dstAt o.pos % 4096)) (if o.srcLocal then row else if remote then 64 - s % 64 else 65536 - s % 65536)

/-- The copy's source is at another device. -/
def Mach.copyRemote (m : Mach) (o : CopyOp) : Bool :=
  !o.srcLocal && (match m.translate o.part .read (o.srcAt o.pos) with | .ok (.window _ _ _) => true | _ => false)

/-- The steps of a copy: true when it has gone as far as it can for now. -/
def Mach.copyStep (m : Mach) (o : CopyOp) : Bool × Mach :=
  let n := o.piece (m.copyRemote o)
  match m.copyRead o o.pos n with
  | .waits m => (true, m)
  | .fault => (true, m.copyFault o (o.srcAt o.pos % 2 ^ 52))
  | .remote w va =>
    match m.request (withRange (m.windowFrame o.part o.krn w va (if o.stream then opBget else opGet)) va n) o.part o.krn (.copy o.id o.pos) with
    | .sent m => (false, m.modCopy o.id (fun x => { x with pos := x.pos + n }))
    | .full => (true, m)
    | .noRoute => (true, m.abortRemote o.krn stInvalid (winDst w) va)
  | .bytes b po m =>
    match m.copyWrite o o.pos b with
    | .waits m => (true, m)
    | .fault va => (true, m.copyFault o (va % 2 ^ 52))
    | .noRoute dst va => (true, m.abortRemote o.krn stInvalid dst va)
    | .ok m =>
      if po then (true, m.modCopy o.id (fun x => { x with pos := x.pos + b.length, status := some (stPoisoned, 0) }))
      else (false, m.modCopy o.id (fun x => { x with pos := x.pos + n }))

/-- The copy of an engine that is served, by identifier. -/
def Mach.copyHead (m : Mach) (e id : Nat) : Option CopyOp :=
  match m.copyQ e with
  | o :: _ => if o.id == id then some o else none
  | [] => none

/-- Moves a copy on, at most `fuel` pieces. -/
def Mach.copyRun (m : Mach) (e id : Nat) : Nat → Mach
  | 0 => m
  | fuel + 1 =>
    match m.copyHead e id with
    | none => m
    | some o =>
      if o.status.isSome || decide (o.len * o.rows ≤ o.pos) then m
      else
        match m.copyStep o with
        | (true, m) => m
        | (false, m) => m.copyRun e id fuel

/-- A line that a copy reads next, from HBM or host memory, fails its Tail check in both responses: the copy ends with POISONED, detail 1
(R526).  Local memory holds no Tail (R524), and a line of another device is checked at the link (R435). -/
def Mach.copyMismatch (m : Mach) (e id : Nat) : Mach :=
  match m.copyHead e id with
  | none => m
  | some o =>
    if o.status.isSome || decide (o.len * o.rows ≤ o.pos) || o.srcLocal then m
    else
      match m.copyRead o o.pos (o.piece (m.copyRemote o)) with
      | .bytes _ _ m => m.modCopy id (fun x => { x with status := some (stPoisoned, 1) })
      | _ => m

/-- A turn of a copy: its pieces, with what the Tail checks find in them (R526). -/
def Mach.copyTurn (m : Mach) (half e : Nat) (o : CopyOp) (turn : CopyTurn) : Mach :=
  if turn.check == .bad then (m.copyRun e o.id turn.before).copyMismatch e o.id
  else
    let m1 := m.copyRun e o.id (o.len * o.rows)
    match m1.copyHead e o.id with
    | some x => if o.pos < x.pos && !o.srcLocal then m1.reread turn.check (half / 2) half else m1
    | none => m1

/-- No frame of a copy awaits an answer. -/
def Mach.copyAnswered (m : Mach) (id : Nat) : Bool :=
  m.links.remotes.all (fun r => match r.who with | .copy i _ => i != id | _ => true)

/-- CE_COPY_COMPLETE (R126, R225, R227, R231, R274, R526): the engine's oldest copy moves what it can; once every destination byte is
performed, or it has failed, its status word is written and its increment made. -/
def execCeCopyComplete (half : Nat) (turn : CopyTurn) (s : State) : Out :=
  s.run fun m =>
    if 8 ≤ half || 4 ≤ turn.engine then .refused .noSuchUnit
    else
      let e := 4 * half + turn.engine
      match m.copyQ e with
      | [] => .next m
      | o :: _ =>
        let m := m.copyTurn half e o turn
        match m.copyHead e o.id with
        | none => .next m
        | some o =>
          if o.status.isNone && (decide (o.pos < o.len * o.rows) || !m.copyAnswered o.id) then .next m
          else
            let st := o.status.getD (stOk, 0)
            let leave := fun (m : Mach) => m.setCopyQ e ((m.copyQ e).drop 1)
            match m.vwriteFor o.half (m.krn o.krn).num o.part o.va (leBytes 8 (statusWord st.1 st.2).toNat), o.faultAt with
            | .waits m, _ => .next m
            | .fault, at_ => .next ((leave m).abortKrn o.krn fAddress (some (at_.getD o.va)))
            | .ok m, some va => .next ((leave m).abortKrn o.krn fAddress (some va))
            | .ok m, none => .next ((((leave m).noteOp o.krn o.core).complete o.eve o.krn o.core o.ec).opDone o.gid o.id)

/-- The data of a GET or BGET of a copy is written at the destination (R431): whether it could be. -/
def Mach.copyScatter (m : Mach) (id pos : Nat) (bytes : List Byte) : CopyDst :=
  match (m.copies.flatMap (fun e => e.2)).find? (fun o => o.id == id) with
  | none => .ok m
  | some o => m.copyWrite o pos bytes

/-! Multicast (R60 to R66, R69 to R71, R130, R275, R550). -/

/-- A target gets no more packets: it is undelivered, or the operation sends nothing (R60). -/
def McastOp.lost (o : McastOp) (t : Nat) : Bool := o.invalid || (tget mcTarget0 o.state t).undelivered

/-- A multicast is over: every target has accepted every packet or is undelivered. -/
def McastOp.settled (o : McastOp) : Bool := o.targets.all (fun t => o.lost t || decide (o.packets ≤ (tget mcTarget0 o.state t).got.length))

/-- Packets that a fork holds for a branch that its siblings run ahead of (R61). -/
def forkWindow : Nat := 32

/-- The first packet that a target has not accepted; an undelivered one waits for none. -/
def McastOp.nextPacket (o : McastOp) (t : Nat) : Nat :=
  if o.lost t then o.packets else ((List.range o.packets).find? (fun p => !(tget mcTarget0 o.state t).got.contains p)).getD o.packets

/-- The fork of a cluster takes packets below this number: its slowest branch trails by the full window (R61, R62). -/
def McastOp.clusterReach (o : McastOp) (c : Nat) : Nat :=
  (o.targets.filter (fun t => clusterOf t == c)).foldl (fun n t => Nat.min n (o.nextPacket t + forkWindow)) (o.packets + forkWindow)

/-- The tree takes packets below this number: the fork at its root waits for the slowest cluster (R61, R62). DEDUCED: log 119. -/
def McastOp.reach (o : McastOp) : Nat :=
  (List.range 64).foldl (fun n c => Nat.min n (o.clusterReach c + forkWindow)) (o.packets + 2 * forkWindow)

/-- A packet can have reached a target: no fork on its way waits before it (R61, R62). -/
def McastOp.passes (o : McastOp) (target packet : Nat) : Bool := decide (packet < o.clusterReach (clusterOf target)) && decide (packet < o.reach)

/-- The completion record (Table 03.5). DEDUCED: log 65. -/
def Mach.mcastRecord (m : Mach) (o : McastOp) : List Byte :=
  let lost := o.targets.filter o.lost
  let st := if o.invalid then stInvalid else if lost.isEmpty then stOk else stMcastPartial
  leBytes 8 (statusWord st 0).toNat ++ leBytes 8 (m.coreTide o.core) ++ List.replicate 112 0 ++ leBytes 128 (total (lost.map (fun t => 2 ^ t)))

/-- Traffic of a launch has moved in the network (R92). -/
def Mach.noteNet (m : Mach) (k : Nat) : Mach := if (m.krn k).live then m.modKrn k (fun x => { x with netTide := m.now }) else m

/-- Completes a multicast that is over (R65). -/
def Mach.mcastEnd (m : Mach) (id : Nat) : Mach :=
  match m.mcasts.find? (fun o => o.id == id) with
  | none => m
  | some o =>
    if !o.settled then m
    else
      let leave := fun (m : Mach) =>
        ({ m with mcasts := m.mcasts.filter (fun (x : McastOp) => x.id != id) } : Mach).noteNet o.krn
      match m.vwrite o.part o.record (m.mcastRecord o) with
      | .waits m => m
      | .fault => (leave m).abortKrn o.krn fAddress (some o.record)
      | .ok m => (((leave m).noteOp o.krn o.core).complete o.eve o.krn o.core o.ec).opDone o.gid id

/-- MCAST (R60, R71, R78, R126, R130, R275): the source is read once the group's earlier local writes are performed; one that names no
target, or that breaks a condition, completes at once.  One that does both completes with INVALID (DESIGN CHOICE in log 65; the rest of log 65 is DEDUCED). -/
def execMcast (g : Nat) (f : FmtS) (s : State) : Out :=
  runS g (.mcast g f) f [] (fun m =>
    let k := m.krnOf g
    let x := m.krn k
    let va := m.uPair g f.ua.toNat
    let localWrites := m.ops.any (fun o => o.gid == g && o.isLocal && !o.isLoad && o.lanes.any (fun l => !l.done)) ||
      (m.core (coreOf g)).tq.any (fun t => t.gid == g && t.stores)
    if localWrites then .hold m
    else if va % 64 != 0 || decide (2 ^ 52 ≤ va) then .fault fAddress (some (va % 2 ^ 52)) m
    else
      match m.vread x.part va 64 .read with
      | .waits m => .hold m
      | .fault => .fault fAddress (some va) m
      | .poisoned m => .fault fPoison (some va) m
      | .ok b m =>
        let mask : DWord := BitVec.ofNat 64 (fieldAt b 0 8)
        let cores := fieldAt b 8 2
        let len := fieldAt b 12 4
        let src := fieldAt b 16 4
        let dst := fieldAt b 20 4
        let blk := m.blk (m.grp g).block
        let bad := len % 256 != 0 || len == 0 || decide (524288 < len) || src % 256 != 0 || dst % 256 != 0 || decide (1024 * blk.granules < src + len) ||
          decide (x.desc.recvBytes < dst + len) || (mask &&& ~~~(m.part x.part).clusters) != 0
        let targets := (bitsOf mask).flatMap (fun c => (coresOfCluster c).filter (fun i => cores.testBit (i % 16)))
        let o : McastOp :=
          { id := m.nextId, gid := g, krn := k, core := coreOf g, part := x.part, targets := targets, ctr := BitVec.ofNat 16 (fieldAt b 10 2),
            dst := dst, packets := len / 256, invalid := bad, payload := if bad then [] else getBytes (m.core (coreOf g)).loc (1024 * blk.base + src) len,
            record := fieldAt b 24 8 / 256 * 256, state := [], eve := f.eve, ec := f.ec.toNat }
        let m := awaitOp { m.bumpId with mcasts := m.mcasts ++ [o] } g o.id f.eve
        .go (if bad || targets.isEmpty then m.mcastEnd o.id else m)) s

/-- Changes a target of a multicast. -/
def Mach.modTarget (m : Mach) (id target : Nat) (f : McTarget → McTarget) : Mach :=
  { m with mcasts := m.mcasts.map (fun (o : McastOp) => if o.id == id then { o with state := tmod mcTarget0 o.state target f } else o) }

/-- A packet is written into the receive area of the launch on the core; the last one makes the target's increment (R62, R64, R89). -/
def Mach.mcastPut (m : Mach) (o : McastOp) (target packet : Nat) : Mach :=
  let x := m.krn o.krn
  let area := 1024 * (tget 0 x.recv target - 1)
  let held := if (m.core target).halted then 1 else 0
  let m := m.modCore target (fun c =>
    { c with loc := putBytes c.loc (area + o.dst + 256 * packet) (slice o.payload (256 * packet) 256), ejected := c.ejected + held })
  let m := m.modTarget o.id target (fun t => { t with got := packet :: t.got, blocked := 0, buffered := t.buffered + held })
  let e := o.ctr.toNat % 32
  if decide ((tget mcTarget0 o.state target).got.length + 1 < o.packets) || !o.ctr.getLsbD 15 then m
  else if target != o.core && decide (x.ctrKind e < 2) then m.notice o.part x.num stOk
  else m.incCtr o.krn target e 1

/-- A target is undelivered (R62, R63, R69): its port discards what it holds of the operation. -/
def Mach.loseTarget (m : Mach) (id target : Nat) : Mach :=
  match m.mcasts.find? (fun o => o.id == id) with
  | none => m
  | some o =>
    (m.modTarget id target (fun t => { t with undelivered := true, blocked := 0, buffered := 0 })).modCore target
      (fun c => { c with ejected := c.ejected - (tget mcTarget0 o.state target).buffered })

/-- MCAST_PACKET_ARRIVAL (R61, R62, R63, R70, R550): a packet that a fork still holds back has not arrived; a target without a receive
area, or a packet that fails its check, is undelivered at once; the port of a halted core accepts until its buffer is full. -/
def execMcastPacketArrival (op target packet : Nat) (tailBad : Bool) (s : State) : Out :=
  s.run fun m =>
    if 1024 ≤ target then .refused .noSuchUnit
    else
      match m.mcasts.find? (fun o => o.id == op) with
      | none => .next m
      | some o =>
        let t := tget mcTarget0 o.state target
        if !o.targets.contains target || o.lost target || decide (o.packets ≤ packet) || t.got.contains packet || !o.passes target packet then .next m
        else
          let m := m.noteNet o.krn
          if tget 0 (m.krn o.krn).recv target = 0 || !m.coreLive target then .next (m.loseTarget op target)
          else if tailBad then
            .next ((m.loseTarget op target).eventAt 0x3 0 (dieOfCluster (clusterOf target)) (clusterOf target) (logicalOf target))
          else if (m.core target).halted && decide (Config.ejectBuffer ≤ (m.core target).ejected) then
            .next (m.modTarget op target (fun t => { t with blocked := if t.blocked = 0 then m.now + 1 else t.blocked }))
          else .next (m.mcastPut o target packet)

/-- MCAST_TIMER_EXPIRY (R63): the port has accepted nothing for 16 us. -/
def execMcastTimerExpiry (op target : Nat) (s : State) : Out :=
  s.run fun m =>
    match m.mcasts.find? (fun o => o.id == op) with
    | none => .next m
    | some o =>
      let t := tget mcTarget0 o.state target
      gate m (t.blocked != 0 && !t.undelivered && decide (t.blocked - 1 + 16 * us ≤ m.now)) (m.loseTarget op target)

/-- MCAST_COMPLETE (R65). -/
def execMcastComplete (op : Nat) (s : State) : Out := s.run fun m => .next (m.mcastEnd op)

end Sys2Proof.Machine
end

