-- ==== Sys2Proof/Machine/Links.lean ====
section
/-! DEFINITION. Machine/Links.lean: the scale-out links: frames that arrive, what they do and how they are answered, completions at the
origin, retry, links that go up and down, LINK.* and the alignment of Tide across devices (chapter 16, R43, R438, R498, R499, R505,
R563). -/

namespace Sys2Proof.Machine

/-! Answers and checks (R421, R432, Table 16.4). -/

/-- What a request frame meets at its destination. -/
inductive Served where
  | answer (status : Nat) (lines : List (LineData × TailState)) (m : Mach)
  | waits (m : Mach)

/-- Checks 1 and 2 of Table 16.4: the status that turns a frame away. -/
def Mach.turnedAway (m : Mach) (f : Frame) : Option Nat :=
  let p := f.dstPart.toNat
  let q := m.part p
  if p = 0 || decide (64 < p) || q.st == .absent || q.st == .resetting || !q.ingress || q.domain != f.domain then some stDenied
  else if q.st == .frozen || (m.capturedNow p).isSome then some stBusy
  else none

/-- The CMP that answers a frame (R420, R433). -/
def Mach.answerTo (m : Mach) (f : Frame) (status : Nat) (lines : List (LineData × TailState)) : Frame :=
  { f with op := BitVec.ofNat 4 opCmp, vc := 2, seq := 0, hops := 32, dst := f.src, mc := false, dstPart := f.srcPart, src := BitVec.ofNat 17 m.links.devId,
           srcPart := f.dstPart, status := BitVec.ofNat 8 status, lines := lines, crcOk := true, gcmOk := true }

/-- Payload bytes that arrived for a partition: BYTES_LINK_RX and the receive bucket of the link's X die (R432, R440). -/
def Mach.chargeRx (m : Mach) (p link n : Nat) : Mach := (if link < 12 then m.spend p 3 (link / 6) n else m).account p 5 n

/-- The partition's number where it exists, for charging. -/
def Mach.chargeable (m : Mach) (p : Nat) : Nat := if p ≤ 64 && (m.part p).st != .absent then p else 0

/-- Sends the answer to a frame; one that no link can take is dropped (R427). -/
def Mach.sendAnswer (m : Mach) (f : Frame) (status : Nat) (lines : List (LineData × TailState)) : Perf Unit :=
  match m.originate (m.answerTo f status lines) (m.chargeable f.dstPart.toNat) with
  | .sent m => .done () m
  | .noRoute => .done () m
  | .full => .waits m

/-- Serves a request frame: the checks, its effect, its payload's count, its answer.  A frame whose answer finds no room takes no effect
yet (R281). -/
def Mach.serveFrame (m : Mach) (link : Nat) (f : Frame) (body : Mach → Served) : Perf Unit :=
  match m.turnedAway f with
  | some st => m.sendAnswer f st []
  | none =>
    match body m with
    | .waits m => .waits m
    | .answer st ls m' =>
      match (if st = stOk then m'.chargeRx f.dstPart.toNat link (payloadLen f) else m').sendAnswer f st ls with
      | .done _ m' => .done () m'
      | .waits _ => .waits m

/-! Arrival (R422, R423, R427). -/

/-- The retry state that a frame's sender belongs to: the link's, or the sending device's in mode 2 (R429). -/
def Mach.senderKey (m : Mach) (link : Nat) (f : Frame) : Nat := if (m.ylink link).mode = 2 then 12 + f.src.toNat else link

/-- A frame arrives on an up link, or (`link` 12) from the device itself: one that fails a check or is out of sequence is answered
NAK, and one that takes effect is acknowledged. -/
def Mach.arrive (m : Mach) (link : Nat) (f : Frame) (body : Mach → Perf Unit) : Mach :=
  if link = 12 then
    match (m.peer loopKey).buf with
    | h :: _ =>
      if h = f then
        match body m with
        | .done _ m => m.modPeer loopKey (fun p => { p with buf := p.buf.drop 1 })
        | .waits m => m
      else m
    | [] => m
  else if (m.ylink link).st != .up then m
  else
    let k := m.senderKey link f
    let nak := fun (m : Mach) => m.emit (.ack k ((m.peer k).rxSeq - 1) true)
    if !f.crcOk then nak m
    else if !f.gcmOk || !(m.peer k).fresh f then nak (m.modPeer k (fun p => { p with gcm := p.gcm + 1 }))
    else if f.seq != (m.peer k).rxSeq then nak m
    else
      match body m with
      | .waits m => m
      | .done _ m => (m.modPeer k (·.accept f)).emit (.ack k f.seq false)

/-- A frame of one operation that is addressed to this device arrives. -/
def ylpIn (link : Nat) (f : Frame) (op : Nat) (s : State) (body : Mach → Perf Unit) : Out :=
  s.run fun m =>
    if 12 < link then .refused .noSuchUnit
    else gate m (f.op.toNat == op && !f.mc && f.dst.toNat == m.links.devId) (m.arrive link f body)

/-! Effects (R431, R432, R435). -/

/-- The byte mask of payload line `i`: the first line begins at the first valid byte, the last ends at the last. -/
def putMask (f : Frame) (i : Nat) : DWord :=
  let lo := if i = 0 then f.first.toNat else 0
  let hi := if i + 1 = f.lines.length then f.last.toNat else 63
  maskOf lo (hi + 1 - lo)

/-- The bytes of a line that a mask selects, which are consecutive. -/
def maskedBytes (d : LineData) (mask : DWord) : List Byte := ((List.range 64).filter (fun i => mask.getLsbD i)).map (lineByte d)

/-- A write of host memory with a line that is poisoned or does not match: on a cached line the line becomes poisoned, else the write is
discarded. DEDUCED: log 59. -/
def Mach.hostPut (m : Mach) (link ha part : Nat) (bytes : List Byte) (bad : Bool) : Perf Unit :=
  if bad && !m.hostCached link then .done () m
  else
    match m.hostWrite link ha bytes part with
    | .done _ m =>
      .done () (if bad then m.modMem (fun a =>
        match tfind a.llc (hostKey (ha / 64)) with
        | some x => { a with llc := tins a.llc (hostKey (ha / 64)) { x with poison := true } }
        | none => a) else m)
    | .waits m => .waits m

/-- Writes one payload line. -/
def Mach.putLine (m : Mach) (p : Nat) (t : Target) (d : LineData) (mask : DWord) (bad : Bool) : Perf Unit :=
  match t with
  | .hbm pa => m.cohWriteFrom (pa / 64) p 0 d mask bad true 7
  | .host ha =>
    let lo := ((List.range 64).find? (fun i => mask.getLsbD i)).getD 0
    m.hostPut (m.spaceLink p) (ha / 64 * 64 + lo) p (maskedBytes d mask) bad
  | _ => .done () m

/-- Where line `i` of a frame lies in its partition. DEDUCED: log 68. -/
def Mach.frameLine (m : Mach) (f : Frame) (a : Acc) (i : Nat) : Tr :=
  match m.translate f.dstPart.toNat a (f.addr.toNat / 64 * 64 + 64 * i) with
  | .ok (.window _ _ _) => .fault
  | t => t

/-- What the write of a payload line still waits for. -/
def Mach.putLineWaits (m : Mach) (p : Nat) : Tr → Option Mach
  | .ok (.hbm pa) => m.writeWaits (pa / 64)
  | .ok (.host ha) => m.hostPutWaits (m.spaceLink p) (ha / 64 * 64) 64 p
  | .ats page => some (m.askAts p page)
  | _ => none

/-- The payload of a PUT or MPUT is written, once every line's page permits it and every line can be written (R265, R281). -/
def Mach.servePut (m : Mach) (f : Frame) : Served :=
  let p := f.dstPart.toNat
  let places := (List.range f.lines.length).map (fun i => (i, m.frameLine f .write i))
  if places.any (fun x => x.2 == .fault) then .answer stInvalid [] m
  else
    match places.findSome? (fun x => m.putLineWaits p x.2) with
    | some m => .waits m
    | none =>
      let go := places.foldl (fun (acc : Perf Unit) x =>
        match acc, x.2 with
        | .done _ m, .ok t =>
          let l := nth (0, .good) f.lines x.1
          m.putLine p t l.1 (putMask f x.1) (l.2 != .good)
        | r, _ => r) (.done () m)
      match go with
      | .done _ m => .answer stOk [] m
      | .waits m => .waits m

/-- YLP_PUT (R431, R432). -/
def execYlpPut (link : Nat) (f : Frame) (s : State) : Out := ylpIn link f opPut s (fun m => m.serveFrame link f (·.servePut f))

/-- The line of an answer: the bytes that the request named, or a poisoned line. -/
def answerLine (f : Frame) (b : List Byte) : List (LineData × TailState) := [(placeBytes f.first.toNat b, .good)]

/-- A GET or, with `bulk`, a BGET reads its bytes: at the coherence point, or from HBM (R228, R431). DEDUCED: log 69. -/
def Mach.serveGet (m : Mach) (f : Frame) (bulk : Bool) : Served :=
  let p := f.dstPart.toNat
  let n := f.last.toNat + 1 - f.first.toNat
  match m.frameLine f .read 0 with
  | .ok (.hbm pa) =>
    let line := pa / 64
    let r : Perf (LineData × Bool) := if bulk then (let x := m.hbmRead line p; .done x.1 x.2) else m.cohRead line p true
    match r with
    | .waits m => .waits m
    | .done (d, po) m =>
      if po then .answer stPoisoned [(d, .poison)] (m.deferred 0x11 line p 0)
      else .answer stOk (answerLine f (slice (lineBytes d) f.first.toNat n)) m
  | .ok (.host ha) =>
    if bulk then .answer stInvalid [] m
    else
      match m.hostRead (m.spaceLink p) (ha / 64 * 64 + f.first.toNat) n p with
      | .done (b, po) m => if po then .answer stPoisoned [(placeBytes f.first.toNat b, .poison)] m else .answer stOk (answerLine f b) m
      | .waits m => .waits m
  | .ats page => if bulk then .answer stInvalid [] m else .waits (m.askAts p page)
  | _ => .answer stInvalid [] m

/-- YLP_GET (R431, R432). -/
def execYlpGet (link : Nat) (f : Frame) (s : State) : Out := ylpIn link f opGet s (fun m => m.serveFrame link f (·.serveGet f false))

/-- YLP_BGET (R228, R431, R432). -/
def execYlpBget (link : Nat) (f : Frame) (s : State) : Out := ylpIn link f opBget s (fun m => m.serveFrame link f (·.serveGet f true))

/-- The atomic operation of a code (R420). -/
def aopOf (code : Nat) : Option AtomOp :=
  [AtomOp.add, .mins, .minu, .maxs, .maxu, .and, .or, .xor, .xchg, .cas, .fadd][code]?

/-- An ATOM or RED is performed at the home slice (R252, R431, R435). DEDUCED: log 68. -/
def Mach.serveAtom (m : Mach) (f : Frame) (isRed : Bool) : Served :=
  let p := f.dstPart.toNat
  let bytes := 2 ^ f.size.toNat
  let off := f.addr.toNat % 64 / bytes * bytes
  let line := nth (0, .mismatch) f.lines 0
  let b := lineBytes line.1
  let bad := line.2 != .good
  match (if f.size = 2 || f.size = 3 then aopOf f.aop.toNat else none), m.frameLine f .write 0 with
  | none, _ => .answer stInvalid [] m
  | some op, .ok t =>
    let opnd := fieldAt b 0 bytes
    let cmp := fieldAt b 8 bytes
    let r : Perf AtomRes := match t with
      | .hbm pa => m.cohAtom (pa / 64) p op (faddN bytes) off bytes opnd cmp bad
      | .host ha => m.hostAtom p op bytes opnd cmp (ha / 64 * 64 + off) bad
      | _ => .done .mismatch m
    match r with
    | .waits m => .waits m
    | .done (.old v) m => .answer stOk (if isRed then [] else [(lineOf (leBytes 64 v), .good)]) m
    | .done .mismatch m => .answer stInvalid [] m
    | .done .poisoned m =>
      match isRed, t with
      | true, .hbm pa => .answer stOk [] (m.discarded (pa / 64) p 0)
      | true, _ => .answer stOk [] m
      | false, .hbm pa => .answer stPoisoned [((m.mem.hbmLine (pa / 64)), .poison)] (m.deferred 0x11 (pa / 64) p 0)
      | false, _ => .answer stPoisoned [(0, .poison)] m
  | some _, .ats page => .waits (m.askAts p page)
  | some _, .fault => .answer stInvalid [] m

/-- YLP_ATOM (R431, R432, R435). -/
def execYlpAtom (link : Nat) (f : Frame) (s : State) : Out := ylpIn link f opAtom s (fun m => m.serveFrame link f (·.serveAtom f false))

/-- YLP_RED (R431, R432, R435, R532). -/
def execYlpRed (link : Nat) (f : Frame) (s : State) : Out := ylpIn link f opRed s (fun m => m.serveFrame link f (·.serveAtom f true))

/-- The value that a frame's first valid bytes spell. -/
def frameValue (f : Frame) (n : Nat) : Nat := fieldAt (lineBytes (nth (0, .good) f.lines 0).1) f.first.toNat n

/-- An EVT adds to an external counter of the earliest-accepted resident launch that declares it so; there being none, it is discarded
with the notice of R89 (R431). DEDUCED: log 67. -/
def Mach.serveEvt (m : Mach) (f : Frame) : Served :=
  let p := f.dstPart.toNat
  let o := f.addr.toNat % 2 ^ 21
  let core := o / 256
  let e := o % 256 / 8
  let ks := (m.krnsOfPart p).filter (fun k => (m.krn k).ctrKind e == 3 && (m.bankOf k (clusterOf core)).isSome)
  match argMin (fun k => (m.krn k).accepted) ks with
  | some k => .answer stOk [] (m.incCtr k core e (frameValue f 2))
  | none => .answer stOk [] (m.notice p 0 stOk)

/-- YLP_EVT (R89, R431, R432). -/
def execYlpEvt (link : Nat) (f : Frame) (s : State) : Out := ylpIn link f opEvt s (fun m => m.serveFrame link f (·.serveEvt f))

/-- An MBOX writes a word or a doorbell of a channel of the partition: a disabled channel, and one in the other mode, discards it and logs an
Unsupported Request (R321); a full channel answers FULL (R324, R431). DEDUCED: log 67. -/
def Mach.serveMbox (m : Mach) (f : Frame) : Served :=
  let p := f.dstPart.toNat
  let o := f.addr.toNat % 2 ^ 21
  let key := 8 * m.vfKey p + o / 4096 % 8
  let c := m.chan key
  if o % 4096 = 0x100 then
    if c.mode || !c.enable then .answer stOk [] (m.logAer (m.vfKey p) 0)
    else if c.txFree = 0 then .answer stFull [] m
    else .answer stOk [] (m.acceptWord key (BitVec.ofNat 32 (frameValue f 4)))
  else if o % 4096 = 0x10 then
    if !c.mode || !c.enable then .answer stOk [] (m.logAer (m.vfKey p) 0)
    else if 8 ≤ c.dbq.length then .answer stFull [] m
    else .answer stOk [] (m.acceptDoorbell key (frameValue f 8 / 64 * 64))
  else .answer stInvalid [] m

/-- YLP_MBOX (R324, R431, R432). -/
def execYlpMbox (link : Nat) (f : Frame) (s : State) : Out := ylpIn link f opMbox s (fun m => m.serveFrame link f (·.serveMbox f))

/-! Routed multicast and transit (R421, R427, R428, R434). -/

/-- A frame is discarded and counted. -/
def Mach.countDrop (m : Mach) (link : Nat) : Mach := m.modYlink link (fun x => { x with errors := x.errors + 1 })

/-- A record of a RAS event that Table 20.6 gives no code, at a link. -/
def Mach.linkEvent (m : Mach) (kind link part : Nat) : Mach :=
  m.logDev { RasRec.mk0 (Config.rasCode kind).1 (Config.rasCode kind).2 part 0 m.now with die := 0x80 + link / 6, place := link }

/-- Delivers an MPUT where the group entry has LOCAL set, but not at its origin (R428); a refusal is logged against the partition. -/
def Mach.mputLocal (m : Mach) (link : Nat) (f : Frame) : Perf Unit :=
  if !(m.routeOf true f.dst.toNat).isLocal || f.src.toNat == m.links.devId then .done () m
  else
    match m.turnedAway f with
    | some _ => .done () (m.linkEvent 10 link f.dstPart.toNat)
    | none =>
      match m.servePut f with
      | .waits m => .waits m
      | .answer st _ m => .done () (if st = stOk then m.chargeRx f.dstPart.toNat link (payloadLen f) else m.linkEvent 10 link f.dstPart.toNat)

/-- Copies an MPUT to the up links of its group but the one it came on; HOPS at its end drops the copies. -/
def Mach.mputOn (m : Mach) (link : Nat) (f : Frame) : Perf Unit :=
  let ups := (m.upLinks (m.routeOf true f.dst.toNat)).filter (· != link)
  let f := { f with hops := f.hops - 1 }
  if ups.isEmpty then .done () m
  else if f.hops = 0 then .done () (m.countDrop link)
  else if ups.all (fun l => m.hasRoom l f) then .done () (ups.foldl (fun m l => m.transmit l f) m)
  else .waits m

/-- YLP_MPUT (R428, R434). -/
def execYlpMput (link : Nat) (f : Frame) (s : State) : Out :=
  s.run fun m =>
    if 12 ≤ link then .refused .noSuchUnit
    else
      gate m (f.op.toNat == opMput && f.mc) (m.arrive link f (fun m =>
        match m.mputLocal link f with
        | .waits m => .waits m
        | .done _ m' =>
          match m'.mputOn link f with
          | .done _ m' => .done () m'
          | .waits _ => .waits m))

/-- A frame in transit goes on over its route, one hop fewer; without a route, or at its last hop, it is discarded and counted. -/
def Mach.forward (m : Mach) (link : Nat) (f : Frame) : Perf Unit :=
  if f.hops.toNat ≤ 1 then .done () (m.countDrop link)
  else
    match m.egress { f with hops := f.hops - 1 } 0 true with
    | .sent m => .done () m
    | .noRoute => .done () (m.countDrop link)
    | .full => .waits m

/-- YLP_TRANSIT (R421, R427): a unicast frame for another device is routed onward; a frame of an unassigned operation is discarded. -/
def execYlpTransit (link : Nat) (f : Frame) (s : State) : Out :=
  s.run fun m =>
    if 12 ≤ link then .refused .noSuchUnit
    else if 11 ≤ f.op.toNat then .next (m.arrive link f (fun m => .done () (m.countDrop link)))
    else gate m (!f.mc && f.dst.toNat != m.links.devId && decide (1 ≤ f.op.toNat) && f.op.toNat != 10) (m.arrive link f (fun m => m.forward link f))

/-! Completions at the origin (R433, R436, R438). -/

/-- Forgets a remote operation. -/
def Mach.dropRemote (m : Mach) (tag : Nat) : Mach := m.modLinks (fun x => { x with remotes := x.remotes.filter (fun (r : Remote) => r.tag != tag) })

/-- Changes a remote operation. -/
def Mach.modRemote (m : Mach) (tag : Nat) (f : Remote → Remote) : Mach :=
  m.modLinks (fun x => { x with remotes := x.remotes.map (fun (r : Remote) => if r.tag == tag then f r else r) })

/-- A remote operation fails with a status: its launch is aborted, and what waited for it goes (R433).  A copy whose launch has ended
completes with the status. DEDUCED: log 69. -/
def Mach.failRemote (m : Mach) (r : Remote) (status : Nat) : Mach :=
  let live := (m.krn r.krn).live
  let m := (m.dropRemote r.tag).abortRemote r.krn status r.frame.dst.toNat r.frame.addr.toNat
  match r.who with
  | .mem id => { m with ops := m.ops.filter (fun (o : MemOp) => o.id != id) }
  | .copy id _ =>
    if live then { m with copies := (tmap m.copies (fun (q : List CopyOp) => q.filter (fun (o : CopyOp) => o.id != id))).filter (fun e => e.2 != []) }
    else m.modCopy id (fun o => { o with status := some (status, 0) })
  | .none => m

/-- The lanes of an access that a frame serves: every lane of a whole line, else the first that waits at the frame's address. -/
def lanesOfFrame (o : MemOp) (f : Frame) : List LaneAcc :=
  let there := fun (l : LaneAcc) (exact : Bool) =>
    !l.done && l.sent && (match l.tgt with
      | .window w _ va => winDst w == f.dst.toNat && (if exact then va == f.addr.toNat else va / 64 == f.addr.toNat / 64)
      | _ => false)
  if f.op.toNat == opPut && decide (f.lines.length = 1) && f.first == 0 && f.last == 63 then o.lanes.filter (there · false)
  else (o.lanes.filter (there · true)).take 1

/-- An access's lanes are performed by the answer to a frame: data for a load or an atomic. -/
def Mach.finishLanes (m : Mach) (o : MemOp) (r : Remote) (f : Frame) : Mach :=
  let line := nth (0, TailState.good) f.lines 0
  let data := match o.kind with
    | .load => some (fieldAt (lineBytes line.1) r.frame.first.toNat o.bytes)
    | .atomic _ => some (fieldAt (lineBytes line.1) 0 o.bytes)
    | _ => none
  match lanesOfFrame o r.frame with
  | [] => m
  | l :: ls =>
    if data.isSome && line.2 != .good then m.faultOp o fPoison l
    else
      ((l :: ls).foldl (fun m x =>
        m.modOp o.id (·.setLane x.lane (fun y => { y with done := true, data := match data with | some d => BitVec.ofNat 128 d | none => y.data }))) m).settleOp o.id

/-- An answer OK. -/
def Mach.finishRemote (m : Mach) (r : Remote) (f : Frame) : Perf Unit :=
  match r.who with
  | .mem id =>
    match m.ops.find? (fun o => o.id == id) with
    | some o => .done () ((m.dropRemote r.tag).finishLanes o r f)
    | none => .done () (m.dropRemote r.tag)
  | .copy id pos =>
    let line := nth (0, TailState.good) f.lines 0
    if r.frame.op.toNat != opGet && r.frame.op.toNat != opBget then .done () (m.dropRemote r.tag)
    else if line.2 != .good then .done () ((m.dropRemote r.tag).modCopy id (fun o => { o with status := some (stPoisoned, 0) }))
    else
      match m.copyScatter id pos (slice (lineBytes line.1) r.frame.first.toNat (r.frame.last.toNat + 1 - r.frame.first.toNat)) with
      | .ok m => .done () (m.dropRemote r.tag)
      | .waits m => .waits m
      | .fault va =>
        match (m.copies.flatMap (fun e => e.2)).find? (fun o => o.id == id) with
        | some o => .done () ((m.dropRemote r.tag).copyFault o (va % 2 ^ 52))
        | none => .done () (m.dropRemote r.tag)
      | .noRoute dst va => .done () ((m.dropRemote r.tag).abortRemote r.krn stInvalid dst va)
  | .none => .done () (m.dropRemote r.tag)

/-- An answer POISONED: the consumer receives DATA_POISON (R290, R433). -/
def Mach.poisonRemote (m : Mach) (r : Remote) : Mach :=
  let m := m.dropRemote r.tag
  match r.who with
  | .mem id =>
    match m.ops.find? (fun o => o.id == id) with
    | some o => match lanesOfFrame o r.frame with | l :: _ => m.faultOp o fPoison l | [] => m
    | none => m
  | .copy id _ => m.modCopy id (fun o => { o with status := some (stPoisoned, 0) })
  | .none => m

/-- A CMP reaches the origin. DEDUCED: log 69. -/
def Mach.completeRemote (m : Mach) (link : Nat) (f : Frame) : Perf Unit :=
  match m.links.remotes.find? (fun r => r.tag == f.tag.toNat && r.frame.dst == f.src) with
  | none => .done () m
  | some r =>
    if r.gone then .done () (m.dropRemote r.tag) else
    let m := m.chargeRx (m.chargeable r.part) link (payloadLen f)
    let st := f.status.toNat
    if st = stOk then m.finishRemote r f
    else if st = stPoisoned then .done () (m.poisonRemote r)
    else if st = stBusy || st = stFull then
      .done () (m.modRemote r.tag (fun x =>
        { x with holding := true, busyAt := if x.busyAt = 0 then m.now + 1 else x.busyAt, flown := x.flown + (m.now - x.sentAt), sentAt := m.now }))
    else .done () (m.failRemote r st)

/-- YLP_CMP (R274, R433, R438). -/
def execYlpCmp (link : Nat) (f : Frame) (s : State) : Out := ylpIn link f opCmp s (fun m => m.completeRemote link f)

/-- Runs an effect on an outstanding remote operation. -/
def onRemote (tag : Nat) (s : State) (f : Mach → Remote → Mach) : Out :=
  s.run fun m =>
    match m.links.remotes.find? (fun r => r.tag == tag) with
    | some r => .next (f m r)
    | none => .next m

/-- REMOTE_RESEND (R433): 10 us after BUSY or FULL, within the 1 s. -/
def execRemoteResend (tag : Nat) (s : State) : Out :=
  onRemote tag s fun m r =>
    if r.gone then m else if r.holding && decide (r.sentAt + 10 * us ≤ m.now) && decide (m.now < r.busyAt - 1 + sec1) then
      match m.egress r.frame (m.chargeable r.part) true with
      | .sent m => m.modRemote tag (fun x => { x with holding := false, sentAt := m.now })
      | .full => m
      | .noRoute => m.failRemote r stInvalid
    else m

/-- REMOTE_BUSY_LIMIT (R433). -/
def execRemoteBusyLimit (tag : Nat) (s : State) : Out :=
  onRemote tag s fun m r => if r.busyAt != 0 && decide (r.busyAt - 1 + sec1 ≤ m.now) then m.failRemote r stTimeout else m

/-- REMOTE_CMP_TIMEOUT (R433): 10 ms in flight, BUSY and FULL waits apart. -/
def execRemoteCmpTimeout (tag : Nat) (s : State) : Out :=
  onRemote tag s fun m r =>
    if !r.holding && decide (10 * ms ≤ r.flown + (m.now - r.sentAt)) then m.failRemote r stTimeout else m

/-! Retry (R423, R437). -/

/-- The partition of this device that a frame is charged to, 0 for a frame in transit (R427, R440). -/
def Mach.chargedTo (m : Mach) (f : Frame) : Nat := if f.src.toNat == m.links.devId then m.chargeable f.srcPart.toNat else 0

/-- Sends the frames of a retry buffer again; their payload is charged to the bucket again (R440). -/
def Mach.resendAll (m : Mach) (k : Nat) : Mach :=
  let p := m.peer k
  if p.buf.isEmpty || (m.ylink p.link).st != .up then m
  else
    let m := p.buf.foldl (fun m f => (m.putFrame k p.link f).chargeTx (m.chargedTo f) p.link (payloadLen f) true) m
    let m := m.modYlink p.link (fun x => { x with retries := x.retries + 1 })
    m.modPeer k (fun p => { p with tries := p.tries + 1, lastTx := m.now })

/-- The frames after the one that a SEQ acknowledges. -/
def afterSeq (seq : BitVec 12) (buf : List Frame) : List Frame :=
  if buf.any (fun f => f.seq == seq) then (buf.dropWhile (fun f => f.seq != seq)).drop 1 else buf

/-- A key of retry state exists: a link's, or a mode 2 peer's. -/
def peerOk (k : Nat) : Bool := decide (k < 12 + 2 ^ 17 + 4096)

/-- YLP_ACK (R423): frames up to SEQ are acknowledged; NAK resends the rest. -/
def execYlpAck (peer : Nat) (seq : BitVec 12) (nak : Bool) (s : State) : Out :=
  s.run fun m =>
    if !peerOk peer then .refused .noSuchUnit
    else
      let p := m.peer peer
      let rest := afterSeq seq p.buf
      let m := if rest.length < p.buf.length then m.modPeer peer (fun x => { x with buf := rest, tries := 0, lastTx := m.now }) else m
      .next (if nak then m.resendAll peer else m)

/-- YLP_RETRY_TIMEOUT (R423): 4 us without an acknowledgement. -/
def execYlpRetryTimeout (peer : Nat) (s : State) : Out :=
  s.run fun m =>
    if !peerOk peer then .refused .noSuchUnit
    else gate m (!(m.peer peer).buf.isEmpty && decide ((m.peer peer).lastTx + 4 * us ≤ m.now)) (m.resendAll peer)

/-! Links that go down and up (R418, R419, R436, R437, R441, R443, R498). -/

/-- The device's grandmaster and parent among the Announces heard on up links: the lowest ID, then the fewest hops, then the lower link;
the device itself where it is the lowest or hears none (R441, R443). DEDUCED: log 74. -/
def Mach.electParent (m : Mach) : Mach :=
  let ups := (List.range 12).filter (fun l => (m.ylink l).carries)
  let heard := (ups.filter (fun l => tget 0 m.links.heard l != 0)).map (fun l => (tget 0 m.links.heard l - 1, l))
  match argMin (fun e => 16 * e.1 + e.2) heard with
  | some (x, l) =>
    if x / 64 < m.links.devId then
      m.modLinks (fun y =>
        { y with gm := x / 64, hops := Nat.min 31 (x % 64 + 1), parent := l + 1, locked := y.locked && y.parent == l + 1,
                 within := if y.parent = l + 1 then y.within else 0 })
    else m.modLinks (fun y => { y with gm := y.devId, hops := 0, parent := 0, locked := false, within := 0 })
  | none =>
    m.modLinks (fun y =>
      { y with gm := y.devId, hops := 0, parent := 0, locked := false, within := 0, offset := if ups.isEmpty then 0 else y.offset })

/-- A frame of the retry buffer of a link that went down (R436): PUT, MPUT, GET, BGET and CMP go out on another link of their route,
which may hold them beyond its 256 KiB; the others complete with TIMEOUT at their origin. DESIGN CHOICE: log 70. -/
def Mach.rescue (m : Mach) (f : Frame) : Mach :=
  let mine := f.src.toNat == m.links.devId
  let rem := if mine then m.links.remotes.find? (fun r => r.tag == f.tag.toNat && r.frame.op == f.op && r.frame.dst == f.dst) else none
  if f.op.toNat == opPut || f.op.toNat == opMput || f.op.toNat == opGet || f.op.toNat == opBget || f.op.toNat == opCmp then
    let ups := m.upLinks (m.routeOf f.mc f.dst.toNat)
    if ups.isEmpty then (match rem with | some r => m.failRemote r stInvalid | none => m)
    else
      m.sendOn (m.pickLink f ups) f (m.chargedTo f) true
  else match rem with | some r => m.failRemote r stTimeout | none => m

/-- A retry state ends: its unacknowledged frames are rescued. DESIGN CHOICE: log 70. -/
def Mach.endPeer (m : Mach) (k : Nat) : Mach :=
  let buf := (m.peer k).buf
  buf.foldl (fun m f => m.rescue f) (m.modPeer k (fun _ => Peer.reset))

/-- The retry states that go over a link: its own, and those of the mode 2 peers that it leads to (R429). -/
def Mach.peersOn (m : Mach) (l : Nat) : List Nat :=
  ((tkeys m.links.peers).filter (fun k => k != loopKey && (k == l || (decide (12 ≤ k) && (m.peer k).link == l)))).eraseDups

/-- A link goes down: so do its peers, and the Announces it brought. DEDUCED: log 72. -/
def Mach.downLink (m : Mach) (l : Nat) : Mach :=
  let keys := m.peersOn l
  let m := m.modYlink l (fun x => { x with st := .down, degrading := false })
  let m := m.modLinks (fun x =>
    { x with heard := tput 0 x.heard l 0, locked := x.locked && x.parent != l + 1, within := if x.parent = l + 1 then 0 else x.within })
  let m := if (List.range 12).any (fun k => (m.ylink k).carries) then m else m.electParent
  keys.foldl (fun m k => m.endPeer k) m

/-- LINK_DOWN (R418, R436). -/
def execLinkDown (link : Nat) (s : State) : Out :=
  s.run fun m => if 12 ≤ link then .refused .noSuchUnit else gate m ((m.ylink link).st != .down) (m.downLink link)

/-- LINK_RETRY_FAIL (R437): 64 retries or 16 GCM failures in succession take a link, or a mode 2 peer, down; a RAS event. -/
def execLinkRetryFail (link : Nat) (s : State) : Out :=
  s.run fun m =>
    if !peerOk link then .refused .noSuchUnit
    else
      let p := m.peer link
      let l := if link < 12 then link else p.link
      gate m (decide (64 ≤ p.tries) || decide (16 ≤ p.gcm)) ((if link < 12 then m.downLink link else m.endPeer link).linkEvent 2 l 0)

/-- The lanes of a pair are good. -/
def pairGood (bad : BitVec 4) (hi : Bool) : Bool := if hi then !bad.getLsbD 2 && !bad.getLsbD 3 else !bad.getLsbD 0 && !bad.getLsbD 1

/-- A lane carries symbols: all four do, or on a degraded link those of the pair in which no lane has failed (R417). -/
def YLink.inUse (x : YLink) (lane : Nat) : Bool :=
  !x.bad.getLsbD lane && (x.lanes == 4 || (if pairGood x.bad false then decide (lane < 2) else decide (2 ≤ lane)))

/-- LINK_DEGRADE (R419): the link retrains on the good pair, its frames held; with no good pair it goes down. -/
def execLinkDegrade (link lane : Nat) (s : State) : Out :=
  s.run fun m =>
    if 12 ≤ link || 4 ≤ lane then .refused .noSuchUnit
    else
      let bad := (m.ylink link).bad ||| (1#4 <<< lane)
      let m1 := (m.modYlink link (fun x => { x with bad := bad }))
      let m2 := if pairGood bad false || pairGood bad true then m1.modYlink link (fun x => { x with st := .training, degrading := true, lanes := 2, since := m.now })
        else m1.downLink link
      gate m ((m.ylink link).carries && (m.ylink link).inUse lane)
        ((m2.logDev { RasRec.mk0 0x27 2 0 0 m.now with die := 0x80 + link / 6, place := link, status := stDegraded }).raisePf 1)

/-- No link trains in the recovery-only state, nor while INVASIVE holds in DEPLOYED (R505, R509). -/
def Mach.linksMayTrain (m : Mach) : Bool := !m.sec.recovery && !(m.sec.life == .deployed && m.sec.level == .invasive)

/-- LINK_UP (R418, R419, R498): training starts the key epochs and sequence numbers at 0; a degraded retraining keeps them and sends
the held frames again. DEDUCED: log 72. -/
def execLinkUp (link : Nat) (s : State) : Out :=
  s.run fun m =>
    if 12 ≤ link then .refused .noSuchUnit
    else
      let x := m.ylink link
      let keys := m.peersOn link
      let up := m.modYlink link (fun x => { x with st := .up, degrading := false })
      gate m (x.st == .training && m.linksMayTrain)
        (if x.degrading then keys.foldl (fun m k => m.resendAll k) up else keys.foldl (fun m k => m.modPeer k (fun _ => Peer.reset)) up)

/-- LINK_TRAINING_RETRY (R418): a further attempt every 100 ms. -/
def execLinkTrainingRetry (link : Nat) (s : State) : Out :=
  s.run fun m =>
    if 12 ≤ link then .refused .noSuchUnit
    else
      gate m ((m.ylink link).st == .training && decide ((m.ylink link).since + 100 * ms ≤ m.now)) (m.modYlink link (fun x => { x with since := m.now, fabric := if x.degrading then x.fabric else (m.vault.map (·.fabric)).getD 0 }))

/-- LINK_REFCLK_LOSS (R43): the six links of an X die go down. -/
def execLinkRefclkLoss (die : Nat) (s : State) : Out :=
  s.run fun m =>
    if 2 ≤ die then .refused .noSuchUnit
    else .next (((List.range 6).map (6 * die + ·)).foldl (fun m l => if (m.ylink l).st == .down then m else m.downLink l) m)

/-! LINK.* (R342, R418, R425, R426, R429, R499, R563). -/

/-- The checks of LINK.CONFIG, with the offset of the field that fails. DEDUCED: log 71. -/
def Mach.linkConfigBad (m : Mach) (c : Cmd) : Option Nat :=
  let l := c.f 0 1
  let id := c.f 4 4
  if 12 ≤ l then some 0
  else if 3 ≤ c.f 1 1 then some 1
  else if 2 ^ 17 ≤ id || (List.range 12).any (fun k => k != l && (m.ylink k).mode != 0 && m.links.devId != id) then some 4
  else none

/-- Sets a link to a mode: it goes down first and then trains, or stays down in mode 0 (R418); the setting is recorded (R563).
DEDUCED: log 71. -/
def Mach.configLink (m : Mach) (l mode port id : Nat) : Mach :=
  let m := if (m.ylink l).st == .down then m else m.downLink l
  let m := m.modYlink l (fun x =>
    { x with st := if mode = 0 then .down else .training, mode := mode, port := if port = 0 then 47931 else port, lanes := 4, bad := 0, degrading := false,
             since := m.now, fabric := (m.vault.map (·.fabric)).getD 0,
             pfx := if mode = 2 then (m.vault.map (·.pfx)).getD 0 else x.pfx })
  if mode = 0 then m else (m.modLinks (fun x => { x with devId := id })).electParent

/-- LINK.CONFIG with a mode that a row takes. -/
def linkConfig (fn : Fn) (ch : Nat) (pick : Nat → Bool) (s : State) : Out :=
  mci { opcode := 0x0C01, who := .m, fields := [(0, 1), (1, 1), (2, 2), (4, 4)], rlen := 0, pick := fun c => pick (c.f 1 1) } fn ch (fun m c =>
    match m.linkConfigBad c with
    | some o => invalid m o
    | none =>
      let m := m.configLink (c.f 0 1) (c.f 1 1) (c.f 2 2) (c.f 4 4)
      ok (m.modLinks (fun x => { x with recs := tins x.recs (c.f 0 1) (c.f 1 1, c.f 2 2, c.f 4 4) }))) s

/-- LINK_CONFIG_OFF (R418). -/
def execLinkConfigOff (fn : Fn) (ch : Nat) (s : State) : Out := linkConfig fn ch (· == 0) s

/-- LINK_CONFIG_YLP_DIRECT (R418). -/
def execLinkConfigYlpDirect (fn : Fn) (ch : Nat) (s : State) : Out := linkConfig fn ch (· == 1) s

/-- LINK_CONFIG_YLP_UDP (R418, R429, R499); it also answers an unassigned mode. -/
def execLinkConfigYlpUdp (fn : Fn) (ch : Nat) (s : State) : Out := linkConfig fn ch (fun n => decide (2 ≤ n)) s

/-- A route entry from its 32 bytes (Table 16.3). DEDUCED: log 73. -/
def routeEntry (b : List Byte) : Route :=
  let w := fieldAt b 0 2
  let x := fieldAt b 2 1
  { links := BitVec.ofNat 12 w, valid := x.testBit 0, dateline := x.testBit 1, isLocal := x.testBit 2, ip := BitVec.ofNat 128 (fieldAt b 16 16) }

/-- Writes `n` entries of a table from an ID. DEDUCED: log 73. -/
def putRoutes (t : Tbl Route) (id : Nat) (b : List Byte) (n : Nat) : Tbl Route :=
  (List.range n).foldl (fun t i => tput route0 t (id + i) (routeEntry (slice b (32 * i) 32))) t

/-- LINK_ROUTE_SET (R426, R563). -/
def execLinkRouteSet (fn : Fn) (ch : Nat) (s : State) : Out :=
  mci { opcode := 0x0C02, who := .m, fields := [(0, 4), (4, 4), (8, 8)], rlen := 0 } fn ch (fun m c =>
    let grp := decide (2 ^ 31 ≤ c.f 0 4)
    let id := c.f 0 4 % 2 ^ 31
    let n := c.f 4 4
    if (if grp then 4096 else 131072) < id + n then invalid m 0
    else
      match m.vread (spaceOf fn) (c.f 8 8) (32 * n) .read with
      | .waits m => .retry m
      | .fault => invalid m 8
      | .poisoned m => .now stPoisoned 0 [] m
      | .ok b m =>
        ok (m.modLinks (fun x =>
          if grp then { x with group := putRoutes x.group id b n, recGrp := putRoutes x.recGrp id b n }
          else { x with unicast := putRoutes x.unicast id b n, recUni := putRoutes x.recUni id b n }))) s

/-- LINK_STATUS (R342, R418). -/
def execLinkStatus (fn : Fn) (ch : Nat) (s : State) : Out :=
  mci { opcode := 0x0C03, who := .p, fields := [(0, 1)], rlen := 16 } fn ch (fun m c =>
    let x := m.ylink (c.f 0 1)
    if 12 ≤ c.f 0 1 then invalid m 0
    else
      .now stOk 0 (leBytes 1 (match x.st with | .down => 0 | .training => 1 | .up => 2) ++ leBytes 1 x.lanes ++ leBytes 2 0 ++ leBytes 4 x.retries ++
        leBytes 8 x.sent) m) s

/-! Tide across devices (R425, R441 to R443). -/

/-- A measured offset to the parent: it is applied, and 1 s within 20 ns locks. DEDUCED: log 74. -/
def Mach.measureTide (m : Mach) (offset : Int) : Mach :=
  let near := decide (offset.natAbs ≤ 20)
  m.modLinks (fun x =>
    let within := if near then (if x.within = 0 then m.now + 1 else x.within) else 0
    { x with err := offset, offset := x.offset + offset, within := within, locked := within != 0 && decide (within - 1 + sec1 ≤ m.now) })

/-- YLP_TIME (R425, R441, R442, R443). -/
def execYlpTime (link : Nat) (msg : TimeMsg) (s : State) : Out :=
  s.run fun m =>
    if 12 ≤ link then .refused .noSuchUnit
    else
      let src := match msg with | .announce src _ _ => src | .measure src _ => src
      let own := if src = m.links.devId then m.linkEvent 1 link 0 else m
      gate m ((m.ylink link).st == .up)
        (match msg with
        | .announce _ gm hops => (own.modLinks (fun x => { x with heard := tput 0 x.heard link (64 * (gm % 2 ^ 17) + hops % 64 + 1) })).electParent
        | .measure _ offset => if m.links.parent = link + 1 then own.measureTide offset else own)

/-- TIDE_PARENT_LINK_DOWN (R443). -/
def execTideParentLinkDown (s : State) : Out :=
  s.run fun m => gate m (m.links.parent != 0 && !(m.ylink (m.links.parent - 1)).carries) m.electParent

end Sys2Proof.Machine
end

