-- ==== Sys2Proof/Machine/Power.lean ====
section
/-! DEFINITION. Machine/Power.lean: the power controller: budgets, OP choice, the control segment, fast OP limits, droop, thermal
limits and the energy estimate (chapter 17, R32, R37, R38, R40, R44). -/

namespace Sys2Proof.Machine

/-! Operating points (Table 03.1). -/

/-- VCORE of an OP, mV. -/
def opMv (o : Nat) : Nat := nth 900 [550, 600, 650, 700, 750, 800, 850, 900] o

/-- The step at 75 degrees C of an OP, in units of 5 ps. -/
def step75 (o : Nat) : Nat := nth 125 [320, 256, 210, 180, 156, 142, 132, 125] o

/-! Fast OP limits (R454, R466, R468). -/

/-- The fast OP limit, plus 1, that the sources engaged give: OP0 for THROT_N and an excursion, OP2 for a restart. -/
def fastOf (src : BitVec 3) : Nat := if src.getLsbD 0 || src.getLsbD 1 then 1 else if src.getLsbD 2 then 3 else 0

/-- The bit of a source. -/
def fastBit : FastSrc → BitVec 3
  | .throt => 1
  | .excursion => 2
  | .restart => 4

/-- Engages the fast OP limit on one half (R454): pacing where the rail lies above the limit, a write of the sequencer, and no
firmware write above the limit remains.  A restart engages it on halves above OP2 only. -/
def Mach.engageHalf (m : Mach) (o : Nat) (src : FastSrc) (h : Nat) : Mach :=
  let x := m.half h
  if src == .restart && decide (x.set ≤ o) && decide (x.op ≤ o) then m
  else
    let bits := x.fastSrc ||| fastBit src
    let top := fastOf bits - 1
    let above := decide (top < x.set)
    let m := m.modPower (fun p => { p with vout := p.vout.filter (fun c => c.half != h || (!c.hw && decide (c.op ≤ top))) })
    let m := m.modHalf h (fun x =>
      { x with fastSrc := bits, fast := fastOf bits, paced := above || (x.changing != 0 && decide (top < x.old)), op := if x.dead then x.op else Nat.min x.op top })
    if above && !x.dead then m.modPower (fun p => { p with vout := p.vout ++ [{ half := h, op := top, hw := true, tries := 0 }] }) else m

/-- Orders the control segment: the sequencer's writes in ascending half, then the firmware's in their order (R453, R454). -/
def Mach.orderVout (m : Mach) : Mach :=
  m.modPower (fun p => { p with vout := sortBy (·.half) (p.vout.filter (·.hw)) ++ p.vout.filter (fun c => !c.hw) })

/-- Engages the fast OP limit on the halves of a mask (R454). -/
def Mach.engage (m : Mach) (o : Nat) (halves : Byte) (src : FastSrc) : Mach :=
  (((List.range 8).filter (fun h => halves.getLsbD h)).foldl (fun m h => m.engageHalf o src h) m).orderVout

/-- Releases a source of the fast OP limit on every half (R447, R466, R468). -/
def Mach.releaseFast (m : Mach) (src : FastSrc) : Mach :=
  (List.range 8).foldl (fun m h => m.modHalf h (fun x =>
    let bits := x.fastSrc &&& ~~~(fastBit src)
    { x with fastSrc := bits, fast := fastOf bits, paced := x.paced && fastOf bits != 0 })) m

/-- The device has power: a start is in progress or done. -/
def Mach.powered (m : Mach) : Bool := m.start.phase != .held

/-- FAST_OP_LIMIT (R454): a source that is in force engages its limit. -/
def execFastOpLimit (op : BitVec 3) (halves : Byte) (src : FastSrc) (s : State) : Out :=
  s.run fun m =>
    let due := match src with
      | .throt => !m.pins.throt && op == 0
      | .excursion => decide (1800000 < m.power.board) && op == 0
      | .restart => m.moon.restart != 0 && op == 2
    gate m (m.powered && due) (m.engage op.toNat halves src)

/-- THROT_N_FALL (R37, R454). -/
def execThrotNFall (s : State) : Out :=
  s.run fun m =>
    let m' := { m with pins := { m.pins with throt := false } }
    gate m m.pins.throt (if m.powered then m'.engage 0 0xFF .throt else m')

/-- THROT_N_RISE (R468). -/
def execThrotNRise (s : State) : Out :=
  s.run fun m => gate m (!m.pins.throt) (({ m with pins := { m.pins with throt := true } }).releaseFast .throt)

/-! The control segment (R32, R44, R453). -/

/-- A downward change that was written is not complete (R453). -/
def Mach.downPending (m : Mach) : Bool := (List.range 8).any (fun h => (m.half h).changing != 0 && decide ((m.half h).set < (m.half h).old))

/-- The write that the control segment takes next: the bus is free, Moon writes only while it serves (R466), and an upward
change waits for every downward change before it. -/
def Mach.nextVout (m : Mach) : Option VoutCmd :=
  if m.now < m.power.voutFree then none
  else
    match m.power.vout with
    | [] => none
    | c :: _ =>
      if !c.hw && !m.moonServes then none
      else if decide ((m.half c.half).set < c.op) && m.downPending then none
      else some c

/-- VOUT_COMMAND (R453): the front write occupies the bus for 40 us and the rail begins to slew. -/
def execVoutCommand (s : State) : Out :=
  s.run fun m =>
    match m.nextVout with
    | none => .next m
    | some c =>
      let m := m.modPower (fun p => { p with vout := p.vout.drop 1, voutFree := m.now + 40 * us })
      let m := m.modHalf c.half (fun x =>
        { x with old := if x.changing = 0 then x.old else x.set, set := c.op, changing := m.now + 1, movedAt := m.now + 1, statusTries := 0, statusAt := 0 })
      .next (m.emit (.vout c.half (opMv c.op)))

/-- The OPs that a half's change crosses. -/
def Half.crossed (x : Half) : Nat := if x.set < x.old then x.old - x.set else x.set - x.old

/-- OP_CHANGE_COMPLETE (R32, R453, R454): 10 us per OP crossed have passed and STATUS_VOUT reports no fault; pacing ends where
the rail is at or below the fast limit. -/
def execOpChangeComplete (half : Nat) (s : State) : Out :=
  s.run fun m =>
    if 8 ≤ half then .refused .noSuchUnit
    else
      let x := m.half half
      gate m (x.changing != 0 && decide (x.changing - 1 + 10 * us * x.crossed ≤ m.now) && decide (x.statusAt ≤ m.now))
        (m.modHalf half (fun x => { x with changing := 0, movedAt := m.now + 1, old := x.set, paced := x.paced && decide (x.fast - 1 < x.set) }))

/-- A VCORE controller that acknowledges nothing after three retries (R44): the rail is held at its set point, logged as unresponsive,
and asserts ALERT_N; no further write is made to it. -/
def Mach.railDead (m : Mach) (h : Nat) : Mach :=
  let m := m.modPower (fun p => { p with vout := p.vout.filter (fun d => d.half != h) })
  let m := m.modHalf h (fun x => { x with dead := true, op := x.set, changing := 0, old := x.set })
  (m.modRas (fun r => { r with direct := r.direct ||| 2 })).eventAt 0x32 4 (h / 2) h 0

/-- Half `h`'s read of STATUS_VOUT, which ends a change, is due (R32). -/
def Mach.statusDue (m : Mach) (h : Nat) : Bool :=
  let x := m.half h
  x.changing != 0 && !x.dead && decide (x.changing - 1 + 10 * us * x.crossed ≤ m.now) && decide (x.statusAt ≤ m.now)

/-- CONTROL_PORT_NO_ACK (R32, R44): the port's next transaction is not acknowledged: the write of VOUT_COMMAND that is next, else the read of
STATUS_VOUT that is due, of the lowest half (DEDUCED, log 100).  Three retries 100 us apart follow. -/
def execControlPortNoAck (s : State) : Out :=
  s.run fun m =>
    match m.nextVout, (List.range 8).find? m.statusDue with
    | some c, _ =>
      .next (if c.tries < 3 then
          m.modPower (fun p => { p with vout := { c with tries := c.tries + 1 } :: p.vout.drop 1, voutFree := m.now + 100 * us })
        else m.railDead c.half)
    | none, some h =>
      .next (if (m.half h).statusTries < 3 then m.modHalf h (fun x => { x with statusTries := x.statusTries + 1, statusAt := m.now + 100 * us })
        else m.railDead h)
    | none, none => .next m

/-! Budgets (R444, R445, R449, R450, R456, R457). -/

/-- The mirror was refreshed within 1 ms, no rail of it is STALE, and metering is available (R469, R475). -/
def Mach.mirrorFresh (m : Mach) : Bool :=
  m.meterOk && decide (m.now < m.cres.mirrorAt + ms) && (List.range 24).all (fun r => !(m.cres.railMirror r).stale)

/-- The figures of a period in mW: each half's power, and fixed power (R444, R445); from the estimate times 1.1 while the mirror
is not refreshed (R469). -/
def Mach.figures (m : Mach) : List Nat × Nat :=
  if m.power.stale || !m.mirrorFresh then ((List.range 8).map (fun h => Config.powerModel h m.free * 11 / 10), Config.powerModel 8 m.free * 11 / 10)
  else ((List.range 8).map (fun r => (m.cres.railMirror r).power), total ((List.range 16).map (fun i => (m.cres.railMirror (8 + i)).power)) + 5800)

/-- The weight of a partition (R449 step 3). -/
def Mach.weight (m : Mach) (p : Nat) : Nat :=
  match tget 0 m.power.shares (0x40 + p) with
  | 0 => 1024 * (m.clustersOf p).length
  | w => w

/-- The tag of a partition's interval (R456): 0 idle, 1 prefill, 2 decode, 3 collective. -/
def Mach.phaseTag (m : Mach) (p : Nat) : Nat :=
  let q := m.part p
  let grew := fun i => tget 0 q.acct i - tget 0 q.learn.last i
  if grew 0 = 0 then 0
  else if q.sb.ranStep then (if q.sb.ranPrefill then 1 else 2)
  else if grew 2 + grew 3 ≤ 4 * (grew 4 + grew 5) then 3
  else 1

/-- A transition's count, saturating at 255: every count is halved when one saturates (R457). -/
def countTrans (t : Tbl Nat) (from_ next : Nat) : Tbl Nat :=
  let t := tput 0 t (4 * from_ + next) (tget 0 t (4 * from_ + next) + 1)
  if 255 ≤ tget 0 t (4 * from_ + next) then (tmap t (· / 2)).filter (fun e => e.2 != 0) else t

/-- The observed power of a partition in the interval, scaled to OP7 and per cluster, mW (R457).  The OP is that of the half of
its lowest cluster. -/
def Mach.observed (m : Mach) (p : Nat) : Nat :=
  let q := m.part p
  let o := (m.half (halfOfCluster (firstBit q.clusters))).op
  let mw := 10 * (tget 0 q.acct 10 - tget 0 q.learn.last 10)
  mw * 900 * 900 * step75 o / (opMv o * opMv o * 125) / (m.clustersOf p).length

/-- The end of a partition's phase interval (R456, R457); a step in progress runs in the next interval too. -/
def Mach.learnPart (m : Mach) (p : Nat) : Mach :=
  let tag := m.phaseTag p
  let obs := m.observed p
  m.modPart p (fun q =>
    let l := q.learn
    let d := tget 0 l.demand tag
    let d' := ((d : Int) + ((obs : Int) - d) / 8).toNat
    { q with
      sb := { q.sb with ranStep := q.sb.running, ranPrefill := q.sb.running && q.sb.list.any (fun w => decide (1 < w.count)) },
      learn := { trans := if l.tag = 0 then l.trans else countTrans l.trans (l.tag - 1) tag, demand := tput 0 l.demand tag d',
                 tagged := Nat.min 64 (l.tagged + 1), tag := tag + 1,
                 last := [0, 2, 3, 4, 5, 10].foldl (fun t i => tput 0 t i (tget 0 q.acct i)) [] } })

/-- The most counted successor of a partition's tag, the tag itself on a tie (R457). -/
def Learner.successor (l : Learner) : Nat :=
  let tag := l.tag - 1
  let c := fun next => tget 0 l.trans (4 * tag + next)
  let top := Nat.max (Nat.max (c 0) (c 1)) (Nat.max (c 2) (c 3))
  match (List.range 4).filter (fun next => c next == top) with
  | [x] => x
  | _ => tag

/-- The partitions' budgets in nW (R449 step 3, R457). DEDUCED: log 100. -/
def Mach.partBudgets (m : Mach) (rem : Int) : List (Nat × Int) :=
  let ps := m.existing
  let sum : Int := total (ps.map m.weight)
  let share := fun p => if sum = 0 then 0 else rem * m.weight p / sum
  let learned := ps.filter (fun p => (m.part p).learn.tagged == 64)
  if !m.power.learner then ps.map (fun p => (p, share p))
  else
    let fresh := ps.filter (fun p => (m.part p).learn.tagged != 64)
    let rem' := rem - (fresh.map share).foldl (· + ·) 0
    let flr := fun p => share p / 2
    let want := fun p =>
      let l := (m.part p).learn
      let d : Int := 1000000 * tget 0 l.demand l.successor * (m.clustersOf p).length
      if d < flr p then flr p else d
    let pool := rem' - (learned.map flr).foldl (· + ·) 0
    let extra := (learned.map (fun p => want p - flr p)).foldl (· + ·) 0
    let lw : Int := total (learned.map m.weight)
    fresh.map (fun p => (p, share p)) ++ learned.map (fun p =>
      (p, if extra ≤ pool then want p + (if lw = 0 then 0 else (pool - extra) * m.weight p / lw)
          else flr p + (if extra = 0 then 0 else pool * (want p - flr p) / extra)))

/-- Each half's budget in nW (R449 steps 2 to 5). DEDUCED: log 100. -/
def Mach.halfBudgets (m : Mach) (bComp : Int) : List Int :=
  let gated := (List.range 64).countP (fun c => (m.clu c).owner == 0)
  let bs := m.partBudgets (bComp - 500000000 * gated)
  let ofCluster := fun c =>
    let p := (m.clu c).owner
    if p = 0 then (500000000 : Int)
    else
      match bs.find? (fun e => e.1 == p) with
      | some e => e.2 / (m.clustersOf p).length
      | none => 0
  (List.range 8).map (fun h =>
    let b := ((List.range 8).map (fun i => ofCluster (8 * h + i))).foldl (· + ·) 0
    match tget 0 m.power.shares h with
    | 0 => b
    | v => if v * bComp / 65536 < b then v * bComp / 65536 else b)

/-! Choosing the OP (R451, R452). -/

/-- An OP is admissible for a half at OP `c` with power `p` and leakage `leak`, in mW, and a budget in nW (R451): the predicted
power fits the budget and 200 A. -/
def admissible (c o p leak : Nat) (budget : Int) : Bool :=
  let vo : Int := opMv o
  let vc : Int := opMv c
  let so : Int := step75 o
  let sc : Int := step75 c
  let num := leak * vo * vc * so + ((p : Int) - leak) * vo * vo * sc
  decide (num * 1000000 ≤ budget * vc * vc * so) && decide (num ≤ 200 * vo * vc * vc * so)

/-- The highest OP at or below `top` that a test admits, else 0. -/
def highest (ok : Nat → Bool) : Nat → Nat
  | 0 => 0
  | o + 1 => if ok (o + 1) then o + 1 else highest ok o

/-- A half's change is in progress, or its write waits. -/
def Mach.changingHalf (m : Mach) (h : Nat) : Bool := (m.half h).changing != 0 || m.power.vout.any (fun c => c.half == h)

/-- The period's choice for one half: its registers, and its write where the OP changes (R452). -/
def Mach.chooseOp (m : Mach) (h p leak tj : Nat) (budget : Int) : Mach :=
  let x := m.half h
  let ok := fun o => admissible x.op o p leak budget
  let cap := highest ok 7
  let top := Nat.min (m.hwLimit h) (if m.changingHalf h then x.op else Nat.min 7 (x.op + 1))
  let target := highest ok top
  let m := m.modHalf h (fun x =>
    { x with budget := Nat.min 65535 (budget / 100000000).toNat, power := Nat.min 65535 (p / 100), tj := tj, leak := leak,
             limit := cap, capLimited := decide (cap < m.hwLimit h) })
  if x.dead || target == x.op then m
  else
    (m.modHalf h (fun x => { x with op := target })).modPower (fun q =>
      { q with vout := q.vout.filter (fun c => c.half != h || c.hw) ++ [{ half := h, op := target, hw := false, tries := 0 }] })

/-- Puts the period's new writes in order: downward changes before upward ones, after the writes that were waiting (R453). -/
def Mach.sortVout (m : Mach) (before : List VoutCmd) : Mach :=
  m.modPower (fun q =>
    let old := q.vout.filter (fun c => before.contains c)
    let new := q.vout.filter (fun c => !before.contains c)
    let down := fun c => decide (c.op < (m.half c.half).set)
    { q with vout := old ++ new.filter down ++ new.filter (fun c => !down c) })

/-- A half's thermal limit at a period: one OP lower at 95 degrees C or more (R462). -/
def Mach.throttleHalf (m : Mach) (h tj : Nat) : Mach :=
  if 95 ≤ tj then m.modHalf h (fun x => { x with thermal := x.thermal - 1, thermalAt := m.now }) else m

/-- The 10 ms average of board power exceeds the cap (R446, R455). -/
def Power.overCap (p : Power) : Bool := p.hist.length == 100 && decide (p.cap * 1000 * 100 < total p.hist)

/-- The 10 ms average of board power is below 95 % of the cap (R455). -/
def Power.belowCap (p : Power) : Bool := p.hist.length == 100 && decide (100 * total p.hist < 95 * p.cap * 1000 * 100)

/-- A control period (R444 to R457, R462, R466, R469). -/
def Mach.period (m : Mach) (sense : PowerSense) : Mach :=
  let fresh := m.mirrorFresh
  let m := if !m.power.stale && !fresh then (m.modPower (fun p => { p with stale := true })).event (Config.rasCode 4).1 (Config.rasCode 4).2 else m
  let m := if m.power.stale && fresh then (m.modPower (fun p => { p with stale := false })).event (Config.rasCode 5).1 (Config.rasCode 5).2 else m
  let m := m.modPower (fun p => { p with cap := p.capNext, learner := p.learnerNext, shares := p.sharesNext, periodAt := m.now + 1 })
  let fig := m.figures
  let m := if m.power.stale || !fresh then m.bumpFree else m
  let board := total fig.1 + fig.2
  let m := m.modPower (fun p => { p with board := board, hist := (board :: p.hist).take 100 })
  let m := m.releaseFast .restart
  let m := if 1800000 < board then (m.engage 0 0xFF .excursion).event (Config.rasCode 3).1 (Config.rasCode 3).2 else m.releaseFast .excursion
  let m := m.existing.foldl (fun m p => m.learnPart p) m
  let m := (List.range 8).foldl (fun m h => m.throttleHalf h (nth 0 sense.tj h)) m
  let budgets := m.halfBudgets ((m.power.cap : Int) * 1000000000 - (fig.2 : Int) * 1000000)
  let before := m.power.vout
  let m := (List.range 8).foldl (fun m h => m.chooseOp h (nth 0 fig.1 h) (nth 0 sense.leak h) (nth 0 sense.tj h) (nth 0 budgets h)) m
  let m := (m.sortVout before).orderVout
  let atZero := (List.range 8).any (fun h => (m.half h).op == 0)
  m.modPower (fun p => { p with capHalf := if p.capHalf then !p.belowCap else atZero && p.overCap })

/-- CONTROL_PERIOD (R452): every 100 us of Tide, while Moon serves. -/
def execControlPeriod (sense : PowerSense) (s : State) : Out :=
  s.run fun m =>
    gate m (m.up && m.moonServes && (m.power.periodAt == 0 || decide (m.power.periodAt - 1 + 100 * us ≤ m.now))) (m.serviceWdog.period sense)

/-! Droop (R459 to R461). -/

/-- The set point of a half: the lower of the old and the new OP voltage while a change is in progress (R459), mV. -/
def Half.setPoint (x : Half) : Nat := opMv (if x.changing = 0 then x.set else Nat.min x.old x.set)

/-- DROOP_WARNING (R460): VCORE falls below 94 % of the set point; a dip within the hold keeps the hold's limit. -/
def execDroopWarning (half : Nat) (mv : BitVec 16) (s : State) : Out :=
  s.run fun m =>
    if 8 ≤ half then .refused .noSuchUnit
    else
      let x := m.half half
      gate m (m.powered && decide (100 * mv.toNat < 94 * x.setPoint))
        (m.modHalf half (fun x =>
          if x.below then { x with dMin := Nat.min x.dMin mv.toNat }
          else { x with below := true, halved := true, fellAt := m.now, dMin := mv.toNat, dCount := Nat.min 65535 (x.dCount + 1),
                        hold := if x.hold = 0 then x.op - 1 + 1 else x.hold }))

/-- DROOP_HALVING_END (R460): VCORE has been above the warning level for 1 us; the event goes to Crescent, and to a RAS record whose detail
is the minimum voltage in mV and the duration in ns (DESIGN CHOICE: log 13). -/
def execDroopHalvingEnd (half : Nat) (s : State) : Out :=
  s.run fun m =>
    if 8 ≤ half then .refused .noSuchUnit
    else
      let x := m.half half
      let dur := m.now - us - x.fellAt
      gate m (x.below && decide (x.fellAt + us ≤ m.now))
        (((m.modHalf half (fun x => { x with below := false, halved := false, recovered := m.now - us, dDur := Nat.min 65535 dur })).logDev
            { RasRec.mk0 0x30 4 0 0 m.now with die := half / 2, place := half, detail := leBytes 2 x.dMin ++ leBytes 18 dur }).modPower (fun p => { p with droops := p.droops ++ [(half, x.dMin, dur, x.fellAt)] }))

/-- DROOP_HOLD_END (R460): 1 ms after VCORE recovered. -/
def execDroopHoldEnd (half : Nat) (s : State) : Out :=
  s.run fun m =>
    if 8 ≤ half then .refused .noSuchUnit
    else
      let x := m.half half
      gate m (x.hold != 0 && !x.below && decide (x.recovered + ms ≤ m.now)) (m.modHalf half (fun x => { x with hold := 0 }))

/-- Resets a compute die (R461): its cores, slices, RLCs and directories lose what they hold. -/
def Mach.resetDie (m : Mach) (d : Nat) : Mach :=
  let m := (List.range 16).foldl (fun m i =>
    let c := 16 * d + i
    ((m.blocksOfCluster c).foldl (fun m b => m.freeBlock b) m).quiesceCluster c) m
  m.modMem (fun a => { a with llc := a.llc.filter (fun e => sliceOf e.1 / 32 != d), dir := a.dir.filter (fun e => homeDie e.1 != d),
                              rlc := a.rlc.filter (fun e => e.1 % 8 / 2 != d) })

/-- DROOP_RESET (R461). -/
def execDroopReset (half : Nat) (s : State) : Out :=
  s.run fun m => if 8 ≤ half then .refused .noSuchUnit else gate m m.powered ((m.resetDie (half / 2)).fatal .droop)

/-! Thermal control (R462 to R464). -/

/-- THERMAL_LIMIT_RISE (R462): one OP each 1 ms at 92 degrees C or less. -/
def execThermalLimitRise (half : Nat) (s : State) : Out :=
  s.run fun m =>
    if 8 ≤ half then .refused .noSuchUnit
    else
      let x := m.half half
      gate m (decide (x.tj ≤ 92) && decide (x.thermal < 7) && decide (x.thermalAt + ms ≤ m.now))
        (m.modHalf half (fun x => { x with thermal := x.thermal + 1, thermalAt := m.now }))

/-- HBM_THERMAL_LIMIT (R463): half bandwidth from 95 degrees C, lifted at 90 or less. -/
def execHbmThermalLimit (stack temp : Nat) (s : State) : Out :=
  s.run fun m =>
    if 8 ≤ stack then .refused .noSuchUnit
    else gate m m.powered (m.modMem (fun a =>
      { a with stackHalf := if 95 ≤ temp then a.stackHalf ||| (1#8 <<< stack) else if temp ≤ 90 then a.stackHalf &&& ~~~(1#8 <<< stack) else a.stackHalf }))

/-- THERMTRIP (R37, R40, R464): the pin is latched, issue stops on every core, the fatal error is recorded and no warm reset
follows. -/
def execThermtrip (s : State) : Out :=
  s.run fun m =>
    let m' := { m with pins := { m.pins with thermtrip := false } }
    let m2 := (m'.modPower (fun p => { p with tripped := true })).fatalRecord .thermal
    gate m m.pins.thermtrip (if m.powered then m2.functions.foldl (fun m f => m.logAer f 3) m2 else m')

/-! Estimates (R465, R469). -/

/-- What the on-die model forms for a partition, or for what is attributed to none (0), before it is scaled (R465 steps 1 to 3). -/
def Mach.rawEnergy (m : Mach) (p : Nat) : Nat :=
  Config.energyModel m.free (p :: (List.range 9).map (fun i => tget 0 (m.part p).acct i) ++
    (m.clustersOf p).flatMap (fun c => [(m.half (halfOfCluster c)).op, (m.half (halfOfCluster c)).tj]))

/-- An energy scaled so that the device total is the measured energy of the 24 metered rails in 100 us, in uJ (R465 step 4); not scaled
while the mirror is not fresh (R469).  DESIGN CHOICE: log 11. -/
def Mach.scaledEnergy (m : Mach) (raw : Nat) : Nat :=
  let whole := total (m.existing.map m.rawEnergy) + m.rawEnergy 0
  let measured := total ((List.range 24).map (fun r => (m.cres.railMirror r).power)) / 10
  if m.power.stale || !m.mirrorFresh || whole = 0 then raw else raw * measured / whole

/-- ENERGY_ESTIMATE_UPDATE (R465): each partition's energy of the period in uJ. -/
def execEnergyEstimateUpdate (s : State) : Out :=
  s.run fun m =>
    gate m (m.up && decide (m.power.estimateAt + 100 * us ≤ m.now))
      (m.existing.foldl (fun t p => t.account p 10 (m.scaledEnergy (m.rawEnergy p)))
        (m.modPower (fun p => { p with estimateAt := m.now })).bumpFree)

/-- MIRROR_STALE (R41, R469): the controller begins to use the estimate. -/
def execMirrorStale (s : State) : Out :=
  s.run fun m =>
    gate m (m.up && m.moonServes && !m.power.stale && !m.mirrorFresh)
      ((m.modPower (fun p => { p with stale := true })).event (Config.rasCode 4).1 (Config.rasCode 4).2)

/-! Commands (R446, R448, R450). -/

/-- PWR_CAP (R446, R448). -/
def execPwrCap (fn : Fn) (ch : Nat) (s : State) : Out :=
  mci { opcode := 0x0701, who := .m, fields := [(0, 2)], rlen := 0 } fn ch (fun m c =>
    if c.f 0 2 < 600 ∨ 1500 < c.f 0 2 then invalid m 0 else ok (m.modPower (fun p => { p with capNext := c.f 0 2 }))) s

/-- PWR_MODE (R448, R457). -/
def execPwrMode (fn : Fn) (ch : Nat) (s : State) : Out :=
  mci { opcode := 0x0702, who := .m, fields := [(0, 1)], rlen := 0 } fn ch (fun m c =>
    if 1 < c.f 0 1 then invalid m 0 else ok (m.modPower (fun p => { p with learnerNext := c.f 0 1 == 1 }))) s

/-- The entries of a share table as (TARGET, VALUE), none where R450 refuses it. DEDUCED: log 91. -/
def shareTable (d : List Byte) (n : Nat) : Option (Tbl Nat) :=
  (List.range n).foldl (fun acc i =>
    match acc with
    | none => none
    | some (seen, t) =>
      let target := fieldAt d (4 * i) 1
      let v := fieldAt d (4 * i + 2) 2
      let isHalf := decide (target < 8)
      let isPart := decide (0x41 ≤ target) && decide (target ≤ 0x80)
      if !(isHalf || isPart) || seen.contains target || !zeroAt d (4 * i + 1) 1 || (isPart && v == 0) then none
      else some (target :: seen, tput 0 t target v)) (some (([] : List Nat), ([] : Tbl Nat))) |>.map (·.2)

/-- PWR_SHARE (R448, R450). DEDUCED: log 91. -/
def execPwrShare (fn : Fn) (ch : Nat) (s : State) : Out :=
  mci { opcode := 0x0703, who := .m, fields := [(0, 8), (8, 2)], rlen := 0 } fn ch (fun m c =>
    let n := c.f 8 2
    if n = 0 ∨ 72 < n then invalid m 8
    else
      match m.vread (spaceOf fn) (c.f 0 8) (4 * n) .read with
      | .ok d m =>
        match shareTable d n with
        | some t => ok (m.modPower (fun p => { p with sharesNext := t }))
        | none => invalid m 0
      | .fault => invalid m 0
      | .poisoned m => .now stPoisoned 0 [] m
      | .waits m => .retry m) s

/-- PWR_QUERY (R444): cap, mode, OPs and measured board power. -/
def execPwrQuery (fn : Fn) (ch : Nat) (s : State) : Out :=
  mci { opcode := 0x0704, who := .p, fields := [], rlen := 16 } fn ch (fun m _ =>
    .now stOk 0 (leBytes 2 m.power.cap ++ leBytes 1 m.power.learner.toNat ++ leBytes 1 0 ++
      (List.range 8).flatMap (fun h => leBytes 1 (m.half h).op) ++ leBytes 4 m.power.board) m) s

end Sys2Proof.Machine
end

