-- ==== Sys2Proof/Machine/Vault.lean ====
section
/-! DEFINITION. Machine/Vault.lean: the key vault, its update, and what an interrupted one leaves (R491, R501 to R505, R516). -/

namespace Sys2Proof.Machine

/-- The length of a signer block (Table 19.8). -/
def signerLen : Nat := 7412

/-- A signed object is valid: its keys hash to the fused hash and both signatures verify over the bytes before the block (R491). -/
def signedBy (hash : BitVec 384) (body block : List Byte) : Bool :=
  sha384w (block.take 2689) == hash && Config.verifies (block.take 2689) body (block.drop 2689)

/-! The key vault (R501 to R505). -/

/-- The valid slot with the higher generation: 1 A, 2 B, 0 none (R504). -/
def Sec.best (s : Sec) : Nat :=
  if s.vaultA.valid && (!s.vaultB.valid || decide (s.vaultB.gen ≤ s.vaultA.gen)) then 1 else if s.vaultB.valid then 2 else 0

/-- Slot 1 A, 2 B; 0 is an empty one. -/
def Sec.slot (s : Sec) (i : Nat) : VaultSlot := if i = 1 then s.vaultA else if i = 2 then s.vaultB else VaultSlot.reset

/-- Length of a key-update package (R503). -/
def packageLen : Nat := 7668

/-- The package is laid out as Table 19.7 has it. -/
def packageShape (p : List Byte) : Bool :=
  fieldAt p 0 4 == 0x554B5048 && fieldAt p 4 2 == 0x0100 && decide (fieldAt p 6 2 < 8) && zeroAt p 129 3 && zeroAt p 232 24

/-- A slot with a package's records in it (R502). -/
def VaultSlot.update (old : VaultSlot) (gen mask : Nat) (r : List Byte) : VaultSlot :=
  { gen := gen, valid := true,
    fabric := if mask % 2 = 1 then BitVec.ofNat 256 (fieldAt r 0 32) else old.fabric,
    mig := if mask / 2 % 2 = 1 then BitVec.ofNat 256 (fieldAt r 32 32) else old.mig,
    migPrev := if mask / 2 % 2 = 1 then old.mig else old.migPrev,
    pfx := if mask / 4 % 2 = 1 then BitVec.ofNat 64 (fieldAt r 64 8) else old.pfx }

/-- Writes the other slot; it is in use from then on unless the keys are unloaded, or the recovery-only state ends by a warm
reset 1 ms later (R502, R505). DEDUCED: log 47. DESIGN CHOICE: log 104. -/
def Mach.updateVault (m : Mach) (gen mask : Nat) (r : List Byte) : Mach :=
  let b := m.sec.best
  let v := (m.sec.slot b).update gen mask r
  let m := m.modSec (fun x =>
    let x := if b = 1 then { x with vaultB := v } else { x with vaultA := v }
    { x with loaded := if x.loaded = 0 then 0 else if b = 1 then 2 else 1 })
  if m.sec.recovery then m.scheduleWarm ms else m

/-- What SEC.KEY_UPDATE answers (R502, R503, R505). -/
def Mach.keyUpdate (m : Mach) (fn : Fn) (c : Cmd) : Ans :=
  if m.sec.life != .deployed then .now stDenied 0 [] m
  else if c.f 8 4 != packageLen then invalid m 8
  else
    match m.vread (spaceOf fn) (c.f 0 8) packageLen .read with
    | .ok p m =>
      let gen := fieldAt p 8 8
      let least := if m.sec.recovery then 0 else (m.sec.slot m.sec.best).gen
      if !packageShape p then invalid m 0
      else if fieldAt p 16 16 != m.sec.serial.toNat || gen ≤ least || !signedBy m.sec.owner (p.take 256) (p.drop 256) then .now stDenied 0 [] m
      else
        match Config.openKeyPackage (p.take 256) with
        | some r => ok (m.updateVault gen (fieldAt p 6 2) r)
        | none => .now stDenied 0 [] m
    | .fault => invalid m 0
    | .poisoned m => .now stPoisoned 0 [] m
    | .waits m => .retry m

/-- The row of SEC.KEY_UPDATE in Table 13.4. -/
def keyUpdateRow : MciRow := { opcode := 0x0A01, who := .m, fields := [(0, 8), (8, 4)], rlen := 0 }

/-- SEC_KEY_UPDATE (R502, R503, R505). -/
def execSecKeyUpdate (fn : Fn) (ch : Nat) (s : State) : Out :=
  mci keyUpdateRow fn ch (fun m c => m.keyUpdate fn c) s

/-- The vault as it stands when the update that a channel of the port 0 physical function has asked for is done, if Moon may be at work on one. -/
def Mach.updateUnderWay (m : Mach) (ch : Nat) : Option Sec :=
  if !m.mayTake (.pf 0) ch then none
  else
    match m.peek (chanKey (.pf 0) ch) with
    | .cmd c m1 =>
      if c.opcode != keyUpdateRow.opcode || m.stateDenies keyUpdateRow.opcode || (keyUpdateRow.malformed c).isSome then none
      else
        match m1.keyUpdate (.pf 0) c with
        | .now st _ _ m2 => if st = stOk then some m2.sec else none
        | _ => none
    | _ => none

/-- The slot that an update writes has been erased, and its commit word is not written (R502). -/
def Sec.erased (x : Sec) : Sec := if x.best = 1 then { x with vaultB := VaultSlot.reset } else { x with vaultA := VaultSlot.reset }

/-- What a power failure or a firmware restart leaves of a key update that Moon may be at work on (R502, R504, R516): it has not begun, the other
slot is erased, or all of it is written.  Which is a free value (log 104). -/
def Mach.tornUpdate (m : Mach) : Mach :=
  match (List.range 8).findSome? m.updateUnderWay with
  | none => m
  | some done_ =>
    let m' := m.bumpFree
    if Config.choice m.free % 3 = 0 then m'
    else if Config.choice m.free % 3 = 1 then m'.modSec Sec.erased
    else m'.modSec (fun _ => done_)

end Sys2Proof.Machine
end

