-- ==== Sys2Proof/Machine/Moon.lean ====
section
/-! DEFINITION. Machine/Moon.lean: the Moon complex: exceptions, lock-up and watchdog, firmware restarts, firmware slots and the
firmware commands (R333, R335 to R341, R458, R466, R492 to R495, R547, R553). -/

namespace Sys2Proof.Machine

/-! Exceptions (R335, R336). -/

/-- A Moon core. -/
def Mach.mcore (m : Mach) (c : Nat) : MoonCore := tget MoonCore.reset m.moon.cores c
def Mach.setMcore (m : Mach) (c : Nat) (x : MoonCore) : Mach := m.modMoon (fun a => { a with cores := tput MoonCore.reset a.cores c x })

/-- The eight words of an exception frame, in order of increasing address (R335). -/
def MoonCore.frame (x : MoonCore) (cause addr : DWord) : List DWord := [x.pc, x.status, cause, addr, x.sp] ++ x.scratch

/-- The checks before the push: alignment, the bounds of the current mode, and the core's memory protection (R335). -/
def MoonCore.mayPush (x : MoonCore) (writable : Bool) : Bool :=
  let low := if x.task then x.tLow else x.kLow
  let high := if x.task then x.tHigh else x.kHigh
  decide (x.sp.toNat % 16 = 0) && decide (low.toNat + 64 ≤ x.sp.toNat) && decide (x.sp.toNat ≤ high.toNat) && writable

/-- Exception entry on a core (R335, R336). DESIGN CHOICE: log 92. DEDUCED: log 101. -/
def Mach.moonException (m : Mach) (c : Nat) (cause addr : DWord) (writable : Bool) : Mach :=
  let x := m.mcore c
  if x.emerg then m.setMcore c { x with locked := true }
  else if x.mayPush writable then
    let sp := x.sp - 64
    let m := m.modMoon (fun a => { a with sram := putBytes a.sram sp.toNat ((x.frame cause addr).flatMap (fun w => leBytes 8 w.toNat)) })
    m.setMcore c { x with sp := sp, pc := Config.moonVector cause }
  else
    m.setMcore c { x with shadow := x.frame cause addr, sp := (Config.moonDouble c).2, emerg := true, pc := (Config.moonDouble c).1 }

/-- The Moon firmware runs: phase 2 has started it and no restart is in progress. -/
def Mach.moonRuns (m : Mach) : Bool :=
  m.moon.restart == 0 &&
    match m.start.phase with
    | .run n => decide (3 ≤ n)
    | .ready => true
    | .outOfService => true
    | _ => false

/-- A core with the registers of a frame: the PC, the status, the old SP and the scratch registers. -/
def MoonCore.ofFrame (x : MoonCore) (f : List DWord) : MoonCore :=
  { x with pc := nth 0 f 0, status := nth 0 f 1, sp := nth 0 f 4, scratch := [nth 0 f 5, nth 0 f 6, nth 0 f 7] }

/-- The return from a handler (R336): that of the double-fault handler takes the shadow frame and clears EMERG; any other pops its frame.
DESIGN CHOICE: log 92. -/
def Mach.moonReturn (m : Mach) (c : Nat) : Mach :=
  let x := m.mcore c
  if x.emerg then m.setMcore c { x.ofFrame x.shadow with emerg := false }
  else m.setMcore c (x.ofFrame ((List.range 8).map (fun i =>
    BitVec.ofNat 64 (ofLe ((List.range 8).map (fun j => tget 0 m.moon.sram (x.sp.toNat + 8 * i + j)))))))

/-- MOON_EXCEPTION_ENTRY (R335, R336): the entry, or the return that ends one. DESIGN CHOICE: log 92. -/
def execMoonExceptionEntry (core : Nat) (cause faultAddr : DWord) (kind : MoonTrap) (s : State) : Out :=
  s.run fun m =>
    if 4 ≤ core then .refused .noSuchUnit
    else gate m (m.moonRuns && !(m.mcore core).locked) (match kind with
      | .ret => m.moonReturn core
      | .entry writable => m.moonException core cause faultAddr writable)

/-! Firmware slots (R492 to R495). -/

/-- A slot: A, or B. -/
def Moon.slot (a : Moon) (b : Bool) : FwSlot := if b then a.slotB else a.slotA
def Moon.setSlot (a : Moon) (b : Bool) (x : FwSlot) : Moon := if b then { a with slotB := x } else { a with slotA := x }

/-- The boot ROM's choice of a slot (R492), with the slots as it leaves them: a trial slot it has booted and that was not
confirmed becomes plain and is not booted. -/
def Moon.romChoose (a : Moon) (minSvn : Nat) : Moon × Option Bool :=
  let stale := fun b => (a.slot b).pref == .trial true
  let a1 := [false, true].foldl (fun (x : Moon) b => if stale b then x.setSlot b { x.slot b with pref := .plain } else x) a
  let ok := fun b => (a1.slot b).valid && decide (minSvn ≤ (a1.slot b).svn.toNat) && !stale b
  match [false, true].find? (fun b => ok b && (a1.slot b).pref == .trial false) with
  | some b => (a1.setSlot b { a1.slot b with pref := .trial true }, some b)
  | none =>
    match [false, true].find? (fun b => ok b && (a1.slot b).pref == .preferred) with
    | some b => (a1, some b)
    | none =>
      match [false, true].filter ok with
      | [] => (a1, none)
      | [b] => (a1, some b)
      | _ => (a1, some (decide (a1.slotA.svn.toNat < a1.slotB.svn.toNat)))

/-- Extends a measurement register (R495). -/
def Mach.extend (m : Mach) (i : Nat) (bytes : List Byte) : Mach :=
  m.modSec (fun x => { x with meas := tput 0 x.meas i (sha384w (hashBytes (tget 0 x.meas i) ++ bytes)) })

/-- Registers 2 and 3 from zero, for the image that runs (R495). -/
def Mach.measureFw (m : Mach) : Mach :=
  let x := m.moon.slot m.moon.runsB
  let m := m.modSec (fun a => { a with meas := tput 0 (tput 0 a.meas 2 0) 3 0 })
  (m.extend 2 (hashBytes x.digest)).extend 3 (leBytes 4 x.svn.toNat ++ Config.fwConfig)

/-- Boots a slot by the ROM's choice; whether one was valid. -/
def Mach.romBoot (m : Mach) : Mach × Bool :=
  let r := m.moon.romChoose m.sec.minSvn
  match r.2 with
  | some b => (({ m with moon := { r.1 with runsB := b } }).measureFw, true)
  | none => ({ m with moon := r.1 }, false)

/-- The firmware confirms a trial image (R493): it becomes preferred and the other slot plain, and the fused minimum rises where
its header sets COMMIT_SVN (R492). -/
def Mach.confirmFw (m : Mach) : Mach :=
  let x := m.moon.slot m.moon.runsB
  if x.pref == .trial true then
    let m := m.modMoon (fun a =>
      { (a.setSlot a.runsB { x with pref := .preferred }).setSlot (!a.runsB) { a.slot (!a.runsB) with pref := .plain } with staged := false })
    if x.commit then m.modSec (fun s => { s with minSvn := Nat.max s.minSvn x.svn.toNat }) else m
  else m

/-! Restarts (R337 to R341, R466, R547, R553). -/

/-- Begins a firmware restart of all four cores (R338, R341, R458, R466, R516). -/
def Mach.beginRestart (m : Mach) (cause core : Nat) : Mach :=
  let m := m.tornUpdate
  let m := m.modMoon (fun a =>
    { a with ready := false, restart := m.now + 1, cause := cause, failed := core, history := m.now :: a.history, count := a.count + 1,
             cores := [], shown := m.moonRegs })
  let m := (m.romBoot).1
  let m := m.engage 2 0xFF .restart
  (List.range 65).foldl (fun m p => m.modPart p (fun q => { q with learn := Part.reset.learn })) m

/-- Writes a crash record; the sixteen newest are kept (R547). -/
def Mach.crash (m : Mach) (core cause : Nat) : Mach :=
  let a := m.moon
  let r : CrashRec := { index := a.crashNext % 16, core := core, cause := cause, tide := m.now, version := (a.slot a.runsB).version,
                        shadow := (m.mcore core).shadow, capture := m.free }
  (m.modMoon (fun a => { a with crashes := (r :: a.crashes).take 16, crashNext := a.crashNext + 1 })).bumpFree

/-- MOON_LOCKUP (R337): the partner of a core that locked up resets it, writes the crash record and starts a restart. -/
def execMoonLockup (core : Nat) (s : State) : Out :=
  s.run fun m =>
    if 4 ≤ core then .refused .noSuchUnit
    else gate m (m.moonRuns && (m.mcore core).locked) ((m.crash core 0).beginRestart 0 core)

/-- MOON_WATCHDOG (R337): no core has serviced the watchdog for 10 ms.  The core that the record names is free (log 1). -/
def execMoonWatchdog (s : State) : Out :=
  s.run fun m =>
    let core := Config.choice m.free % 4
    gate m (m.moonRuns && decide (m.moon.wdog + 10 * ms ≤ m.now)) ((m.bumpFree.crash core 1).beginRestart 1 core)

/-- A response that Moon holds when a restart ends: what was not posted completes with FW_RESTARTED (R340). DEDUCED: log 101. -/
def Reply.restarted (r : Reply) : Reply :=
  if r.written || r.hw || r.notice then r else { r with status := stFwRestarted, detail := 0, result := [] }

/-- FW_RESTARTED for a command. -/
def fwReply (c : Cmd) : Reply :=
  { opcode := c.opcode, tag := c.tag, status := stFwRestarted, detail := 0, result := [], seq := c.seq, ptr := c.ptr, pmode := c.pmode, written := false }

/-- FW_RESTARTED for a doorbell, whose block's TAG is read when it is posted. -/
def doorbellReply (d : Nat × Nat) : Reply :=
  { fwReply { opcode := 0, tag := 0, params := [], seq := d.2, ptr := d.1, pmode := true } with unread := true }

/-- Every command in flight on a channel completes with FW_RESTARTED (R340). -/
def Mach.restartChan (m : Mach) (key : Nat) : Mach :=
  let c := m.chan key
  let p := c.partial_
  let cur := match c.cur with | some (x, _) => [fwReply x] | none => []
  m.setChan key { c with cur := none, inq := p.2, dbq := [], abort := [],
                         held := c.held.map Reply.restarted ++ cur ++ (cutCmds 17 p.1).map (fun ws => fwReply (qCmd ws)) ++ c.dbq.map doorbellReply }

/-- Writes the records that the restart held, with their vector messages (R553). -/
def Mach.writeHeld (m : Mach) (vectors : Bool) : Mach :=
  let l := m.moon.heldRecs
  let m := m.modMoon (fun a => { a with heldRecs := [] })
  l.foldl (fun m r =>
    if r.1 = 0 then m.modRas (·.log r.2)
    else
      let m := m.logPartNow r.1 r.2
      if vectors then m.raiseVf r.1 1 else m) m

/-- Posts an unsolicited notice on the management channel: Q form, TAG 0 (R333). -/
def Mach.postNotice (m : Mach) (opcode : Nat) (payload : List Byte) : Mach :=
  m.modChan 0 (fun c =>
    { c with held := c.held ++ [{ opcode := opcode, tag := 0, status := stOk, detail := 0, result := payload, seq := 0, ptr := 0, pmode := false,
                                  written := false, notice := true }] })

/-- FW_RESTART's payload (Table 13.4).  Where FW.ACTIVATE caused the restart, the core and the crash-record index are free. -/
def Mach.restartPayload (m : Mach) : List Byte :=
  let a := m.moon
  let core := if a.cause = 2 then Config.choice m.free else a.failed
  let idx := if a.cause = 2 then Config.choice (m.free + 1) else (a.crashNext - 1) % 16
  leBytes 8 (a.restart - 1) ++ leBytes 8 m.now ++ leBytes 1 a.cause ++ leBytes 1 core ++ leBytes 2 idx

/-- FW_RESTART (R339, R340, R493, R553).  After a boot-ROM-only start the phases go on from phase 3 (log 20). -/
def execFwRestart (s : State) : Out :=
  s.run fun m =>
    let payload := m.restartPayload
    let m1 := if m.moon.cause = 2 then m.bumpFree.bumpFree else m
    let m1 := (tkeys m1.host.chans).eraseDups.foldl (fun m key => m.restartChan key) m1
    let m1 := m1.modMoon (fun a => { a with ready := true, restart := 0, wdog := m.now, ended := (m.moon.restart - 1, m.now) :: a.ended })
    let m1 := m1.confirmFw.writeHeld true
    let m1 := if m.start.phase == .romOnly then m1.modStart (fun x => { x with phase := .run 3, base := m.now }) else m1
    gate m (m.moon.restart != 0 && m.powered && decide (m.now ≤ m.moon.restart - 1 + 50 * ms) && (m.moon.slot m.moon.runsB).valid)
      (m1.postNotice 0x01F1 payload)

/-- More than three restarts have begun within 60 s (R341). -/
def Moon.tooMany (a : Moon) : Bool :=
  match a.history with
  | t :: _ :: _ :: u :: _ => decide (t < u + 60 * sec1)
  | _ => false

/-- RESTART_LIMIT (R341). -/
def execRestartLimit (s : State) : Out :=
  s.run fun m =>
    gate m (m.start.warmAt == 0 && ((m.moon.restart != 0 && decide (m.moon.restart - 1 + 50 * ms < m.now)) || m.moon.tooMany)) (m.fatal .restart)

/-- DEV_WARM_RESET (Table 13.4): OK, and the warm reset starts 1 ms later. -/
def execDevWarmReset (fn : Fn) (ch : Nat) (s : State) : Out :=
  mci { opcode := 0x0102, who := .m, fields := [], rlen := 0 } fn ch (fun m _ => ok (m.scheduleWarm ms)) s

/-- The OK of FW.ACTIVATE, after which the restart begins (Table 13.4). -/
def Reply.activates (r : Reply) : Bool := !r.hw && r.opcode == 0x0B02 && r.status == stOk

/-- Posts the oldest response of a channel; the restart of an FW.ACTIVATE whose OK it is begins then (R339). -/
def Mach.postAndGo (m : Mach) (key : Nat) : Mach :=
  let m' := m.postReply key
  match (m.chan key).held with
  | r :: rest => if r.activates && (m'.chan key).held.length == rest.length then m'.beginRestart 2 0 else m'
  | [] => m'

/-- MOON_RESPONSE_POSTED (R323, R330, R331, R340): Moon answers a stray front command (R330, R342) and posts the oldest response that
has room; during a restart the channel hardware posts its own. -/
def execMoonResponsePosted (fn : Fn) (ch : Nat) (s : State) : Out :=
  s.run fun m =>
    if !chanOk fn ch then .refused .noSuchUnit
    else
      let key := chanKey fn ch
      if m.moon.restart == 0 then gate m m.served ((m.answerStray fn ch).serviceWdog.postAndGo key)
      else
        let first := (m.chan key).held.filter (·.hw)
        let m' := m.modChan key (fun c => { c with held := first ++ c.held.filter (fun r => !r.hw) })
        gate m (m.served && !first.isEmpty) (m'.postReply key)

/-! Firmware commands (R492 to R494). -/

/-- FW.STAGE's checks on an image: the INVALID offset, or whether it is valid (R492, R494). -/
def imageCheck (img : List Byte) (minSvn : Nat) : Sum Nat Bool :=
  let body := fieldAt img 0x18 8
  if img.length != 256 + body + signerLen then .inl 8
  else if fieldAt img 0 4 != 0x57465048 || fieldAt img 4 2 != 0x0100 || decide (1 < fieldAt img 6 2) || !zeroAt img 0x0C 4 || !zeroAt img 0x52 174 then .inl 0
  else
    let text := img.take (256 + body)
    .inr (signedBy Config.umaenoHash text (img.drop (256 + body)) && sha384 (text.drop 256) == slice img 0x20 48 &&
      decide (minSvn ≤ fieldAt img 8 4) && decide (fieldAt img 0x50 1 ≤ 0x10))

/-- The slot that an image fills. -/
def imageSlot (img : List Byte) : FwSlot :=
  { pref := .plain, valid := true, version := BitVec.ofNat 64 (fieldAt img 0x10 8), svn := BitVec.ofNat 32 (fieldAt img 8 4),
    commit := fieldAt img 6 2 % 2 == 1, digest := sha384w img }

/-- FW_STAGE (R493, R494). -/
def execFwStage (fn : Fn) (ch : Nat) (s : State) : Out :=
  mci { opcode := 0x0B01, who := .m, fields := [(0, 8), (8, 8)], rlen := 0 } fn ch (fun m c =>
    if c.f 8 8 < 256 + signerLen then invalid m 8
    else
      match m.vread (spaceOf fn) (c.f 0 8) (c.f 8 8) .read with
      | .ok img m =>
        match imageCheck img m.sec.minSvn with
        | .inl off => invalid m off
        | .inr false => .now stDenied 0 [] m
        | .inr true => ok (m.modMoon (fun a => { a.setSlot (!a.runsB) (imageSlot img) with staged := true }))
      | .fault => invalid m 0
      | .poisoned m => .now stPoisoned 0 [] m
      | .waits m => .retry m) s

/-- FW_ACTIVATE (R338, R493): the staged slot becomes trial; the restart that begins when the OK has been sent boots it. -/
def execFwActivate (fn : Fn) (ch : Nat) (s : State) : Out :=
  mci { opcode := 0x0B02, who := .m, fields := [], rlen := 0 } fn ch (fun m _ =>
    if !m.moon.staged then invalid m 0
    else ok (m.modMoon (fun a => a.setSlot (!a.runsB) { a.slot (!a.runsB) with pref := .trial false }))) s

/-- FW_INFO (Table 13.4, R493). -/
def execFwInfo (fn : Fn) (ch : Nat) (s : State) : Out :=
  mci { opcode := 0x0B03, who := .p, fields := [], rlen := 20 } fn ch (fun m _ =>
    let a := m.moon
    .now stOk 0 (leBytes 8 (a.slot a.runsB).version.toNat ++ leBytes 8 (if a.staged then (a.slot (!a.runsB)).version.toNat else 0) ++ leBytes 4 a.count) m) s

end Sys2Proof.Machine
end

