-- ==== Sys2Proof/Machine/Security.lean ====
section
/-! DEFINITION. Machine/Security.lean: lifecycle and debug levels, the test access port and the true-random source
(R24, R103, R205, R490, R491, R506 to R510, R517, R518, R520). -/

namespace Sys2Proof.Machine

/-! Halted cores (R103, R507, R510). -/

/-- A time since which a timer runs, moved on by the part of a halt from `at_` to `now` that came after it. -/
def pastHalt (at_ now t : Nat) : Nat := t + (now - Nat.max t at_)

/-- A wait with its starting time moved on. -/
def Wait.shift (f : Nat → Nat) : Wait → Wait
  | .event c t k dl pd since => .event c t k dl pd (f since)
  | w => w

/-- A core is halted: its issue stops, and the timers of its blocks with it (R103). -/
def Mach.haltCore (m : Mach) (core : Nat) : Mach :=
  if (m.core core).halted then m
  else m.modCore core (fun c => { c with halted := true, haltedAt := m.coreTide core, haltedSteps := (m.clu (clusterOf core)).steps })

/-- A halted core resumes: the watchdog and deadlock timers of its blocks go on from where they stopped (R103), and its ejection port
passes on what it held (R70). -/
def Mach.releaseCore (m : Mach) (core : Nat) : Mach :=
  let c := m.core core
  if !c.halted then m
  else
    let on := pastHalt c.haltedAt (m.coreTide core)
    let steps := (m.clu (clusterOf core)).steps
    let m := (m.blocksOfCore core).foldl (fun m b =>
      let x := m.blk b
      m.setBlk b { x with paused := x.paused + (on x.launched - x.launched),
                          pausedSteps := x.pausedSteps + (pastHalt c.haltedSteps steps x.stepsAt - x.stepsAt) }) m
    let m := (groupSlots core).foldl (fun m g => if (m.grp g).live then m.modGrp g (fun x => { x with wait := x.wait.shift on }) else m) m
    let shift := fun (t : Tbl Nat) => t.map (fun e => if e.1 = core then (e.1, on e.2) else e)
    let m := { m with krns := tmap m.krns (fun x => { x with opTide := shift x.opTide, leftTide := shift x.leftTide }),
                      mcasts := m.mcasts.map (fun (o : McastOp) =>
                        { o with state := tput mcTarget0 o.state core { tget mcTarget0 o.state core with buffered := 0 } }) }
    m.modCore core (fun c =>
      { c with halted := false, haltedAt := 0, haltedSteps := 0, ctrTide := tmap c.ctrTide on, ejected := 0, issueTide := on c.issueTide })

/-! Measurements and the nonce (R495, `DBG_NONCE`). -/

/-- The codes of `DBG_STATE`. -/
def Lifecycle.code : Lifecycle → Nat
  | .blank => 0
  | .provisioned => 1
  | .deployed => 2
  | .rma => 3

/-- Codes of the debug levels. -/
def DbgLevel.code : DbgLevel → Nat
  | .none => 0
  | .observe => 1
  | .invasive => 2

/-- Extends measurement register 4 with the lifecycle state and the debug level, one byte each (R495). DEDUCED: log 47. -/
def Mach.measureLife (m : Mach) : Mach := m.extend 4 (leBytes 1 m.sec.life.code ++ leBytes 1 m.sec.level.code)

/-- A new nonce from the true-random source. -/
def Mach.newNonce (m : Mach) : Mach :=
  (m.modSec (fun x => { x with nonce := (Config.trueRandom m.free).truncate 64 })).bumpFree

/-- After SEC.DBG_UNLOCK or SEC.LIFECYCLE, whatever its answer: a new nonce, and a D3hot entry that waited for the command takes
effect (R517). -/
def Mach.afterToken (m : Mach) : Mach :=
  let m := m.newNonce
  if (m.fnSt 0).d3hot && !m.start.d3hot then m.enterD3 else m

/-! Tokens (Table 19.3, R508). -/

/-- Length of a token, and of one that the owner signs, whose public keys follow (R508). DEDUCED: log 102. -/
def tokenLen : Nat := 4819
def ownerTokenLen : Nat := 7508

/-- Who signs. -/
inductive Signer where
  | umaeno | owner | nobody
  deriving DecidableEq, Repr

/-- The length of a token by its signer. -/
def Signer.len : Signer → Nat
  | .owner => ownerTokenLen
  | _ => tokenLen

/-- Both signatures of a token verify under its signer's keys (R491, R508). -/
def Mach.tokenSigned (m : Mach) (who : Signer) (t : List Byte) : Bool :=
  match who with
  | .nobody => true
  | .umaeno => Config.verifies (Config.keysOf Config.umaenoHash) (t.take 96) (slice t 96 4723)
  | .owner => sha384w (slice t 4819 2689) == m.sec.owner && Config.verifies (slice t 4819 2689) (t.take 96) (slice t 96 4723)

/-- A token is accepted for a command of kind `kind` (R508). DEDUCED: log 102. -/
def Mach.tokenOk (m : Mach) (kind : Nat) (who : Signer) (t : List Byte) : Bool :=
  fieldAt t 0 4 == 0x544B5048 && fieldAt t 4 1 == kind && zeroAt t 6 2 && zeroAt t 88 8 &&
    fieldAt t 8 16 == m.sec.serial.toNat && fieldAt t 24 8 == m.sec.nonce.toNat &&
    (if kind == 3 then zeroAt t 32 8 else zeroAt t 5 1 && zeroAt t 40 48) && m.tokenSigned who t

/-- Who signs a debug token (Table 19.4). -/
def Lifecycle.debugSigner : Lifecycle → Signer
  | .blank => .nobody
  | .deployed => .owner
  | _ => .umaeno

/-- Takes a partition's key away (R497, R509). -/
def Mach.eraseKeys (m : Mach) : Mach := (m.existing).foldl (fun m p => m.modPart p (fun q => { q with keyed := false })) m

/-- Every VF in CONFIG_LOCKED or RUN moves to ERROR (R509). -/
def Mach.breakLocks (m : Mach) : Mach := (tkeys m.host.fns).foldl (fun m k => m.modFn k FnState.breakLock) m

/-- Raises the debug level (R509, Table 19.4). DEDUCED: log 103. -/
def Mach.unlock (m : Mach) (level : DbgLevel) (duration : Nat) : Mach :=
  let m := m.breakLocks
  let m :=
    if level == .invasive && m.sec.life == .deployed then
      let m := (m.existing.foldl (fun m p => m.resetNow p) m).eraseKeys
      let m := m.modSec (fun x => { x with devKey := false, loaded := 0, vaultValid := false })
      ((List.range 12).filter (fun l => (m.ylink l).st != .down)).foldl (fun m l => m.downLink l) m
    else if level == .invasive && m.sec.life == .rma then m.eraseKeys
    else m
  (m.modSec (fun x => { x with level := level, expiry := if duration = 0 then 0 else m.now + 1000 * duration })).measureLife

/-- SEC_DBG_UNLOCK (R508, R509, R517): it waits while a function-level reset is in progress. -/
def execSecDbgUnlock (fn : Fn) (ch : Nat) (s : State) : Out :=
  mci { opcode := 0x0A02, who := .m, fields := [(0, 8), (8, 4), (12, 1)], rlen := 0, always := Mach.afterToken } fn ch (fun m c =>
    let who := m.sec.life.debugSigner
    let kind := c.f 12 1
    if m.flrRuns then .retry m
    else if c.f 8 4 != who.len then invalid m 8
    else if kind != 1 && kind != 2 then invalid m 12
    else if m.sec.level != .none then invalid m 12
    else
      match m.vread (spaceOf fn) (c.f 0 8) (c.f 8 4) .read with
      | .ok t m => if m.tokenOk kind who t then ok (m.unlock (if kind = 1 then .observe else .invasive) (fieldAt t 32 8)) else .now stDenied 0 [] m
      | .fault => invalid m 0
      | .poisoned m => .now stPoisoned 0 [] m
      | .waits m => .retry m) s

/-- The level returns to NONE (R510): halted cores resume, and leaving INVASIVE in DEPLOYED is followed by a warm reset, at the
return to D0 where `late` (R518). DEDUCED: log 103. -/
def Mach.relock (m : Mach) (late : Bool) : Mach :=
  if m.sec.level == .none then m
  else
    let warm := m.sec.level == .invasive && m.sec.life == .deployed
    let m := (tkeys m.cores).foldl (fun m c => m.releaseCore c) m
    let m := (m.modSec (fun x => { x with level := .none, expiry := 0 })).measureLife
    if !warm then m else if late then m.modStart (fun x => { x with warmOnD0 := true }) else m.scheduleWarm ms

/-- SEC_DBG_LOCK (R510). -/
def execSecDbgLock (fn : Fn) (ch : Nat) (s : State) : Out :=
  mci { opcode := 0x0A03, who := .m, fields := [], rlen := 0 } fn ch (fun m _ => ok (m.relock false)) s

/-- DEBUG_EXPIRY (R510, R518). -/
def execDebugExpiry (s : State) : Out :=
  s.run fun m => gate m (m.sec.level != .none && m.sec.expiry != 0 && decide (m.sec.expiry ≤ m.now)) (m.relock m.start.d3hot)

/-! Lifecycle (R506, Table 19.2). -/

/-- The lifecycle state of a code. -/
def lifeOf : Nat → Option Lifecycle
  | 0 => some .blank
  | 1 => some .provisioned
  | 2 => some .deployed
  | 3 => some .rma
  | _ => none

/-- The signer of a transition, if there is such a transition (Table 19.2). -/
def moveSigner : Lifecycle → Lifecycle → Option Signer
  | .blank, .provisioned => some .umaeno
  | .provisioned, .deployed => some .umaeno
  | .provisioned, .rma => some .umaeno
  | .deployed, .rma => some .owner
  | _, _ => none

/-- The actions of a transition (Table 19.2), the new state and the warm reset 1 ms later (R506). -/
def Mach.moveLife (m : Mach) (target : Lifecycle) (hash : Nat) : Mach :=
  let m :=
    match m.sec.life, target with
    | .blank, .provisioned => m.modSec (fun x => { x with serial := Config.serialNumber })
    | .provisioned, .deployed => m.modSec (fun x => { x with owner := BitVec.ofNat 384 hash })
    | .deployed, .rma =>
      ((m.existing.foldl (fun (m : Mach) p => m.resetNow p) m).eraseKeys).modSec (fun x =>
        { x with vaultA := VaultSlot.reset, vaultB := VaultSlot.reset, loaded := 0, vaultValid := false })
    | _, _ => m
  ((m.modSec (fun x => { x with life := target })).measureLife).scheduleWarm ms

/-- SEC_LIFECYCLE (R506, R508, R517). -/
def execSecLifecycle (fn : Fn) (ch : Nat) (s : State) : Out :=
  mci { opcode := 0x0A04, who := .m, fields := [(0, 1), (8, 8), (16, 4)], rlen := 0, always := Mach.afterToken } fn ch (fun m c =>
    if m.flrRuns then .retry m
    else
      match lifeOf (c.f 0 1) with
      | none => invalid m 0
      | some target =>
        match moveSigner m.sec.life target with
        | none => .now stDenied 0 [] m
        | some who =>
          if c.f 16 4 != who.len then invalid m 16
          else
            match m.vread (spaceOf fn) (c.f 8 8) (c.f 16 4) .read with
            | .ok t m =>
              if m.tokenOk 3 who t && fieldAt t 5 1 == target.code && (target == .deployed || zeroAt t 40 48) then ok (m.moveLife target (ofBe (slice t 40 48)))
              else .now stDenied 0 [] m
            | .fault => invalid m 8
            | .poisoned m => .now stPoisoned 0 [] m
            | .waits m => .retry m) s

/-! The true-random source (R205, R520). -/

/-- TRNG_HEALTH_FAILURE (R205, R520): a record of code 0x34 for X0. -/
def execTrngHealthFailure (s : State) : Out :=
  s.run fun m => gate m (m.powered && m.sec.trngOk) ((m.modSec (fun x => { x with trngOk := false })).eventAt 0x34 2 0x80 0 0)

/-- TRUE_RANDOM_SOURCE_RECOVERY (R520): the key regeneration of the resets that waited proceeds (R359). -/
def execTrueRandomSourceRecovery (s : State) : Out :=
  s.run fun m =>
    let m1 := m.modSec (fun x => { x with trngOk := true })
    gate m (!m.sec.trngOk) ((List.range 65).foldl (fun m p =>
      match (m.part p).flr with
      | .quiet t true => (m.newKey p).modPart p (fun q => { q with flr := .quiet t false })
      | _ => m) m1)

/-! The test access port (R24, R507). -/

/-- The BAR0 blocks that OBSERVE opens to the test access port: telemetry and DBG (R507, Table 22.1). -/
def observable (offset : Nat) : Bool := decide (0x80000 ≤ offset) && decide (offset < 0x110000)

/-- A register of a group as the port reads it. -/
def readDbg (x : Group) : DbgReg → Word
  | .v reg lane => tget 0 x.v (32 * (reg % 256) + lane % 32)
  | .u reg => tget 0 x.u (reg % 64)
  | .p reg => if reg % 8 = 0 then BitVec.allOnes 32 else tget 0 x.p (reg % 8)
  | .pc => x.pc

/-- A register of a group as the port writes it; p0 is always true (R110). -/
def writeDbg (x : Group) : DbgReg → Word → Group
  | .v reg lane, w => { x with v := tput 0 x.v (32 * (reg % 256) + lane % 32) w }
  | .u reg, w => { x with u := tput 0 x.u (reg % 64) w }
  | .p reg, w => if reg % 8 = 0 then x else { x with p := tput 0 x.p (reg % 8) w }
  | .pc, w => { x with pc := w }

/-- What the test access port does with an instruction: the mandatory ones at every level; reads of telemetry, event counters and trace
buffers at OBSERVE; halting, register access and scan at INVASIVE (R24, R507).  Data the manual does not give, what a trace buffer holds
among it, is free. -/
def Mach.tapOp (m : Mach) : TapOp → Mach
  | .mandatory ir => (m.emit (.tap (Config.scanData (2 * m.free + 2 ^ 64 * ir)))).bumpFree
  | .observe offset => if m.sec.level != .none && observable offset then m.emit (.tap (m.readReg (.pf 0) offset)) else m
  | .counter core ctr =>
    if m.sec.level != .none && decide (core < 1024) && decide (ctr < 64) then m.emit (.tap (tget 0 (m.core core).ctr ctr).toNat) else m
  | .trace buffer => if m.sec.level == .none then m else (m.emit (.tap (Config.scanData (2 * m.free + 1 + 2 ^ 64 * buffer)))).bumpFree
  | .halt core => if m.sec.level == .invasive && decide (core < 1024) && m.coreLive core then m.haltCore core else m
  | .release core => if m.sec.level == .invasive && decide (core < 1024) then m.releaseCore core else m
  | .readReg g r => if m.sec.level == .invasive && decide (g < 49152) then m.emit (.tap (readDbg (m.grp g) r).toNat) else m
  | .writeReg g r w => if m.sec.level == .invasive && decide (g < 49152) then m.modGrp g (fun x => writeDbg x r w) else m
  | .scan chain => if m.sec.level == .invasive then (m.emit (.tap (Config.scanData (2 * m.free + 1 + 2 ^ 64 * chain)))).bumpFree else m

/-- TEST_ACCESS_PORT_INSTRUCTION (R24, R507). -/
def execTestAccessPortInstruction (op : TapOp) (s : State) : Out := s.run fun m => .next (m.tapOp op)

end Sys2Proof.Machine
end

