-- ==== Sys2Proof/Machine/Faults.lean ====
section
/-! DEFINITION. Machine/Faults.lean: core and cluster fences, spares and repair maps, patrol scrubbing, array errors, and the RAS
commands (R69, R96 to R101, R139, R141, R142, R162, R204, R261, R529, R534 to R540, R542, R544, R547, R552, R554, R555). -/

namespace Sys2Proof.Machine

/-! Fences (R96, R97, R536 to R538, R540). -/

/-- The physical core that serves a logical core. -/
def Mach.physOf (m : Mach) (core : Nat) : Nat := 17 * clusterOf core + tget 0 (m.clu (clusterOf core)).phys (logicalOf core)

/-- The state of a physical core after a fence (R540). -/
def PhysCore.fenced : PhysCore → PhysCore
  | .good => .onceFailed
  | .spare => .onceFailed
  | .onceFailed => .failed
  | .failed => .failed

/-- A fenced core leaves its cluster's live set; a spare that no swap awaits is set aside for it (R96, R99, R552). -/
def Cluster.dropCore (x : Cluster) (l : Nat) : Cluster :=
  let x := { x with live := x.live &&& ~~~(1#16 <<< l) }
  if x.spareValid && !x.pendingValid then { x with pending := BitVec.ofNat 4 l, pendingValid := true } else x

/-- A core is marked undelivered in every multicast in flight (R69). -/
def McastOp.dropTarget (o : McastOp) (core : Nat) : McastOp :=
  if o.targets.contains core then { o with state := tmod mcTarget0 o.state core (fun t => { t with undelivered := true, blocked := 0, buffered := 0 }) } else o

/-- A DEGRADED record for a launch whose lost blocks are replayed (R97, R537). -/
def Mach.degraded (m : Mach) (k : Nat) : Mach :=
  let p := (m.krn k).part
  let r := RasRec.mk0 0x23 2 p (m.krn k).num m.now
  (m.logDev r).logPart p r

/-- What a fence does to one launch with blocks on the core (R96, R97, R537): replay within the cluster, or ABORTED; in a
function-level reset the blocks are merely gone. DEDUCED: log 105. -/
def Mach.fenceKrn (m : Mach) (core k : Nat) : Mach :=
  let bs := (m.blocksOfKrn k).filter (fun b => blockCore b == core)
  if (m.krn k).desc.replayable || (m.part (m.krn k).part).st == .resetting then
    let lost := bs.map (fun b => (clusterOf core, (m.blk b).id))
    let m := bs.foldl (fun m b => m.freeBlock b) (m.dropWork k (some core))
    if (m.part (m.krn k).part).st == .resetting then m else (m.modKrn k (fun x => { x with replay := x.replay ++ lost })).degraded k
  else m.abortKrn k fFence none

/-- A core is fenced (R96, R181, R536). -/
def Mach.fenceCore (m : Mach) (core : Nat) : Mach :=
  let c := clusterOf core
  let ph := m.physOf core
  let ks := ((m.blocksOfCore core).map (fun b => (m.blk b).krn)).eraseDups
  let m := m.modRas (fun r => { r with phys := tmod .good r.phys ph PhysCore.fenced })
  let m := (m.mapUpdate (dieOfCluster c)).modClu c (fun x => { x.dropCore (logicalOf core) with ordq := x.ordq.filter (fun d => d.core != core) })
  let m := { m with mcasts := m.mcasts.map (fun (o : McastOp) => o.dropTarget core) }
  let m := m.modCore core (fun x => { x with ctr := [], ctrTide := [] })
  let m := m.eventAt 0x21 2 (dieOfCluster c) c (ph % 17)
  let m := ks.foldl (fun m k => m.fenceKrn core k) m
  let m := { m with krns := tmap m.krns (fun x => { x with recv := tput 0 x.recv core 0 }) }
  m.modCore core (fun x => { x.quiesce with halted := false, haltedAt := 0, haltedSteps := 0 })

/-- CORE_FENCE (R96, R536). -/
def execCoreFence (core : Nat) (_ : FenceCause) (s : State) : Out :=
  s.run fun m => if 1024 ≤ core then .refused .noSuchUnit else gate m (m.up && m.coreLive core) (m.fenceCore core)

/-- ISSUE_HANG (R536, Table 20.4): no iteration of the issue loop for 20 us while the core holds a group that is not halted. -/
def execIssueHang (core : Nat) (s : State) : Out :=
  s.run fun m =>
    if 1024 ≤ core then .refused .noSuchUnit
    else
      gate m (m.up && m.coreLive core && !(m.core core).halted && decide ((m.core core).issueTide + 20 * us ≤ m.coreTide core) &&
          (m.blocksOfCore core).any (fun b => decide ((m.blk b).launched + 20 * us ≤ m.coreTide core)))
        (m.fenceCore core)

/-- The launches that hold a bank in a cluster have their receive areas, zeroed, on a core that joins it (R78, R99; DESIGN CHOICE:
log 123). -/
def Mach.giveAreas (m : Mach) (core : Nat) : Mach :=
  (m.holders (clusterOf core)).foldl (fun m k =>
    m.modKrn k (fun x =>
      { x with recv := if granulesOf x.desc.recvBytes = 0 then x.recv
                       else tput 0 x.recv core (recvBase (tget 0 x.banks (clusterOf core) - 1) + 1) })) m

/-- SPARE_SWAP (R99): at an idle point of the cluster the spare takes the fenced core's logical number. -/
def execSpareSwap (cluster : Nat) (s : State) : Out :=
  s.run fun m =>
    if 64 ≤ cluster then .refused .noSuchUnit
    else
      let x := m.clu cluster
      let l := x.pending.toNat
      let m1 := m.modClu cluster (fun x =>
        { x with phys := tput 0 x.phys l x.spare.toNat, live := x.live ||| (1#16 <<< l), spareValid := false, pendingValid := false })
      let m1 := m1.modRas (fun r => { r with phys := tput .good r.phys (17 * cluster + x.spare.toNat) .good })
      gate m (m.up && !x.fenced && x.pendingValid && x.spareValid && (m.blocksOfCluster cluster).isEmpty)
        (((m1.modCore (16 * cluster + l) Core.quiesce).giveAreas (16 * cluster + l)).eventAt 0x24 4 (dieOfCluster cluster) cluster x.spare.toNat)

/-- CLUSTER_FENCE (R538): every launch with a resident block in the cluster, or with a lost block to replay there, is aborted. -/
def execClusterFence (cluster : Nat) (s : State) : Out :=
  s.run fun m =>
    if 64 ≤ cluster then .refused .noSuchUnit
    else
      let p := (m.clu cluster).owner
      let waits := (tkeys m.krns).filter (fun k => (m.krn k).live && (m.krn k).replay.any (fun r => r.1 == cluster))
      let ks := ((m.blocksOfCluster cluster).map (fun b => (m.blk b).krn) ++ waits).eraseDups
      let r := { RasRec.mk0 0x22 2 p 0 m.now with die := dieOfCluster cluster, place := cluster }
      let m1 := m.modClu cluster (fun x => { x with fenced := true, live := 0, pendingValid := false })
      let m1 := { m1 with mcasts := m1.mcasts.map (fun (o : McastOp) => (coresOfCluster cluster).foldl McastOp.dropTarget o) }
      let m1 := ks.foldl (fun m k => m.abortKrn k fFence none) ((m1.mapUpdate (dieOfCluster cluster)).logDev r)
      gate m (m.up && !(m.clu cluster).fenced) (if p = 0 then m1 else m1.logPart p r)

/-- STREAM_PARITY_ERROR (R204): the owning launch is aborted and not replayed; a record of code 0x28 for the core, in the device ring
and its partition's (Table 20.3). -/
def execStreamParityError (g : Nat) (s : State) : Out :=
  s.run fun m =>
    if 49152 ≤ g then .refused .noSuchUnit
    else
      let c := coreOf g
      let p := (m.clu (clusterOf c)).owner
      let r := { RasRec.mk0 0x28 2 p (m.krn (m.blk (m.grp g).block).krn).num m.now with die := dieOfCluster (clusterOf c), place := clusterOf c }
      let m1 := (m.logDev { r with core := m.physOf c % 17 }).logPart p { r with core := logicalOf c }
      gate m (m.grp g).live (m1.abortKrn (m.blk (m.grp g).block).krn fParity none)

/-! The tensor engine (R139, R141, R142, R162). -/

/-- A tensor instruction reads the words of local memory, or the accumulator elements, that an uncorrectable error lies in: TZERO and
a TMMA with ACCZ = 1 read no accumulator element (R162). -/
def TOp.meets (t : TOp) : TileError → Bool
  | .none => false
  | .localWord => t.kind == .tmma || t.kind == .tload
  | .accElem => t.kind == .tstore || (t.kind == .tmma && !t.f.accz)

/-- TENSOR_QUEUE_START (R139, R141, R142, R162): the engine runs the oldest queued instruction, once the earlier local accesses of its
group are performed; one that reads an uncorrectable error has no effect, and its core is fenced. DESIGN CHOICE: log 124. -/
def execTensorQueueStart (start : TensorStart) (s : State) : Out :=
  s.run fun m =>
    let core := start.core
    if 1024 ≤ core then .refused .noSuchUnit
    else
      match (m.core core).tq with
      | [] => .next m
      | t :: q =>
        let out := m.modCore core (fun c => { c with tq := q })
        gate m (m.tensorReady t)
          (if t.meets start.err then (if m.coreLive core then out.fenceCore core else out)
           else (out.modCore core (m.runTensor t)).wake t.gid)

/-! Repair maps (R539, R555). -/

/-- The repair map of a die as flash then holds it. -/
def Mach.writeMap (m : Mach) (die : Nat) : Mach :=
  m.modRas (fun r =>
    { r with flash := (List.range 272).foldl (fun t i => tput .good t (272 * die + i) (tget .good r.phys (272 * die + i))) r.flash,
             flashPages := if die = 0 then m.mem.retired else r.flashPages,
             flashRows := tput RowMap.reset r.flashRows die (tget RowMap.reset r.rows die),
             mapDue := tput 0 r.mapDue die 0, mapFails := tput 0 r.mapFails die 0 })

/-- REPAIR_MAP_UPDATE (R539). DESIGN CHOICE: log 109. -/
def execRepairMapUpdate (die : Nat) (s : State) : Out :=
  s.run fun m =>
    if 4 ≤ die then .refused .noSuchUnit
    else gate m (m.moonServes && tget 0 m.ras.mapDue die != 0 && tget 0 m.ras.mapFails die == 0) (m.writeMap die)

/-- REPAIR_MAP_RETRY (R555): each second a write is tried again; the sixtieth failure is a record of code 0x40 with cause 9.
DESIGN CHOICE: log 109. -/
def execRepairMapRetry (die : Nat) (ok : Bool) (s : State) : Out :=
  s.run fun m =>
    if 4 ≤ die then .refused .noSuchUnit
    else
      let n := tget 0 m.ras.mapFails die + 1
      let failed := m.modRas (fun r => { r with mapDue := tput 0 r.mapDue die (m.now + 1), mapFails := tput 0 r.mapFails die n })
      gate m (m.moonServes && tget 0 m.ras.mapDue die != 0 && decide (tget 0 m.ras.mapDue die - 1 + sec1 ≤ m.now))
        (if ok then m.writeMap die else if n = 60 then failed.fatalRecord .other else failed)

/-! Patrol and array errors (R529, R534, R535). -/

/-- A record of a corrected event (severity 0) about a line. -/
def Mach.corrected (m : Mach) (code line : Nat) : Mach := m.logDev { RasRec.mk0 code 0 0 0 m.now with addr := 64 * line, kind := 1 }

/-- A good copy of a line in its slice or in an RLC (R529): an RLC's M copy first, the slice's, then any other. -/
def Mach.goodCopy (m : Mach) (line : Nat) : Option LineData :=
  let rl := (List.range 8).filterMap (fun h => m.rlcLine h line)
  match rl.find? (fun l => l.st == .m && !l.poison) with
  | some l => some l.data
  | none =>
    match tfind m.mem.llc line with
    | some l => if l.poison then none else some l.data
    | none => (rl.find? (fun l => !l.poison)).map (·.data)

/-- The line that the patrol reads next: units that await their scrub are skipped (R534). DESIGN CHOICE: log 107. -/
def Mach.patrolLine (m : Mach) : Nat :=
  if !(m.unit (m.ras.patrol / 2 ^ 24)).scrub then m.ras.patrol
  else
    match ((List.range 288).map (fun i => (m.ras.patrol / 2 ^ 24 + 1 + i) % 288)).find? (fun u => !(m.unit u).scrub) with
    | some u => 2 ^ 24 * u
    | none => m.ras.patrol

/-- A corrected patrol error: RAS_SUMMARY counts it, and a page has at most one record in 24 h (R534). -/
def Mach.patrolCorrected (m : Mach) (line : Nat) : Mach :=
  let page := line / 1024
  let t := tget 0 m.ras.corrAt page
  if t != 0 && decide (m.now < t - 1 + 24 * 3600 * sec1) then m.modRas (fun r => r.count 2 0)
  else (m.modRas (fun r => { r with corrAt := tput 0 r.corrAt page (m.now + 1) })).corrected 2 line

/-- One patrol action on a line (R529, R534). -/
def Mach.patrolAct (m : Mach) (line : Nat) (found : HbmError) : Mach :=
  let inj := tget 0 m.mem.hbmErr line
  let bad := found == .uncorrectable || inj == 2
  let m := m.modMem (fun a => { a with hbmErr := tput 0 a.hbmErr line 0 })
  if bad then
    let m := m.hbmRowEvent line
    match m.goodCopy line with
    | some d => (m.hbmStore line d false).corrected 6 line
    | none => (m.modMem (fun a => { a with hbmPoison := tput false a.hbmPoison line true })).poisonEvent line 0
  else if found == .correctable || inj == 1 then m.patrolCorrected line
  else m

/-- PATROL_SCRUB (R534): the patrol reads the next line. DESIGN CHOICE: log 107. -/
def execPatrolScrub (line : Nat) (found : HbmError) (s : State) : Out :=
  s.run fun m =>
    if hbmLines ≤ line then .fault .notMappable
    else
      gate m (m.up && line == m.patrolLine && !(m.unit (line / 2 ^ 24)).scrub)
        ((m.patrolAct line found).modRas (fun r => { r with patrol := (line + 1) % hbmLines }))

/-- A directory entry that fails its parity check is rebuilt (R261): the home takes it up in its turn; all RLCs and the host are snooped.
DEDUCED: log 127. -/
def Mach.rebuildDir (m : Mach) (line : Nat) : Mach := m.request_ ⟨.rebuild, 9, line⟩

/-- An uncorrectable error in a slice's line (R529). DEDUCED: log 106. -/
def Mach.sliceError (m : Mach) (line : Nat) : Mach :=
  match tfind m.mem.llc line with
  | none => m
  | some l =>
    if !l.dirty then ((m.modMem (fun a => { a with llc := tdel a.llc line })).homeFetch line 0 true).2.corrected 5 line
    else
      match ((List.range 8).filterMap (fun h => m.rlcLine h line)).find? (fun x => !x.poison) with
      | some x => (m.modMem (fun a => { a with llc := tins a.llc line { l with data := x.data, poison := false } })).corrected 6 line
      | none => (m.modMem (fun a => { a with llc := tins a.llc line { l with poison := true } })).poisonEvent line 1

/-- An uncorrectable error in an RLC's line (R529): a clean one is refetched and reads as before. DEDUCED: log 106. -/
def Mach.rlcError (m : Mach) (h line : Nat) : Mach :=
  match m.rlcLine h line with
  | none => m
  | some l => if l.st == .m then (m.rlcSetLine h line { l with poison := true }).poisonEvent line 2 else m.corrected 5 line

/-- An uncorrectable error in an L1 line (R235): the line is invalidated and refetched, from the RLC of the core's half or the home. -/
def Mach.l1Error (m : Mach) (core line : Nat) : Mach :=
  if ((m.core core).l1Way line).isNone then m
  else
    let m := (m.modCore core (·.l1Drop (· == line))).corrected 5 line
    match (if remoteFor (halfOfCore core) line then
        (match m.rlcLine (halfOfCore core) line with | some l => Perf.done (l.data, l.poison) m | none => .waits m)
      else m.cohRead line (m.clu (clusterOf core)).owner true) with
    | .done (d, false) m => m.modCore core (·.l1Fill line d)
    | .done (_, true) m => m
    | .waits m => m

/-- An uncorrectable error in a line of an instruction cache, by its virtual line address (Table 20.4): the line is refetched from its home;
a refetch that fails fences the core. DEDUCED: log 106. -/
def Mach.icacheError (m : Mach) (core line : Nat) : Mach :=
  if ((m.core core).icacheLine line).isNone then m
  else
    let m := m.modCore core (fun c => { c with icache := c.icache.filter (fun e => e.1 != line) })
    match m.vread (m.clu (clusterOf core)).owner (64 * line) 64 .fetch with
    | .ok b m => (m.fillIcache core line (lineOf b)).eventAt 5 0 (dieOfCluster (clusterOf core)) (clusterOf core) (core % 16)
    | .poisoned m => m.fenceCore core
    | .waits m => m
    | .fault => m

/-- A parity error in a controller's key table (R520): an event, and the owning partition is reset (R357). -/
def Mach.keyTableError (m : Mach) (controller p : Nat) : Mach :=
  if (m.part p).st == .absent then m
  else
    let r := { RasRec.mk0 (Config.rasCode 8).1 (Config.rasCode 8).2 p 0 m.now with die := controller / 4, place := controller }
    ((m.logDev r).logPart p r).startFlr p

/-- The die, and the row by a free value, in which the place of an array lies (R541; log 141); a key table has no row. -/
def Mach.arrayRow (_ : Mach) : ArrayRef → Option (Nat × Nat)
  | .slice l => some (sliceOf l / 32, Config.sramRow 0 l)
  | .rlc h l => some (h / 2, Config.sramRow (1 + h) l)
  | .directory l => some (homeDie l, Config.sramRow 9 l)
  | .l1 c l => some (dieOfCluster (clusterOf c), Config.sramRow (10 + 3 * c) l)
  | .icache c l => some (dieOfCluster (clusterOf c), Config.sramRow (11 + 3 * c) l)
  | .localMemory c o => some (dieOfCluster (clusterOf c), Config.sramRow (12 + 3 * c) o)
  | .keyTable _ _ => none

/-- A spare row is to replace an SRAM row from the next start on (R541): a threshold event, upon which the map is updated (R539). -/
def Mach.markRow (m : Mach) (die row : Nat) : Mach :=
  let map := tget RowMap.reset m.ras.rows die
  if map.spare.contains row then m
  else (m.modRas (fun r => { r with rows := tput RowMap.reset r.rows die { map with spare := map.spare ++ [row] } })).mapUpdate die

/-- A correction in an array (R541): more than 64 in a row within 24 h mark it. -/
def Mach.rowCorrected (m : Mach) (array : ArrayRef) : Mach :=
  match m.arrayRow array with
  | none => m
  | some (die, row) =>
    let ts := (tget [] m.ras.rowCorr row).filter (fun t => decide (m.now ≤ t + 24 * 3600 * sec1)) ++ [m.now]
    let m := m.modRas (fun r => { r with rowCorr := tput [] r.rowCorr row ts })
    if 64 < ts.length then m.markRow die row else m

/-- An uncorrectable error in an array marks its row (R541). -/
def Mach.rowFailed (m : Mach) (array : ArrayRef) : Mach :=
  match m.arrayRow array with
  | none => m
  | some (die, row) => m.markRow die row

/-- An uncorrectable error that an array patrol finds (R235, R520, R529, R535). DEDUCED: log 106. -/
def Mach.arrayError (m : Mach) : ArrayRef → Mach
  | .slice line => m.sliceError line
  | .rlc h line => m.rlcError h line
  | .directory line => if (m.dirOf line).isSome then m.rebuildDir line else m
  | .l1 core line => m.l1Error core line
  | .icache core line => m.icacheError core line
  | .localMemory core _ => if m.coreLive core then m.fenceCore core else m
  | .keyTable controller p => m.keyTableError controller p

/-- The line of an array reference, if it is a line of HBM that the patrol names. -/
def arrayLineOk : ArrayRef → Bool
  | .slice l => decide (l < hbmLines)
  | .rlc _ l => decide (l < hbmLines)
  | .directory l => decide (l < hbmLines)
  | _ => true

/-- The array exists. -/
def arrayOk : ArrayRef → Bool
  | .rlc h _ => decide (h < 8)
  | .l1 c _ => decide (c < 1024)
  | .icache c _ => decide (c < 1024)
  | .localMemory c _ => decide (c < 1024)
  | .keyTable c p => decide (c < 16) && partOk p
  | _ => true

/-- The array is between transactions of the line. -/
def Mach.arrayIdle (m : Mach) : ArrayRef → Bool
  | .slice l => m.settled l
  | .rlc _ l => m.settled l
  | _ => true

/-- ARRAY_PATROL (R520, R529, R535, R541). -/
def execArrayPatrol (array : ArrayRef) (found : HbmError) (s : State) : Out :=
  s.run fun m =>
    if !arrayOk array then .refused .noSuchUnit
    else if !arrayLineOk array then .fault .notMappable
    else
      match found with
      | .good => .next m
      | .correctable => gate m m.up ((m.event 1 0).rowCorrected array)
      | .uncorrectable => gate m (m.up && m.arrayIdle array) ((m.rowFailed array).arrayError array)

/-- DIRECTORY_PARITY_REBUILD (R261). -/
def execDirectoryParityRebuild (line : Nat) (s : State) : Out :=
  s.run fun m =>
    if hbmLines ≤ line then .fault .notMappable else gate m (m.up && (m.dirOf line).isSome) (m.rebuildDir line)

/-- CHECKER_FAILED_PATH (R72, R236, R554): more than 1,024 mismatches within 1 ms. -/
def execCheckerFailedPath (path : CheckPath) (s : State) : Out :=
  s.run fun m => gate m m.up (m.fatal (match path with | .bridge => .dieBridge | .array => .array))

/-! RAS commands (R544, R547). -/

/-- A record as a read returns it: the device ring holds headers only. -/
def RasRec.bytes (r : RasRec) : List Byte := r.header r.units ++ padTo (64 * (r.units - 1)) r.body

/-- The record of code 0x01FF that tells of lost records (R544). -/
def lostRec (first oldest tide : Nat) : RasRec :=
  { RasRec.mk0 0x1FF 4 0 0 tide with seq := first, detail := padTo 20 (leBytes 8 (oldest - first)) }

/-- The records that fit a buffer of `n` bytes, in order. -/
def fitRecs : Nat → List RasRec → List RasRec
  | _, [] => []
  | n, r :: l => if 64 * r.units ≤ n then r :: fitRecs (n - 64 * r.units) l else []

/-- The records from `first` on of a ring (newest first), whose oldest sequence number is `oldest`. -/
def ringFrom (ring : List RasRec) (first oldest tide : Nat) : List RasRec :=
  (if first < oldest then [lostRec first oldest tide] else []) ++ (ring.filter (fun r => decide (first ≤ r.seq))).reverse

/-- The records that RAS.LOG_READ returns to a function (R544): the device ring to M, its partition's to a VF. DEDUCED: log 108. -/
def Mach.logFor (m : Mach) (fn : Fn) (first : Nat) : List RasRec :=
  match fn with
  | .pf 0 => ringFrom m.ras.ring first m.ras.oldest m.now
  | .pf _ => []
  | .vf _ p => ringFrom (m.part p).ring first ((((m.part p).ring.getLast?).map (·.seq)).getD (m.part p).ringNext) m.now

/-- RAS_LOG_READ (R544). -/
def execRasLogRead (fn : Fn) (ch : Nat) (s : State) : Out :=
  mci { opcode := 0x0901, who := .f, fields := [(0, 4), (8, 8), (16, 8)], rlen := 4 } fn ch (fun m c =>
    let rs := fitRecs (c.f 16 8) (m.logFor fn (c.f 0 4))
    match m.vwrite (spaceOf fn) (c.f 8 8) (rs.flatMap RasRec.bytes) with
    | .ok m => .now stOk 0 (leBytes 4 rs.length) m
    | .fault => invalid m 8
    | .waits m => .retry m) s

/-- RAS_LOG_CLEAR (R544). DEDUCED: log 108. -/
def execRasLogClear (fn : Fn) (ch : Nat) (s : State) : Out :=
  mci { opcode := 0x0902, who := .m, fields := [(0, 4)], rlen := 0 } fn ch (fun m c =>
    ok (m.modRas (fun r =>
      { r with ring := r.ring.filter (fun x => decide (c.f 0 4 < x.seq)), oldest := Nat.max r.oldest (Nat.min r.next (c.f 0 4 + 1)) }))) s

/-- A Moon crash record's 256 bytes (R547). -/
def CrashRec.bytes (r : CrashRec) : List Byte :=
  leBytes 4 0x4852434D ++ leBytes 2 r.index ++ leBytes 1 r.core ++ leBytes 1 r.cause ++ leBytes 8 r.tide ++ leBytes 8 r.version.toNat ++
    padTo 64 (r.shadow.flatMap (fun w => leBytes 8 w.toNat)) ++ (List.range 168).map (Config.moonCapture r.capture)

/-- RAS_CRASH_READ (R547). -/
def execRasCrashRead (fn : Fn) (ch : Nat) (s : State) : Out :=
  mci { opcode := 0x0903, who := .m, fields := [(0, 2), (8, 8)], rlen := 0 } fn ch (fun m c =>
    match m.moon.crashes.find? (fun r => r.index == c.f 0 2) with
    | none => invalid m 0
    | some r =>
      match m.vwrite (spaceOf fn) (c.f 8 8) r.bytes with
      | .ok m => ok m
      | .fault => invalid m 8
      | .waits m => .retry m) s

end Sys2Proof.Machine
end

