-- ==== Sys2Proof/Machine/LoadStore.lean ====
section
/-! DEFINITION. Machine/LoadStore.lean: the instructions of format M, and the events that perform and return their accesses (R112,
R113, R120, R121, R124, R140, R222, R223, R263, R267, R430, R431, R526, R531). -/

namespace Sys2Proof.Machine

/-! Operands (Table 05.3, R113). -/

/-- Bytes of an access. -/
def accBytes (f : FmtM) : Nat := 2 ^ f.size.toNat

/-- The v-registers that an M word reads or writes. -/
def mRegs (f : FmtM) (runs : Nat) : List Nat :=
  (List.range (runs * f.run)).map (f.vds.toNat + ·) ++ (if f.novo then [] else [f.vo.toNat])

/-- The value of a run of registers of a lane, low word first. -/
def Mach.runVal (m : Mach) (g first n lane : Nat) : Nat := total ((List.range n).map (fun i => m.vGet g (first + i) lane * 2 ^ (32 * i)))

/-- The per-lane displacement: VO, where there is one, and DISP, both signed. -/
def Mach.laneOff (m : Mach) (g : Nat) (f : FmtM) (lane : Nat) : Int :=
  (if f.novo then 0 else sgn 32 (m.vGet g f.vo.toNat lane)) + sgn 13 f.disp.toNat

/-- The global virtual address of a lane, its bits below the access size zero (R113). -/
def Mach.globalAddr (m : Mach) (g : Nat) (f : FmtM) (lane : Nat) : Nat :=
  wrapI 52 ((m.uPair g f.ub.toNat : Int) + m.laneOff g f lane) / accBytes f * accBytes f

/-- The local offset of a lane. -/
def Mach.localAddr (m : Mach) (g : Nat) (f : FmtM) (lane : Nat) : Nat :=
  wrapI 32 ((m.uGet g f.ub.toNat : Int) + m.laneOff g f lane) / accBytes f * accBytes f

/-! Translation at issue (R113, R140, R222, R430, R431). -/

/-- Where a lane lands. -/
inductive LaneAt where
  | ok (addr : Nat) (t : Target)
  | fault (addr : Nat)
  | ats (page addr : Nat)

/-- The window accepts an access of `bytes` at offset `va` (R430, R431): a load or atomic takes a plain window; an event window takes
stores of 8 bytes to a counter (log 33), a mailbox window those to MBX_TXQ and MBX_DOORBELL. -/
def windowTakes (kind : MemKind) (word va bytes : Nat) : Bool :=
  let o := va % 2 ^ 21
  match kind with
  | .store =>
    if winEvent word then bytes == 8 && decide (o / 256 < 1024)
    else if winMailbox word then decide (o / 4096 < 8) && ((o % 4096 == 0x100 && bytes == 4) || (o % 4096 == 0x10 && bytes == 8))
    else true
  | _ => !winMulticast word && !winEvent word && !winMailbox word

/-- Where a lane's access lands. -/
def Mach.placeLane (m : Mach) (g : Nat) (f : FmtM) (kind : MemKind) (lane : Nat) : LaneAt :=
  let k := m.krnOf g
  let n := accBytes f
  match f.space with
  | .localMem =>
    let b := m.blk (m.grp g).block
    let a := m.localAddr g f lane
    if a + n ≤ 1024 * b.granules then .ok a (.localMem (1024 * b.base + a)) else .fault a
  | .receive =>
    let a := m.localAddr g f lane
    let r := tget 0 (m.krn k).recv (coreOf g)
    if r != 0 && decide (a + n ≤ 1024 * granulesOf (m.krn k).desc.recvBytes) then .ok a (.localMem (1024 * (r - 1) + a)) else .fault a
  | _ =>
    let a := m.globalAddr g f lane
    match m.translate (m.krn k).part (if kind == .load then .read else .write) a with
    | .ok (.window w p va) => if windowTakes kind w va n then .ok a (.window w p va) else .fault a
    | .ok t => .ok a t
    | .fault => .fault a
    | .ats page => .ats page a

/-- A core's translation enters its TLB and its cluster's; the oldest entries leave (R222; log 32). -/
def Mach.noteTlb (m : Mach) (core part va : Nat) : Mach :=
  let page := va / 65536
  let m := m.modCore core (fun c =>
    if c.tlb.contains page then c else { c with tlb := (c.tlb ++ [page]).drop (c.tlb.length + 1 - 64) })
  m.modClu (clusterOf core) (fun c =>
    if c.tlb.contains (part, page) then c else { c with tlb := (c.tlb ++ [(part, page)]).drop (c.tlb.length + 1 - 2048) })

/-- Issues an M word: every lane is translated before any takes effect (R140). -/
def runM (g : Nat) (i : Instr) (f : FmtM) (kind : MemKind) (s : State) : Out :=
  let cas := kind == .atomic .cas
  issue g i (mRegs f (if cas then 2 else 1)) false f.pi f.pn (fun m mask =>
    if !m.mayAccess g then .hold m
    else
      let k := m.krnOf g
      let part := (m.krn k).part
      let places := (lanesOf mask).map (fun l => (l, m.placeLane g f kind l))
      match places.find? (fun p => match p.2 with | .fault _ => true | _ => false) with
      | some (_, .fault a) => .fault fAddress (some a) (m.dropRefused part a)
      | _ =>
        match places.find? (fun p => match p.2 with | .ats _ _ => true | _ => false) with
        | some (_, .ats page _) => .hold (m.askAts part page)
        | _ =>
          let id := m.nextId
          let lanes := places.filterMap (fun p =>
            match p.2 with
            | .ok a t =>
              some ({ lane := p.1, addr := a, tgt := t, data := BitVec.ofNat 128 (m.runVal g f.vds.toNat f.run p.1 % 2 ^ (8 * accBytes f)),
                      swap := BitVec.ofNat 64 (if cas then m.runVal g (f.vds.toNat + f.run) f.run p.1 else 0),
                      sent := (match t with | .window _ _ _ => false | _ => true), done := false, noFill := false } : LaneAcc)
            | _ => none)
          let m := if f.space == .global || f.space == .streaming then lanes.foldl (fun m l => m.noteTlb (coreOf g) part l.addr) m else m
          let op : MemOp :=
            { id := id, gid := g, krn := k, core := coreOf g, block := (m.grp g).block, part := part, kind := kind, bytes := accBytes f,
              vds := f.vds.toNat, lanes := lanes, space := f.space, ord := f.ord, eve := f.eve, ec := f.ec.toNat,
              lc := f.lc && (m.krn k).lc, retried := false }
          .go { m.bumpId with ops := m.ops ++ [op] }) s

/-- LD (R112, R120, R121): the load is outstanding until its data returns. -/
def execLd (g : Nat) (f : FmtM) (s : State) : Out := runM g (.ld g f) f .load s

/-- ST (R112, R120, R121): the store is outstanding until it is performed. -/
def execSt (g : Nat) (f : FmtM) (s : State) : Out := runM g (.st g f) f .store s

/-- AT_ADD (R124, R252). -/
def execAtAdd (g : Nat) (f : FmtM) (s : State) : Out := runM g (.atAdd g f) f (.atomic .add) s

/-- AT_MINS (R124, R252). -/
def execAtMins (g : Nat) (f : FmtM) (s : State) : Out := runM g (.atMins g f) f (.atomic .mins) s

/-- AT_MINU (R124, R252). -/
def execAtMinu (g : Nat) (f : FmtM) (s : State) : Out := runM g (.atMinu g f) f (.atomic .minu) s

/-- AT_MAXS (R124, R252). -/
def execAtMaxs (g : Nat) (f : FmtM) (s : State) : Out := runM g (.atMaxs g f) f (.atomic .maxs) s

/-- AT_MAXU (R124, R252). -/
def execAtMaxu (g : Nat) (f : FmtM) (s : State) : Out := runM g (.atMaxu g f) f (.atomic .maxu) s

/-- AT_AND (R124, R252). -/
def execAtAnd (g : Nat) (f : FmtM) (s : State) : Out := runM g (.atAnd g f) f (.atomic .and) s

/-- AT_OR (R124, R252). -/
def execAtOr (g : Nat) (f : FmtM) (s : State) : Out := runM g (.atOr g f) f (.atomic .or) s

/-- AT_XOR (R124, R252). -/
def execAtXor (g : Nat) (f : FmtM) (s : State) : Out := runM g (.atXor g f) f (.atomic .xor) s

/-- AT_XCHG (R124, R252). -/
def execAtXchg (g : Nat) (f : FmtM) (s : State) : Out := runM g (.atXchg g f) f (.atomic .xchg) s

/-- AT_CAS (R124, R252). -/
def execAtCas (g : Nat) (f : FmtM) (s : State) : Out := runM g (.atCas g f) f (.atomic .cas) s

/-- AT_FADD (R124, R252). -/
def execAtFadd (g : Nat) (f : FmtM) (s : State) : Out := runM g (.atFadd g f) f (.atomic .fadd) s

/-- RED_ADD (R124, R273). -/
def execRedAdd (g : Nat) (f : FmtM) (s : State) : Out := runM g (.redAdd g f) f (.red .add) s

/-- RED_MINS (R124, R273). -/
def execRedMins (g : Nat) (f : FmtM) (s : State) : Out := runM g (.redMins g f) f (.red .mins) s

/-- RED_MINU (R124, R273). -/
def execRedMinu (g : Nat) (f : FmtM) (s : State) : Out := runM g (.redMinu g f) f (.red .minu) s

/-- RED_MAXS (R124, R273). -/
def execRedMaxs (g : Nat) (f : FmtM) (s : State) : Out := runM g (.redMaxs g f) f (.red .maxs) s

/-- RED_MAXU (R124, R273). -/
def execRedMaxu (g : Nat) (f : FmtM) (s : State) : Out := runM g (.redMaxu g f) f (.red .maxu) s

/-- RED_AND (R124, R273). -/
def execRedAnd (g : Nat) (f : FmtM) (s : State) : Out := runM g (.redAnd g f) f (.red .and) s

/-- RED_OR (R124, R273). -/
def execRedOr (g : Nat) (f : FmtM) (s : State) : Out := runM g (.redOr g f) f (.red .or) s

/-- RED_XOR (R124, R273). -/
def execRedXor (g : Nat) (f : FmtM) (s : State) : Out := runM g (.redXor g f) f (.red .xor) s

/-- RED_FADD (R124, R273). -/
def execRedFadd (g : Nat) (f : FmtM) (s : State) : Out := runM g (.redFadd g f) f (.red .fadd) s

/-- ACCESS_PERFORMED (R121, R142, R263, R266, R431, R435, R527): the lanes of an access that lie in a line (every lane of a local one) take
effect at their coherence point, once the access is released and its group's order lets them; the frames of its window lanes leave.
`tailBad` is a mismatch found on the way. -/
def execAccessPerformed (op line : Nat) (tailBad : Bool) (s : State) : Out :=
  s.run fun m =>
    if hbmLines ≤ line && decide (line < 2 ^ 46) then .fault .notMappable
    else
      let m := m.sendLanes op tailBad
      match m.ops.find? (fun o => o.id == op) with
      | none => .next m
      | some o =>
        let ls := o.lanes.filter (fun l => !l.done && m.inOrder o l && (o.isLocal || l.tgt.lineKey == some line))
        if ls.isEmpty || !m.released o then .next m
        else
          match o.kind with
          | .load => .next ((m.loadLanes o (fun l => ls.any (fun x => x.lane == l.lane))).2.2.settleOp op)
          | .store => .next (m.runStore o ls line tailBad)
          | .atomic a => .next (m.runAtoms o a false (tailBad && !o.isLocal) ls)
          | .red a => .next (m.runAtoms o a true (tailBad && !o.isLocal) ls)

/-- A register of a run as a load writes it: the bits above a load of 1 or 2 bytes are open (log 29). -/
def Mach.regOf (m : Mach) (o : MemOp) (l : LaneAcc) (i : Nat) : Nat :=
  let x := l.data.toNat / 2 ^ (32 * i) % 2 ^ 32
  if o.bytes < 4 then x + (Config.loadUpper (m.free + l.lane)).toNat / 2 ^ (8 * o.bytes) * 2 ^ (8 * o.bytes) else x

/-- Writes the registers of a load or atomic whose data has returned. -/
def Mach.writeBack (m : Mach) (o : MemOp) : Mach :=
  if (m.grp o.gid).live && m.krnOf o.gid == o.krn then
    let m' := o.lanes.foldl (fun m' l =>
      (List.range (Nat.max 1 (o.bytes / 4))).foldl (fun m' i => m'.vPut o.gid (o.vds + i) l.lane (m.regOf o l i)) m') m
    if o.bytes < 4 then { m' with free := m'.free + 32 } else m'
  else m

/-- LOAD_DATA_RETURN (R140, R263, R267, R274, R526, R531): what is still to be loaded is, the data is checked, the registers are
written, and an acquire invalidates the L1.  The retry of a mismatch asks again for data whose value is fixed. -/
def execLoadDataReturn (op : Nat) (tailBad : Bool) (s : State) : Out :=
  s.run fun m =>
    match m.ops.find? (fun o => o.id == op) with
    | none => .next m
    | some o =>
      let go := fun (m : Mach) =>
        match m.ops.find? (fun x => x.id == op) with
        | none => m
        | some o =>
          if !o.lanes.all (·.done) then m
          else if tailBad && !o.isLocal then
            if o.retried then (match o.lanes with | l :: _ => m.faultOp o fTail l | [] => m)
            else
              m.modOp op (fun x => { x with retried := true })
          else
            let m := if o.retried then m.eventAt 0x3 0 (dieOfCluster (clusterOf o.core)) (clusterOf o.core) (logicalOf o.core) else m
            (m.writeBack o).endOp o
      match o.kind with
      | .load =>
        match m.loadLanes o (fun _ => true) with
        | (some (line, l), _, m) =>
          let num := (m.krn o.krn).num
          let m := if line < 2 ^ 46 then m.deferred 0x11 line o.part num else m.hostPoison (64 * (line - 2 ^ 46)) o.part num
          .next (m.faultOp o fPoison l)
        | (none, _, m) => .next ((go m).wake o.gid)
      | .atomic _ => .next (go m)
      | _ => .next m

end Sys2Proof.Machine
end

