-- ==== Sys2Proof/Machine/Ordering.lean ====
section
/-! DEFINITION. Machine/Ordering.lean: the Ordering Units: ORD.*, rows, completion and reset (R126, R163 to R185, R192, R195). -/

namespace Sys2Proof.Machine

/-! Descriptors (Table 07.1). -/

/-- The fields of a descriptor's 64 bytes. -/
def ordFields (b : List Byte) : OrdFields :=
  { inp := BitVec.ofNat 64 (fieldAt b 8 8), out := BitVec.ofNat 64 (fieldAt b 16 8), aux := BitVec.ofNat 64 (fieldAt b 24 8),
    scratch := BitVec.ofNat 64 (fieldAt b 32 8), n := fieldAt b 40 4, k := fieldAt b 44 4, d := fieldAt b 48 2, rows := fieldAt b 50 2,
    ctrl := BitVec.ofNat 32 (fieldAt b 52 4), temp := BitVec.ofNat 32 (fieldAt b 56 4), stride := fieldAt b 60 4 }

/-- CTRL's fields: TYPE, largest-first, METRIC. -/
def OrdFields.ty (f : OrdFields) : Option OrdTy := ordTy (f.ctrl.toNat % 16)
def OrdFields.largest (f : OrdFields) : Bool := !f.ctrl.getLsbD 4
def OrdFields.metric (f : OrdFields) : Nat := f.ctrl.toNat / 32 % 4

/-- Bytes of an element; 1 where TYPE is unassigned. -/
def OrdFields.size (f : OrdFields) : Nat := match f.ty with | some t => t.bytes | none => 1

/-- Indices per row, J (R169, R174). -/
def ordJ (op : OrdOp) (f : OrdFields) : Nat :=
  match op with
  | .sort => f.n
  | .argmax | .sample => 1
  | _ => f.k

/-- The row takes band C (R177, R178). -/
def bandC (op : OrdOp) (f : OrdFields) : Bool :=
  match op with
  | .sort | .topk | .nearest => decide (4096 < Nat.min (ordJ op f) f.n)
  | _ => false

/-- Bytes of one row, or of one vector (R168). -/
def rowBytes (op : OrdOp) (f : OrdFields) : Nat := f.size * (if op == .nearest then f.d else f.n)

/-- The TYPE is accepted by the operation (R168). -/
def ordTyOk (op : OrdOp) (f : OrdFields) : Bool :=
  match f.ty with
  | none => false
  | some .s8 => op == .nearest
  | some t => op != .sample || t.bytes == 2 || t == .f32

/-- TEMP is a temperature: not negative, infinite or NaN (R168). -/
def tempOk (t : Word) : Bool := t.toNat < 0x7F800000 || t == 0x80000000

/-- A 52-bit address. -/
def addrOk (a : DWord) : Bool := decide (a.toNat < 2 ^ 52)

/-- The checks of R168 in the order of the fields, each with its byte offset. DEDUCED: log 63. -/
def ordChecks (op : OrdOp) (f : OrdFields) : List (Nat × Bool) :=
  let uses := op == .nearest || op == .search
  [(8, addrOk f.inp && f.inp.toNat % f.size == 0),
   (16, addrOk f.out && f.out.toNat % 4 == 0),
   (24, if uses then addrOk f.aux && f.aux.toNat % f.size == 0 else f.aux == 0),
   (32, if bandC op f then addrOk f.scratch && f.scratch != 0 else f.scratch == 0),
   (40, decide (1 ≤ f.n) && decide (f.n ≤ 2 ^ 31)),
   (48, if op == .nearest then decide (1 ≤ f.d) && decide (f.d ≤ 4096) else f.d == 0),
   (50, decide (1 ≤ f.rows) && (op != .search || f.rows == 1)),
   (52, ordTyOk op f && decide (f.ctrl.toNat < 128) && f.metric != 3),
   (56, if op == .sample then tempOk f.temp else f.temp == 0),
   (60, decide (rowBytes op f ≤ f.stride) && f.stride % f.size == 0)]

/-- The offset of the first offending field. DEDUCED: log 63. -/
def ordBad (op : OrdOp) (f : OrdFields) : Option Nat := ((ordChecks op f).find? (fun c => !c.2)).map (·.1)

/-- SAMPLE at a temperature above 0 draws (R175). -/
def ordDraws (op : OrdOp) (f : OrdFields) : Bool := op == .sample && f.temp.toNat % 2 ^ 31 != 0

/-! Issue (R126, R163, R164, R167, R192). -/

/-- The queue of a cluster's unit. -/
def Mach.modOrd (m : Mach) (c : Nat) (f : List OrdDesc → List OrdDesc) : Mach := m.modClu c (fun x => { x with ordq := f x.ordq })

/-- A descriptor enters the queue; with EVE = 0 the group waits for it (R126). DEDUCED: log 34. -/
def enterOrd (m : Mach) (g : Nat) (d : OrdDesc) : Eff :=
  let m := m.bumpId.modOrd (clusterOf d.core) (· ++ [d])
  .go (if d.eve then m else m.modGrp g (fun x => { x with wait := .op d.id }))

/-- Issues an ORD word: the unit reads the descriptor and checks its fields at issue, so that a later write of the descriptor changes nothing
(DESIGN CHOICE, log 130).  SAMPLE notes whether the stream was unseeded, a greedy one too (R176; DEDUCED, log 131). -/
def runOrd (g : Nat) (i : Instr) (op : OrdOp) (f : FmtS) (s : State) : Out :=
  runS g i f [] (fun m =>
    let k := m.krnOf g
    let part := (m.krn k).part
    let va := m.uPair g f.ua.toNat
    if !m.storesPerformed g || decide (32 ≤ (m.clu (clusterOf (coreOf g))).ordq.length) then .hold m
    else if va % 64 != 0 || decide (2 ^ 52 ≤ va) || !m.mappedFor part .write va 64 then .fault fAddress (some (va % 2 ^ 52)) m
    else
      let desc := fun (fs : OrdFields) (status : Option (Nat × Nat)) (m : Mach) =>
        ({ id := m.nextId, op := op, gid := g, krn := k, core := coreOf g, va := va, f := fs, row := 0, status := status, eve := f.eve,
           ec := f.ec.toNat, lanes := [], unseeded := false } : OrdDesc)
      match m.vreadFor (some (halfOfCore (coreOf g))) (m.krn k).num part va 64 .read with
      | .waits m => .hold m
      | .fault => .fault fAddress (some va) m
      | .poisoned m => enterOrd m g (desc (ordFields []) (some (stPoisoned, 0)) m)
      | .ok b m =>
        let fs := ordFields b
        match ordBad op fs with
        | some off => enterOrd m g (desc fs (some (stInvalid, off)) m)
        | none =>
          if ordDraws op fs then
            drawing m g (fun m =>
              let x := m.grp g
              enterOrd ((m.modGrp g (fun x => { x with lent := true })).noteDraw g) g
                { desc fs none m with lanes := x.lanes, unseeded := x.seeding == .trueRandom })
          else enterOrd m g { desc fs none m with unseeded := op == .sample && (m.grp g).seeding != .seeded }) s

/-- ORD_SORT (R172). -/
def execOrdSort (g : Nat) (f : FmtS) (s : State) : Out := runOrd g (.ordSort g f) .sort f s

/-- ORD_TOPK (R172). -/
def execOrdTopk (g : Nat) (f : FmtS) (s : State) : Out := runOrd g (.ordTopk g f) .topk f s

/-- ORD_ARGMAX (R172). -/
def execOrdArgmax (g : Nat) (f : FmtS) (s : State) : Out := runOrd g (.ordArgmax g f) .argmax f s

/-- ORD_NEAREST (R173). -/
def execOrdNearest (g : Nat) (f : FmtS) (s : State) : Out := runOrd g (.ordNearest g f) .nearest f s

/-- ORD_SEARCH (R174). -/
def execOrdSearch (g : Nat) (f : FmtS) (s : State) : Out := runOrd g (.ordSearch g f) .search f s

/-- ORD_SAMPLE (R175, R192). -/
def execOrdSample (g : Nat) (f : FmtS) (s : State) : Out := runOrd g (.ordSample g f) .sample f s

/-! Rows (R169, R172 to R175). -/

/-- The elements of `n` items of `w` bytes. -/
def elemsOf (w n : Nat) (b : List Byte) : List Nat := (List.range n).map (fun i => fieldAt b (w * i) w)

/-- The exact value of an element. -/
def ordVal (t : OrdTy) (x : Nat) : Val :=
  match t with
  | .f32 => f32.decode x
  | .bf16 => bf16.decode x
  | .f16 => fp16.decode x
  | .s32 => Val.ofInt (sgn 32 x)
  | .u32 => Val.ofInt (x : Int)
  | .s8 => Val.ofInt (sgn 8 x)

/-- A magnitude. -/
def valAbs : Val → Val
  | .fin _ m e => .fin false m e
  | .inf _ => .inf false
  | v => v

/-- One dimension's term (R173): (c - q)^2, c x q or |c - q|. -/
def distTerm (metric : Nat) (c q : Val) : Val :=
  let d := Val.add .nearest c q.neg
  if metric = 0 then Val.mul d d else if metric = 1 then Val.mul c q else valAbs d

/-- The distance of two vectors: chunks of 32 dimensions, one rounding each (R173). -/
def distance (t : OrdTy) (metric : Nat) (c q : List Nat) : Nat :=
  let terms := (c.zip q).map (fun e => distTerm metric (ordVal t e.1) (ordVal t e.2))
  (List.range ((terms.length + 31) / 32)).foldl (fun acc i =>
    f32.encode .nearest 0 (Val.add .nearest (f32.decode acc) (sumVals ((terms.drop (32 * i)).take 32)))) 0

/-- Draws per lane of one SAMPLE row (R175). DEDUCED: log 62. -/
def sampleDraws (n : Nat) : Nat := (n + 31) / 32

/-- The draws of one row by lane, and the lanes after them. -/
def rowDraws (n : Nat) (lanes : Tbl RngLane) : List (List Word) × Tbl RngLane :=
  let r := (List.range 32).map (fun l => drawN l (sampleDraws n) (laneOf lanes l))
  (r.map (·.1), r.zipIdx.map (fun e => (e.2, e.1.2)))

/-- SAMPLE's index over the scores of a row (R175). DEDUCED: log 62. -/
def sampleIndex (t : OrdTy) (temp : Nat) (xs : List Nat) (draws : List (List Word)) : Nat :=
  let keys := xs.zipIdx.map (fun e =>
    let g := gumbelG (nth 0 (nth [] draws (e.2 % 32)) (e.2 / 32)).toNat
    orderKey .f32 true (f32.encode .nearest 0 (Val.add .nearest (Val.mul (f32.decode temp) (f32.decode g)) (ordVal t e.1))))
  (orderOf keys).headD 0

/-- The indices of a row over its keys (R172). -/
def rowIndices (op : OrdOp) (f : OrdFields) (keys : List Nat) : List Nat :=
  match op with
  | .sort => orderOf keys
  | .argmax | .sample => (orderOf keys).take 1
  | _ => topkOf keys f.k

/-- What serving a row meets. -/
inductive RowRes where
  | ok (indices : List Nat) (lanes : Tbl RngLane) (m : Mach)
  | poisoned (m : Mach)
  | fault (va : Nat) (m : Mach)
  | waits (m : Mach)

/-- The half whose RLC the unit of a descriptor's cluster uses (R215). -/
def OrdDesc.half (d : OrdDesc) : Option Nat := some (halfOfCore d.core)

/-- Reads a range for a row. -/
def rowRead (m : Mach) (d : OrdDesc) (part va n : Nat) (k : List Byte → Mach → RowRes) : RowRes :=
  match m.vreadFor d.half (m.krn d.krn).num part va n .read with
  | .ok b m => k b m
  | .poisoned m => .poisoned m
  | .fault => .fault (va % 2 ^ 52) m
  | .waits m => .waits m

/-- Reads the candidate vectors of NEAREST. DESIGN CHOICE: log 35. -/
def readVectors (m : Mach) (d : OrdDesc) (part base : Nat) : Nat → List (List Nat) → (List (List Nat) → Mach → RowRes) → RowRes
  | 0, acc, k => k acc m
  | n + 1, acc, k =>
    rowRead m d part (base + n * d.f.stride) (d.f.size * d.f.d) (fun b m => readVectors m d part base n (elemsOf d.f.size d.f.d b :: acc) k)

/-- Computes row `d.row` of a descriptor. DESIGN CHOICE: log 35. -/
def Mach.serveRow (m : Mach) (part : Nat) (d : OrdDesc) : RowRes :=
  let f := d.f
  let t := (f.ty).getD .f32
  let w := f.size
  if d.op == .nearest then
    rowRead m d part (f.aux.toNat + d.row * f.d * w) (w * f.d) (fun q m =>
      readVectors m d part f.inp.toNat f.n [] (fun cs m =>
        let keys := cs.map (fun c => orderKey .f32 (f.metric == 1) (distance t f.metric c (elemsOf w f.d q)))
        .ok (rowIndices .nearest f keys) d.lanes m))
  else
    rowRead m d part (f.inp.toNat + d.row * f.stride) (w * f.n) (fun b m =>
      let xs := elemsOf w f.n b
      if d.op == .search then
        rowRead m d part f.aux.toNat (w * f.k) (fun q m =>
          let row := xs.map (orderKey t f.largest)
          .ok ((elemsOf w f.k q).map (fun x => lowerBound row (orderKey t f.largest x) 32 0 f.n)) d.lanes m)
      else if ordDraws d.op f then
        let r := rowDraws f.n d.lanes
        .ok [sampleIndex t f.temp.toNat xs r.1] r.2 m
      else .ok (rowIndices d.op f (xs.map (orderKey t (d.op == .sample || f.largest)))) d.lanes m)

/-! Overlaps (R180, R182). -/

/-- The places of a virtual range, as (address, length); host addresses stand above device ones. -/
def Mach.spots (m : Mach) (part va n : Nat) : List (Nat × Nat) :=
  (pieces va n).filterMap (fun pc =>
    match m.translate part .read pc.1 with
    | .ok (.hbm pa) => some (pa, pc.2)
    | .ok (.host ha) => some (2 ^ 64 + ha, pc.2)
    | _ => none)

/-- Two virtual ranges share a byte. -/
def Mach.meets (m : Mach) (part a na b nb : Nat) : Bool :=
  let y := m.spots part b nb
  (m.spots part a na).any (fun p => y.any (fun q => overlap p.1 p.2 q.1 q.2))

/-- The input of rows `from_` to the last of a descriptor, as a range. -/
def OrdDesc.inputFrom (d : OrdDesc) (from_ : Nat) : Nat × Nat :=
  let n := if d.op == .nearest then d.f.n else d.f.rows
  let lo := if d.op == .nearest then 0 else from_
  (d.f.inp.toNat + lo * d.f.stride, if n ≤ lo then 0 else (n - 1 - lo) * d.f.stride + rowBytes d.op d.f)

/-- Bytes of a descriptor's AUX area. -/
def OrdDesc.auxLen (d : OrdDesc) : Nat :=
  match d.op with
  | .nearest => d.f.rows * d.f.d * d.f.size
  | .search => d.f.k * d.f.size
  | _ => 0

/-- The ranges of a descriptor overlap as R180 and R182 forbid: its scratch area meets another, or its indices meet its operands, but for an
index of ARGMAX or SAMPLE in rows read before it. -/
def Mach.ordOverlaps (m : Mach) (part : Nat) (d : OrdDesc) : Bool :=
  let j := 4 * ordJ d.op d.f
  let out := d.f.out.toNat
  let inp := d.inputFrom 0
  let outs := (out, j * d.f.rows)
  let aux := (d.f.aux.toNat, d.auxLen)
  let desc := (d.va, 64)
  let scratch := (d.f.scratch.toNat, if bandC d.op d.f then 16 * d.f.n else 0)
  let meet := fun (a b : Nat × Nat) => m.meets part a.1 a.2 b.1 b.2
  let own := if d.op == .argmax || d.op == .sample then
      (List.range d.f.rows).any (fun r => meet (out + j * r, j) (d.inputFrom (r + 1)))
    else meet outs inp
  [inp, outs, aux, desc].any (meet scratch) || own || meet outs aux || meet outs desc

/-- The indices that a row writes: those of its operands, or, where its ranges overlap, free values (R180; log 36). -/
def Mach.rowOut (m : Mach) (part : Nat) (d : OrdDesc) (idx : List Nat) : List Nat × Mach :=
  if m.ordOverlaps part d then ((List.range idx.length).map (fun i => (Config.ordIndex m.free i).toNat), m.bumpFree) else (idx, m)

/-- The scratch area of a band C row takes bytes that software must not rely on (R180; log 36). -/
def Mach.useScratch (m : Mach) (part : Nat) (d : OrdDesc) : VWrite :=
  if bandC d.op d.f then
    match m.vwriteFor d.half (m.krn d.krn).num part d.f.scratch.toNat ((List.range (16 * d.f.n)).map (Config.scratchByte m.free)) with
    | .ok m => .ok m.bumpFree
    | r => r
  else .ok m

/-- The descriptor whose row comes next: latency-critical first, then the earliest accepted (R165). -/
def Mach.nextOrd (m : Mach) (c : Nat) : Option OrdDesc :=
  let q := (m.clu c).ordq.filter (fun d => d.status == none && decide (d.row < d.f.rows))
  match q.find? (fun d => (m.krn d.krn).lc) with
  | some d => some d
  | none => q.head?

/-- Changes a descriptor in its queue. -/
def Mach.modDesc (m : Mach) (c id : Nat) (f : OrdDesc → OrdDesc) : Mach := m.modOrd c (fun q => q.map (fun (d : OrdDesc) => if d.id == id then f d else d))

/-- A row met a page with no valid mapping: status ABORTED is written and ADDRESS_FAULT raised (R184). -/
def Mach.ordFault (m : Mach) (c part : Nat) (d : OrdDesc) (va : Nat) : Mach :=
  match m.vwriteFor d.half (m.krn d.krn).num part d.va (leBytes 8 (statusWord stAborted 0).toNat) with
  | .waits m => m
  | .ok m => (m.modOrd c (fun q => q.filter (fun (x : OrdDesc) => x.id != d.id))).abortKrn d.krn fAddress (some va)
  | .fault => (m.modOrd c (fun q => q.filter (fun (x : OrdDesc) => x.id != d.id))).abortKrn d.krn fAddress (some va)

/-- ORD_ROW_BOUNDARY (R165, R169, R179, R180, R183, R184, R526): the unit reads the next row, every element at this one moment, and writes its indices
(DESIGN CHOICE, log 129).  A Tail mismatch that stays ends the descriptor with POISONED, detail 1. -/
def execOrdRowBoundary (turn : OrdTurn) (s : State) : Out :=
  s.run fun m =>
    let cluster := turn.cluster
    if 64 ≤ cluster then .refused .noSuchUnit
    else
      match m.nextOrd cluster with
      | none => .next m
      | some d =>
        let part := (m.krn d.krn).part
        match m.serveRow part d with
        | .waits m => .next m
        | .poisoned m => .next (m.modDesc cluster d.id (fun x => { x with status := some (stPoisoned, d.row % 65536) }))
        | .fault va m => .next (m.ordFault cluster part d va)
        | .ok idx lanes m =>
          let m := m.reread turn.check (dieOfCluster cluster) cluster
          let r := m.rowOut part d idx
          if turn.check == .bad then .next (m.modDesc cluster d.id (fun x => { x with status := some (stPoisoned, 1) }))
          else match r.2.useScratch part d with
          | .waits m => .next m
          | .fault => .next (m.ordFault cluster part d d.f.scratch.toNat)
          | .ok m =>
            let out := d.f.out.toNat + 4 * ordJ d.op d.f * d.row
            match m.vwriteFor d.half (m.krn d.krn).num part out (r.1.flatMap (leBytes 4)) with
            | .waits m => .next m
            | .fault => .next (m.ordFault cluster part d (out % 2 ^ 52))
            | .ok m => .next (m.modDesc cluster d.id (fun x => { x with row := d.row + 1, lanes := lanes }))

/-! Completion (R126, R166, R176, R192). -/

/-- The descriptor has nothing left to serve. -/
def OrdDesc.finished (d : OrdDesc) : Bool := d.status != none || decide (d.f.rows ≤ d.row)

/-- The lane states go back to the group, advanced by the whole reservation (R192). -/
def Mach.returnLanes (m : Mach) (c : Nat) (d : OrdDesc) : Mach :=
  if d.lanes.isEmpty || !ordDraws d.op d.f then m
  else
    let rest := (d.f.rows - d.row) * sampleDraws d.f.n
    let lanes : Tbl RngLane := (List.range 32).foldl (fun t l => tput RngLane.zero t l (drawN l rest (laneOf d.lanes l)).2) []
    let m := m.modDesc c d.id (fun x => { x with lanes := [] })
    if (m.grp d.gid).live && m.krnOf d.gid == d.krn then m.modGrp d.gid (fun x => { x with lanes := lanes, lent := false }) else m

/-- SAMPLE_STATE_RETURN (R192). -/
def execSampleStateReturn (cluster : Nat) (s : State) : Out :=
  s.run fun m =>
    if 64 ≤ cluster then .refused .noSuchUnit
    else
      match (m.clu cluster).ordq.find? (fun d => d.finished && ordDraws d.op d.f && !d.lanes.isEmpty) with
      | some d => .next (m.returnLanes cluster d)
      | none => .next m

/-- The status of a finished descriptor. -/
def OrdDesc.word (d : OrdDesc) : DWord :=
  match d.status with
  | some (code, detail) => statusWord code detail
  | none => statusWord (if d.unseeded then stUnseeded else stOk) 0

/-- ORD_DESCRIPTOR_COMPLETE (R126, R166): the status word, then the increment. -/
def execOrdDescriptorComplete (cluster : Nat) (s : State) : Out :=
  s.run fun m =>
    if 64 ≤ cluster then .refused .noSuchUnit
    else
      match (m.clu cluster).ordq.find? (fun d => d.finished) with
      | none => .next m
      | some d =>
        let leave := fun (m : Mach) =>
          let m := (m.returnLanes cluster d).modOrd cluster (fun q => q.filter (fun (x : OrdDesc) => x.id != d.id))
          ((m.noteOp d.krn d.core).complete d.eve d.krn d.core d.ec).opDone d.gid d.id
        match m.vwriteFor d.half (m.krn d.krn).num (m.krn d.krn).part d.va (leBytes 8 d.word.toNat) with
        | .waits m => .next m
        | .fault => .next ((m.modOrd cluster (fun q => q.filter (fun (x : OrdDesc) => x.id != d.id))).abortKrn d.krn fAddress (some d.va))
        | .ok m => .next (leave m)

/-- ORD_UNIT_RESET (R185): an uncorrectable error inside the unit ends the current descriptor with ABORTED, the one whose row the unit would
serve next (DESIGN CHOICE, log 132); the device ring and the partition's ring take a record of code 0x28, also where none is queued. -/
def execOrdUnitReset (cluster : Nat) (s : State) : Out :=
  s.run fun m =>
    if 64 ≤ cluster then .refused .noSuchUnit
    else
      let report := fun (m : Mach) (part num : Nat) =>
        let r := { RasRec.mk0 0x28 2 part num m.now with die := dieOfCluster cluster, place := cluster }
        if part = 0 then m.logDev r else (m.logDev r).logPart part r
      match m.nextOrd cluster with
      | none => .next (report m (m.clu cluster).owner 0)
      | some d =>
        let x := m.krn d.krn
        .next (report (m.modDesc cluster d.id (fun y => { y with status := some (stAborted, 0) })) x.part x.num)

end Sys2Proof.Machine
end

