-- ==== Sys2Proof/Machine/Rng.lean ====
section
/-! DEFINITION. Machine/Rng.lean: the RNG instructions (R129, R191, R192, R194 to R198, R202, R205). -/

namespace Sys2Proof.Machine

/-- An RNG instruction that draws: one draw per lane, in the order in which the group issues (R192, R196). -/
def runRng (g : Nat) (i : Instr) (f : FmtS) (value : Mach → Nat → Nat) (s : State) : Out :=
  runS g i f [f.vx.toNat] (fun m =>
    drawing m g (fun m =>
      let r := m.drawFor g (List.range 32)
      .go ((List.range 32).foldl (fun m' l => m'.vPut g f.vx.toNat l (value m (tget 0 r.1 l).toNat)) r.2))) s

/-- RNG_U32 (R196). -/
def execRngU32 (g : Nat) (f : FmtS) (s : State) : Out := runRng g (.rngU32 g f) f (fun _ d => d) s

/-- RNG_U24 (R196): (d >> 8) x 2^-24, exact in f32. -/
def execRngU24 (g : Nat) (f : FmtS) (s : State) : Out :=
  runRng g (.rngU24 g f) f (fun _ d => f32.encode .nearest 0 (.fin false (d / 256) (-24))) s

/-- RNG_BERN (R196). -/
def execRngBern (g : Nat) (f : FmtS) (s : State) : Out :=
  runRng g (.rngBern g f) f (fun m d => if d < m.uGet g f.ua.toNat then 1 else 0) s

/-- RNG_NORM (R196, R197): fma(sigma, z, mu). -/
def execRngNorm (g : Nat) (f : FmtS) (s : State) : Out :=
  runRng g (.rngNorm g f) f (fun m d =>
    f32.fma .nearest 0 (m.uGet g (f.ua.toNat + 1)) (normalZ d) (m.uGet g f.ua.toNat)) s

/-- RNG_GUMBEL (R196, R198): beta x g. -/
def execRngGumbel (g : Nat) (f : FmtS) (s : State) : Out :=
  runRng g (.rngGumbel g f) f (fun m d => f32.mul .nearest 0 (m.uGet g f.ua.toNat) (gumbelG d)) s

/-- RNG_KEY (R191): reseeds the group's 32 streams; not ready while they are lent (R192). -/
def execRngKey (g : Nat) (f : FmtS) (s : State) : Out :=
  runS g (.rngKey g f) f [] (fun m =>
    let x := m.grp g
    let u := fun i => m.uGet g (f.ua.toNat + i)
    let key : BitVec 128 := BitVec.ofNat 128 (u 0 + 2 ^ 32 * u 1 + 2 ^ 64 * u 2 + 2 ^ 96 * u 3)
    if x.lent then .hold m
    else
      .go (m.setGrp g { x with seeding := .seeded,
                               lanes := seedGroup key (m.blk x.block).id x.index (BitVec.ofNat 32 (m.uGet g f.ub.toNat)) })) s

end Sys2Proof.Machine
end

