-- ==== Sys2Proof/Machine/Start.lean ====
section
/-! DEFINITION. Machine/Start.lean: the pins, the cold start and its phases, cold and warm resets, and the management bus (R23, R30,
R37, R40 to R43, R51, R504, R519, R539, R540, R556 to R576). -/

namespace Sys2Proof.Machine

/-! What resets keep (Table 21.2, R513, R567, R568). -/

/-- The partitions' owner generations outlive every reset: Crescent counts on them (R476; DEDUCED, log 22).  A warm reset keeps the
partition rings too. -/
def Mach.keptParts (m : Mach) (rings : Bool) : Tbl Part :=
  (m.parts.filter (fun e => decide (e.1 ≤ 64))).foldl (fun t e =>
    tput Part.reset t e.1 { Part.reset with gen := e.2.gen, ring := if rings then e.2.ring else [], ringNext := if rings then e.2.ringNext else 0 }) []

/-- Fuses and the key vault (R490, R501). -/
def Sec.kept (x : Sec) : Sec :=
  { Sec.reset with life := x.life, serial := x.serial, minSvn := x.minSvn, owner := x.owner, vaultA := x.vaultA, vaultB := x.vaultB,
                   trngOk := x.trngOk, nonce := x.nonce }

/-- The host side with nothing but its pins and the strap as sampled. -/
def HostSt.kept (h : HostSt) : HostSt :=
  { HostSt.reset with bifurc := h.bifurc, links := h.links.foldl (fun t e => tput HLink.reset t e.1 { HLink.reset with perst := e.2.perst }) [] }

/-- The scale-out side with the recorded configuration and routes (R563). -/
def Links.kept (x : Links) : Links := { Links.reset with recs := x.recs, recUni := x.recUni, recGrp := x.recGrp }

/-- X0's side of the metering is reset: its decision, its ledger and the METER mirror (R11, R567); Crescent itself runs on. -/
def Crescent.cut (c : Crescent) : Crescent :=
  { c with metering := false, engine := [], mirrorAt := 0, mirror := [], mirrorInterval := 0, mirrorEvents := 0 }

/-- The units that are retired, and, in a warm reset, those that Moon reserves. -/
def Mach.keptUnits (m : Mach) (moon : Bool) : Tbl HbmUnit :=
  m.mem.units.filter (fun e => e.2.use == .retired || e.2.failed || (moon && e.2.use == .firmware)) |>.map (fun e =>
    (e.1, if e.2.use == .firmware then e.2 else ⟨.retired, false, false⟩))

/-- The firmware slots, of secure flash. -/
def Moon.kept (a : Moon) : Moon := { Moon.reset with slotA := a.slotA, slotB := a.slotB, runsB := a.runsB, staged := a.staged }

/-- The device with all that a cold reset keeps: fuses, secure flash, Crescent, the pins and the strap (Table 21.2). -/
def Mach.coldReset (m : Mach) : Mach :=
  { Mach.reset with
    sec := m.sec.kept, moon := m.moon.kept, parts := m.keptParts false, host := m.host.kept, links := m.links.kept,
    ras := { Ras.reset with fatals := m.ras.fatals, flash := m.ras.flash, flashPages := m.ras.flashPages, phys := m.ras.flash,
                            rows := m.ras.flashRows, flashRows := m.ras.flashRows,
                            unitsRetired := m.ras.unitsRetired, direct := m.ras.direct &&& 1 },
    mem := { Mem.reset with retired := m.ras.flashPages, units := m.keptUnits false },
    cres := { m.cres.cut with probe := .ready }, pins := m.pins, nextId := m.nextId, out := m.out, free := m.free }

/-- A half after a warm reset: at OP2, with its PWR_DROOP (Table 21.2, R559). -/
def Half.warm (x : Half) : Half := { Half.reset with dCount := x.dCount, dMin := x.dMin, dDur := x.dDur }

/-- Power control after a warm reset: cap, mode, share table and PWR_OP_MAX stay. -/
def Power.warm (p : Power) : Power :=
  { Power.reset with
    cap := p.capNext, learner := p.learnerNext, shares := p.sharesNext, capNext := p.capNext, learnerNext := p.learnerNext,
    sharesNext := p.sharesNext, opMax := p.opMax, halves := p.halves.foldl (fun t e => tput Half.reset t e.1 e.2.warm) [] }

/-- The RAS registers and rings after a warm reset; a map whose flash write has failed is forgotten (R44, R544, R555, R584).
DEDUCED: log 48. DESIGN CHOICE: log 49. -/
def Ras.warm (r : Ras) : Ras :=
  let lost := fun die => tget 0 r.mapFails die != 0
  { Ras.reset with
    ring := r.ring, next := r.next, oldest := r.oldest, fatals := r.fatals, corrected := r.corrected, deferred := r.deferred,
    contained := r.contained, fatal := r.fatal, mask := r.mask, pend := r.pend, unitsRetired := r.unitsRetired, flash := r.flash,
    flashPages := r.flashPages, direct := r.direct &&& 0x1D,
    flashRows := r.flashRows, rowCorr := r.rowCorr, hbmRows := r.hbmRows,
    rows := r.rows.filter (fun e => !lost e.1) ++ r.flashRows.filter (fun e => lost e.1) |> sortBy (·.1),
    phys := r.phys.filter (fun e => !lost (e.1 / 272)) ++ r.flash.filter (fun e => lost (e.1 / 272)) |> sortBy (·.1) }

/-- Steps 2 and 3 of a warm reset (R566, R567, R568): issue stops, every host link goes down, every partition is gone; phase 2 begins.
X0's Tide goes on. -/
def Mach.warmReset (m : Mach) : Mach :=
  let retired := if tget 0 m.ras.mapFails 0 = 0 then m.mem.retired else m.ras.flashPages
  let r :=
    { Mach.reset with
      sec := m.sec.kept, parts := m.keptParts true, host := m.host.kept, links := m.links.kept, ras := m.ras.warm, power := m.power.warm,
      moon := { m.moon.kept with count := m.moon.count, crashes := m.moon.crashes, crashNext := m.moon.crashNext, heldRecs := m.moon.heldRecs },
      mem := { Mem.reset with retired := retired, units := m.keptUnits true, poisonHist := m.mem.poisonHist,
                              retireWhenFree := m.mem.retireWhenFree, hbm := m.mem.hbm, hbmPoison := m.mem.hbmPoison, hbmErr := m.mem.hbmErr,
                              lineKey := m.mem.lineKey },
      cres := m.cres.cut, pins := m.pins, clk := { m.clk with aligned := false, lcLate := [] },
      start := { Start.reset with phase := .run 2, base := m.now, warm := true, fails := m.start.fails, reserved := m.start.reserved },
      nextId := m.nextId, out := m.out, free := m.free }
  r.retireFreed

/-! Pins (R30, R37, R40, R42, R572). -/

/-- A cold start begins when PWRGD_MAIN and DEV_RST_N are both high, unless THERMTRIP_N is latched or a rail was out of tolerance
(R30, R40, R558). DESIGN CHOICE: log 45. -/
def Mach.tryStart (m : Mach) : Mach :=
  if m.pins.pwrgd && m.pins.devRst && m.pins.thermtrip && !m.ras.direct.getLsbD 0 then
    (m.modStart (fun x => { x with phase := .run 1 })).modHost (fun h => { h with bifurc := m.pins.bifurc })
  else m

/-- PWRGD_MAIN_RISE (R30, R37, R558): a rail of steps 1 to 6 that is out of tolerance keeps the device in reset with
ALERT_N low. -/
def execPwrgdMainRise (board : BoardState) (s : State) : Out :=
  s.run fun m =>
    let m1 := ({ m with pins := { m.pins with pwrgd := true, badRails := board.bad, bifurc := board.bifurc } }).coldReset
    let m1 := m1.modRas (fun r => { r with direct := if board.bad = 0 then 0 else 1 })
    gate m (!m.pins.pwrgd) m1.tryStart

/-- PWRGD_MAIN_FALL (R29, R37, R513, R516, R572): all activity stops, and what is not in fuses, flash or Crescent is lost. -/
def execPwrgdMainFall (s : State) : Out :=
  s.run fun m =>
    let m1 := ({ m.tornUpdate with pins := { m.pins with pwrgd := false, badRails := 0 } }).coldReset
    gate m m.pins.pwrgd (m1.modRas (fun r => { r with direct := 0 }))

/-- DEV_RST_N (R37, R42, R558, R572): low for 1 us it holds the device in cold reset; its rise begins the cold start.
DESIGN CHOICE: log 45. -/
def execDevRstN (level : Bool) (s : State) : Out :=
  s.run fun m =>
    let m1 := { m with pins := { m.pins with devRst := level } }
    gate m (m.pins.devRst != level) (if level then m1.tryStart else if m.pins.pwrgd then m1.coldReset else m1)

/-- The upstream links of a host port. DEDUCED: log 54. -/
def portLinks (port : Nat) : List Nat := if port = 0 then [0] else [1, 2, 3]

/-- PERST_N (R37, R42, R312, R314, R565): a fundamental reset of a port is a hot reset of its links, after which configuration space
is to become ready again; training waits while it holds, and the rest of a start continues.  DEDUCED: log 54. -/
def execPerstN (port : Nat) (level : Bool) (s : State) : Out :=
  s.run fun m =>
    if 2 ≤ port then .refused .noSuchUnit
    else
      let m1 := (portLinks port).foldl (fun m l => m.modLink l (fun x =>
        if level then { x with perst := false } else { x with perst := true, cfgReady := false, drs := false })) m
      .next (if level || !m.powered then m1
             else ((portLinks port).filter (fun l => m.linkExists l && !(m.hlink l).perst)).foldl (fun m l => (m.hotReset l).clearAer l) m1)

/-- VIO_X0_REMOVAL (R40): the latch of THERMTRIP_N is cleared; the rail goes after PWRGD_MAIN (R29). -/
def execVioX0Removal (s : State) : Out :=
  s.run fun m => gate m (!m.pins.pwrgd) { m with pins := { m.pins with thermtrip := true } }

/-- What PLDM reports (R30, R44, R575): the five conditions that assert ALERT_N, then the rails out of tolerance, then the halves
whose rail is unresponsive. -/
def Mach.conditions (m : Mach) : List Nat :=
  (List.range 5).map (fun i => (m.ras.direct.getLsbD i).toNat) ++ (List.range 25).map (fun i => (m.pins.badRails.getLsbD i).toNat) ++
    (List.range 8).map (fun h => (m.half h).dead.toNat)

/-- PLDM_REQUEST (R23, R30, R44, R575): answered whatever the state, from the conditions it reports (log 12). -/
def execPldmRequest (msg : List Byte) (s : State) : Out :=
  s.run fun m => .next (m.emit (.pldm (Config.pldmAnswer msg m.conditions)))

/-! Clocks (R43, R568). -/

/-- TIDE_PLL_LOCK (R558): phase 1 ends and Tide counts from 0. -/
def execTidePllLock (s : State) : Out :=
  s.run fun m =>
    gate m (m.start.phase == .run 1 && m.pins.thermtrip)
      (({ m with clk := { Clock.reset with locked := true } }).modStart (fun x => { x with phase := .run 2, base := 0 }))

/-- TIDE_PLL_LOCK_TIMEOUT (R575): the device stays in reset with ALERT_N low until the next cold start. -/
def execTidePllLockTimeout (s : State) : Out :=
  s.run fun m =>
    gate m (m.start.phase == .run 1)
      ((m.modStart (fun x => { x with phase := .held })).modRas (fun r => { r with direct := r.direct ||| 8 }))

/-- TIDE_REFCLK_LOSS (R43, R568): a fatal error; X0's counter holds until the PLL relocks. -/
def execTideRefclkLoss (s : State) : Out :=
  s.run fun m =>
    gate m (m.powered && m.clk.locked)
      ({ m with pins := { m.pins with tideRef := false }, clk := { m.clk with locked := false } }.fatal .tide)

/-- TIDE_PLL_RELOCK (R568). -/
def execTidePllRelock (s : State) : Out :=
  s.run fun m =>
    gate m (m.powered && !m.pins.tideRef)
      { m with pins := { m.pins with tideRef := true }, clk := { m.clk with locked := true } }

/-- PCIE_REFCLK_LOSS (R43, R317): the port's links go down, and the failure is reported. -/
def execPcieRefclkLoss (port : Nat) (s : State) : Out :=
  s.run fun m =>
    if 2 ≤ port then .refused .noSuchUnit
    else
      let ls := (portLinks port).filter (fun l => (m.hlink l).up)
      .next (ls.foldl (fun m l => (m.dropLink l).eventAt (Config.rasCode 11).1 (Config.rasCode 11).2 (0x80 + port) l 0) m)

/-! Failed starts (R575, R576). -/

/-- A failed start (R576): a fatal record and a warm reset; the third in succession is the out-of-service state. DEDUCED: log 52. -/
def Mach.failStart (m : Mach) (cause : FatalCause) : Mach :=
  if m.start.fails < 2 then (m.fatal cause).modStart (fun x => { x with fails := x.fails + 1 })
  else
    let m := m.fatalRecord cause
    let m := m.functions.foldl (fun m f => m.logAer f 3) m
    let m := (m.modStart (fun x => { x with fails := x.fails + 1, phase := .outOfService, warmAt := 0 })).modRas (fun r => { r with direct := r.direct ||| 16 })
    ([0, 1, 2, 3].filter (fun l => (m.hlink l).up && !(m.hlink l).cfgReady)).foldl (fun m l => m.linkReady l) m

/-- Runs the end of a phase: in that phase, with no warm reset due and THERMTRIP_N not latched (R40). -/
def onPhase (n : Nat) (s : State) (f : Mach → Mach) : Out :=
  s.run fun m => gate m (m.start.phase == .run n && m.start.warmAt == 0 && m.pins.thermtrip) (f m)

/-- Moves to a phase. -/
def Mach.toPhase (m : Mach) (p : Phase) : Mach := m.modStart (fun x => { x with phase := p })

/-- Latest ends of phases 2 to 8 (Table 21.1). -/
def latestEnd (n : Nat) : Nat := nth 0 [60, 250, 400, 430, 430, 700, 700] (n - 2) * ms

/-- PHASE_OVERRUN (R575). -/
def execPhaseOverrun (s : State) : Out :=
  s.run fun m =>
    match m.start.phase with
    | .run n => gate m (decide (2 ≤ n) && decide (n ≤ 8) && m.start.warmAt == 0 && decide (m.start.base + latestEnd n < m.now)) (m.failStart .other)
    | _ => .next m

/-! Phases 2 to 5 (R51, R492, R495, R519, R539, R540, R557, R561, R562). -/

/-- What a probe of Crescent's read-out port finds (R41, R557): silent without VSTBY_CR, starting until Crescent's start completes. -/
def Mach.crescentPort (m : Mach) : CrescentProbe :=
  if !m.pins.vstby then .silent
  else
    match m.cres.st with
    | .absent => .silent
    | .starting _ => .starting
    | .ready => .ready

/-- Phase 2 with fuses that pass: the slots as the ROM finds them, the nonce, the measurements, and the firmware or the ROM's own
service. DEDUCED: log 51. -/
def Mach.bootRom (m : Mach) (slotA slotB : Bool) : Mach :=
  let m := m.modMoon (fun a => { a with slotA := { a.slotA with valid := slotA }, slotB := { a.slotB with valid := slotB } })
  let m := m.modCres (fun c => { c with probe := if m.start.warm && c.probe == .silent then .silent else m.crescentPort })
  let m := (m.modSec (fun x => { x with meas := [], devKey := true })).newNonce
  let m := (m.extend 1 Config.romVersion).extend 8 (leBytes 1 0x10 ++ leBytes 1 m.host.bifurc.toNat)
  let r := m.romBoot
  if r.2 then (r.1.modMoon (fun a => { a with wdog := m.now })).toPhase (.run 3) else r.1.toPhase .romOnly

/-- BOOT_ROM_PHASE_END (R519, R557, R558, R575): the ROM has checked the fuses and the lifecycle, which is fused, and verified the slots.
DESIGN CHOICE: log 50. -/
def execBootRomPhaseEnd (fusesOk lifeOk slotA slotB : Bool) (s : State) : Out :=
  onPhase 2 s fun m =>
    if fusesOk && lifeOk then m.bootRom slotA slotB
    else (m.toPhase .held).modRas (fun r => { r with direct := r.direct ||| 4 })

/-- A physical core after self-test (R540): a once-failed core that fails has failed; a core that fails for the first time is
once-failed (DESIGN CHOICE, log 42). -/
def PhysCore.tested (x : PhysCore) (fails : Bool) : PhysCore := if fails then x.fenced else x

/-- The cores of a cluster that pass, in the order in which they are taken (R540): good and spare ones, then once-failed ones. -/
def passing (t : Tbl PhysCore) (failing : List Nat) (c : Nat) : List Nat :=
  let ok := fun (once : Bool) (i : Nat) =>
    let x := tget .good t (17 * c + i)
    x != .failed && !failing.contains (17 * c + i) && (x == .onceFailed) == once
  (List.range 17).filter (ok false) ++ (List.range 17).filter (ok true)

/-- A cluster after self-test (R540, R562): 16 live cores in that order, the next as its spare; none fences it. -/
def Cluster.tested (x : Cluster) (order : List Nat) (now : Nat) : Cluster :=
  let live := order.take 16
  { x with live := BitVec.ofNat 16 (2 ^ live.length - 1), fenced := order.isEmpty, spareValid := decide (16 < order.length),
           spare := BitVec.ofNat 5 (nth 0 order 16), pendingValid := false, idleSince := now,
           phys := (List.range live.length).foldl (fun t l => tput 0 t l (nth 0 live l)) [] }

/-- Self-test of one cluster: its cores' states, and what it serves. -/
def Mach.testCluster (m : Mach) (failing : List Nat) (c : Nat) : Mach :=
  let order := passing m.ras.phys failing c
  let spare := nth 17 order 16
  let state := fun i =>
    let x := tget .good m.ras.phys (17 * c + i)
    if x == .failed then x
    else if failing.contains (17 * c + i) then x.tested true
    else if x == .onceFailed then x
    else if i = spare then .spare else .good
  let m := (m.modRas (fun r => { r with phys := (List.range 17).foldl (fun t i => tput .good t (17 * c + i) (state i)) r.phys })).modClu c
    (fun x => x.tested order m.now)
  if order.isEmpty then m.logDev { RasRec.mk0 0x22 2 0 0 m.now with die := dieOfCluster c, place := c } else m

/-- Self-test of all six dies (R539): the maps are merged, applied, written and measured. -/
def Mach.selfTest (m : Mach) (failing : List Nat) : Mach :=
  let m := (List.range 64).foldl (fun m c => m.testCluster failing c) m
  let m := m.modRas (fun r => { r with flash := r.phys, flashPages := m.mem.retired, flashRows := r.rows, mapDue := [], mapFails := [] })
  let code := fun (x : PhysCore) => match x with | .good => 0 | .spare => 1 | .onceFailed => 2 | .failed => 3
  m.extend 5 (Config.repairMapBytes ((List.range 1088).map (fun i => code (tget .good m.ras.phys i))) m.mem.retired
    (m.ras.rows.flatMap (fun e => e.1 :: e.2.spare ++ e.2.hbm)))

/-- SELF_TEST_PHASE_END (R539, R540, R562, R575): `failing` lists failing physical cores, key 17 x cluster + physical; rows beyond
repair make an array unservable. -/
def execSelfTestPhaseEnd (failing : List Nat) (rowsOk : Bool) (s : State) : Out :=
  onPhase 3 s fun m => if rowsOk then (m.selfTest failing).toPhase (.run 4) else m.failStart .array

/-- Every line outside Moon's reserved units is zeros (R561, Table 21.2). DESIGN CHOICE: log 49. -/
def Mach.initHbm (m : Mach) : Mach :=
  let kept := fun u => (m.unit u).use == .firmware
  m.modMem (fun a =>
    { a with hbm := a.hbm.filter (fun e => kept (e.1 / 2 ^ 30)), hbmPoison := a.hbmPoison.filter (fun e => kept (e.1 / 2 ^ 24)),
             hbmErr := a.hbmErr.filter (fun e => kept (e.1 / 2 ^ 24)), lineKey := a.lineKey.filter (fun e => kept (e.1 / 2 ^ 24)) })

/-- HBM_INIT_PHASE_END (R561, R575). -/
def execHbmInitPhaseEnd (stacksOk : Bool) (s : State) : Out :=
  onPhase 4 s fun m => if stacksOk then m.initHbm.toPhase (.run 5) else m.failStart .array

/-- Every die's counter is preset to X0's; any two differ by at most 2 ns, as free values have it (R51; log 1). -/
def Mach.presetTide (m : Mach) : Mach :=
  let at_ := fun i => Config.choice (m.free + i) % 3
  let tide := [0, 1, 2, 3, 5].foldl (fun t d => tput 0 t d (m.now + at_ d - at_ 4)) m.clk.tide
  { m with clk := { m.clk with tide := tide, aligned := true }, free := m.free + 6 }

/-- DIE_BRIDGE_TRAINING_END (R51, R558, R575): phase 6 follows, and is over at once where no trained link waits for it. -/
def execDieBridgeTrainingEnd (ok : Bool) (s : State) : Out :=
  onPhase 5 s fun m =>
    if ok then
      let m := m.presetTide
      m.toPhase (if [0, 1, 2, 3].all (fun l => !(m.hlink l).up || (m.hlink l).cfgReady) then .run 7 else .run 6)
    else m.failStart .dieBridge

/-! Phases 7 and 8 (R493, R495, R504, R505, R553, R557, R563, R564). -/

/-- The vault slot in use, or the recovery-only state; a slot that fails its check is logged in DEPLOYED (R504, R505).
DEDUCED: log 51. -/
def Mach.loadVault (m : Mach) : Mach :=
  if m.sec.life == .deployed then
    let m := [m.sec.vaultA, m.sec.vaultB].foldl (fun m v => if v.valid then m else m.event 0x33 4) m
    m.modSec (fun x => { x with loaded := x.best, vaultValid := x.best != 0, recovery := x.best == 0 })
  else m

/-- Moon's reserved units: the lowest free ones at a cold start; a warm reset keeps them. -/
def Mach.reserveUnits (m : Mach) : Mach :=
  if m.start.warm && m.start.reserved != 0 then m
  else
    let us := m.freeUnits.take Config.reservedUnits
    (us.foldl (fun m u => m.setUnit u ⟨.firmware, false, false⟩) m).modStart (fun x => { x with reserved := us.length })

/-- The recorded links and routes (R563). -/
def Mach.startLinks (m : Mach) : Mach :=
  let m := m.modLinks (fun x => { x with unicast := x.recUni, group := x.recGrp })
  if m.linksMayTrain then m.links.recs.foldl (fun m e => m.configLink e.1 e.2.1 e.2.2.1 e.2.2.2) m else m

/-- The work at the beginning of phase 7. -/
def Mach.beginPhase7 (m : Mach) : Mach :=
  let m := m.loadVault
  let m := m.extend 6 (leBytes 8 m.cres.fwId.toNat ++ leBytes 4 m.cres.checksum.toNat ++ leBytes 4 m.cres.live.events)
  let m := m.extend 7 (leBytes 8 (m.sec.slot m.sec.loaded).gen)
  ((m.reserveUnits.startLinks).writeHeld false).modStart (fun x => { x with initAt := m.now + 1 })

/-- Every recorded link is up, or 250 ms have passed since training began (R563). -/
def Mach.linksSettled (m : Mach) : Bool :=
  !m.linksMayTrain || m.links.recs.all (fun e => e.2.1 == 0 || (m.ylink e.1).st == .up) || decide (m.start.initAt - 1 + 250 * ms ≤ m.now)

/-- Whether metering is available, once that is known (R557, R573). DESIGN CHOICE: log 50. -/
def Mach.meterDecision (m : Mach) : Option Bool :=
  if m.cres.probe == .silent then some false
  else if m.cres.st == .ready then some true
  else if m.start.base + latestEnd 7 ≤ m.now then some false
  else none

/-- MOON_INIT_PHASE_END (R504, R553, R557, R558, R563, R573): phase 7 begins its work at the first, and ends when the links are settled
and metering is decided. -/
def execMoonInitPhaseEnd (s : State) : Out :=
  onPhase 7 s fun m =>
    let m := if m.start.initAt = 0 then m.beginPhase7 else m
    match m.meterDecision with
    | some b =>
      if m.linksSettled then
        (m.modCres (fun c => { c with metering := b, probe := if b then c.probe else .silent })).toPhase (.run 8)
      else m
    | none => m

/-- DEVICE_READY is posted and FW_READY set (R564, R576). -/
def Mach.postReady (m : Mach) : Mach :=
  ((m.modMoon (fun a => { a with ready := true, wdog := m.now })).modStart (fun x => { x with fails := 0 })).postNotice 0x01F0 m.devInfo

/-- DEVICE_READY (R493, R519, R558, R564): the end of phase 8, or the boot ROM's own notice. -/
def execDeviceReady (s : State) : Out :=
  s.run fun m =>
    match m.start.phase with
    | .run 8 =>
      let m1 := ((m.toPhase .ready).confirmFw).modCres (fun c => { c with ledgerAt := m.now })
      gate m (m.start.warmAt == 0 && m.pins.thermtrip) m1.postReady
    | .romOnly => gate m (!m.moon.ready && m.start.warmAt == 0 && m.pins.thermtrip) m.postReady
    | _ => .next m

/-! Warm resets (R566). -/

/-- WARM_RESET (R529, R566): a device-level fatal error of a cause. -/
def execWarmReset (cause : FatalCause) (s : State) : Out := s.run fun m => gate m m.powered (m.fatal cause)

/-- WARM_RESET_STOP (R566): 10 ms after a fatal error, or when a command's delay has passed; not while Tide stands still. -/
def execWarmResetStop (s : State) : Out :=
  s.run fun m => gate m (m.start.warmAt != 0 && m.pins.thermtrip && m.clk.locked && decide (m.start.warmAt - 1 ≤ m.now)) m.warmReset

end Sys2Proof.Machine
end

