-- ==== Sys2Proof/Machine/Telemetry.lean ====
section
/-! DEFINITION. Machine/Telemetry.lean: Tide ticks, step rates, latency-critical packets, the die bridges, and the gating of clusters
(R46 to R48, R51, R57, R59, R72 to R74, R408, R476, R511, R512, R515). -/

namespace Sys2Proof.Machine

/-! Tide (R51, R73, R408, R476). -/

/-- A cluster that holds a resident block adds a nanosecond to its owner's ENGINE_TIME, and to the ledger's. -/
def Mach.engineTick (m : Mach) (c : Nat) : Mach :=
  let p := (m.clu c).owner
  (m.account p 0 1).modCres (fun x => { x with engine := tmod 0 x.engine c (· + 1) })

/-- Clusters with a resident block. -/
def Mach.busyClusters (m : Mach) : List Nat :=
  ((tkeys m.blocks).filter (fun b => (m.blk b).live) |>.map (fun b => clusterOf (blockCore b))).eraseDups

/-- TIDE_TICK (R51): every die's counter counts one nanosecond while the PLL is locked. -/
def execTideTick (s : State) : Out :=
  s.run fun m =>
    let m1 := { m with clk := { m.clk with tide := (List.range 6).foldl (fun t d => tmod 0 t d (· + 1)) m.clk.tide } }
    gate m m.clk.locked (m1.busyClusters.foldl (fun m c => m.engineTick c) m1)

/-- TIDE_DRIFT (R73, R575): a fatal error, or a failed start during a start.  X0 is the root of Tide's tree and has no parent to
drift from (DEDUCED, log 140). -/
def execTideDrift (die : Nat) (s : State) : Out :=
  s.run fun m =>
    if 6 ≤ die then .refused .noSuchUnit
    else gate m (die != 4 && m.powered && m.clk.locked && m.start.warmAt == 0) (if m.up then m.fatal .tide else m.failStart .tide)

/-- DIE_BRIDGE_RETRY_FAIL (R22, R72): eight die bridges join the six dies. -/
def execDieBridgeRetryFail (bridge : Nat) (s : State) : Out :=
  s.run fun m => if 8 ≤ bridge then .refused .noSuchUnit else gate m m.powered (m.fatal .dieBridge)

/-! Latency-critical packets (R57, R59). -/

/-- The bound of R57, ns, of a packet that crosses these halves. -/
def lcBound (halves : List Nat) : Nat := if halves.all (fun h => h / 2 == halves.headD 0 / 2) then 120 else 400

/-- A half meets the conditions of R57: OP4 or above, and its hottest junction at or below 95 degrees C. -/
def Mach.lcMeets (m : Mach) (h : Nat) : Bool := decide (4 ≤ (m.half h).op) && decide ((m.half h).tj ≤ 95)

/-- LC_PACKET_EJECTION (R57, R59, R68): a packet later than its bound and the 2 ns of Tide alignment counts for the half at whose
ejection port it arrives.  `path` names the other halves it crossed, its source among them.  There is a bound to exceed only where the conditions of R57 hold
(DESIGN CHOICE: log 46). -/
def execLcPacketEjection (half : Nat) (injected : Nat) (path : LcPath) (s : State) : Out :=
  s.run fun m =>
    if 8 ≤ half then .refused .noSuchUnit
    else if path.halves.any (fun h => decide (8 ≤ h)) then .refused .noSuchUnit
    else gate m (m.up && !path.loaded && (half :: path.halves).all m.lcMeets && decide (injected + lcBound (half :: path.halves) + 2 < m.tideOf (half / 2)))
      { m with clk := { m.clk with lcLate := tmod 0 m.clk.lcLate half (fun n => (n + 1) % 2 ^ 48) } }

/-! Step rates (R46 to R48, R74, R408). -/

/-- The monitor's mean step lies more than 3 % away from the model of R46: with `n` steps in 10 us, in units of 0.001 ps
(`step75` counts 5 ps). -/
def deviates (op tj n : Nat) : Bool :=
  let model := 5 * step75 op * (925 + tj)
  decide (103 * model * n < 100 * 10 ^ 10) || decide (100 * 10 ^ 10 < 97 * model * n)

/-- The partitions' CORE_STEPS for a window of a cluster: each core that holds a resident block (log 43). -/
def Mach.coreSteps (m : Mach) (c n : Nat) : Mach :=
  m.account (m.clu c).owner 1 (n * (coresOfCluster c).countP (fun i => !(m.blocksOfCore i).isEmpty))

/-- The OP of a half changed during the window that ends now (R47): a set point was written or reached in it, or is on its way. -/
def Mach.opMoved (m : Mach) (h : Nat) : Bool :=
  (m.half h).changing != 0 || ((m.half h).movedAt != 0 && decide (m.now < (m.half h).movedAt - 1 + 10 * us))

/-- The hottest of a cluster's junction sensors: `first`, and the others (TELEM_STEPRATE). -/
def hottest (first : Byte) (others : List Byte) : Byte := others.foldl (fun a b => if a < b then b else a) first

/-- STEPRATE_WINDOW_END (R47, R48, R74): the window's figures, from the monitor's steps and the readings of the junction sensors.
  VALID needs power for the whole window; a gated cluster reads zero
steps.  A window in which the OP changed is not held against R46's model, which has one OP (DESIGN CHOICE: log 118). -/
def execSteprateWindowEnd (cluster : Nat) (steps : BitVec 24) (tj : Byte) (sensors : List Byte) (s : State) : Out :=
  s.run fun m =>
    if 64 ≤ cluster then .refused .noSuchUnit
    else
      let op := (m.half (halfOfCluster cluster)).op
      let tj := hottest tj sensors
      let mixed := m.opMoved (halfOfCluster cluster)
      let rate : StepRate :=
        if (m.clu cluster).gated then { steps := 0, tj := tj, op := BitVec.ofNat 3 op, mixed := mixed, valid := false }
        else { steps := steps, tj := tj, op := BitVec.ofNat 3 op, mixed := mixed,
               valid := decide ((m.clu cluster).poweredAt + 10 * us ≤ m.now) }
      let n := if (m.clu cluster).gated then 0 else steps.toNat
      let m1 := (m.coreSteps cluster n).modClu cluster (fun x => { x with steps := x.steps + n, stepsTide := m.now, rate := rate })
      gate m (m.up && m.now % (10 * us) == 0)
        (if rate.valid && !mixed && deviates op tj.toNat n then m1.eventAt 0x31 4 (dieOfCluster cluster) cluster 0 else m1)

/-! Gating (R511, R512, R515). -/

/-- A core of a cluster is halted under INVASIVE. -/
def Mach.haltsIn (m : Mach) (c : Nat) : Bool := (coresOfCluster c).any (fun i => (m.core i).halted)

/-- The freezes of a D3hot entry are over (R512). -/
def Mach.d3Settled (m : Mach) : Bool := m.start.d3hot && m.existing.all (fun p => !(m.part p).d3Froze || (m.part p).freezing == 0)

/-- CLUSTER_GATE (R48, R511, R512, R515): after 100 us with no resident block and no step, or at once in D3hot; never with a halted
core. DEDUCED: log 53. -/
def execClusterGate (cluster : Nat) (s : State) : Out :=
  s.run fun m =>
    if 64 ≤ cluster then .refused .noSuchUnit
    else
      let x := m.clu cluster
      let idle := decide (x.idleSince + 100 * us ≤ m.now) && !(m.part x.owner).sb.running
      gate m (m.up && !x.gated && (m.blocksOfCluster cluster).isEmpty && (idle || m.d3Settled) && !m.haltsIn cluster)
        (m.modClu cluster (fun x => { x with gated := true, rate := { x.rate with steps := 0, valid := false } }))

/-- CLUSTER_UNGATE (R511, Table 21.2): a launch has a block ready for the cluster; the cluster is quiesced. DEDUCED: log 53. -/
def execClusterUngate (cluster : Nat) (s : State) : Out :=
  s.run fun m =>
    if 64 ≤ cluster then .refused .noSuchUnit
    else
      let x := m.clu cluster
      let ready := (tkeys m.krns).any (fun k => (m.krn k).more cluster && m.mayLaunch (m.krn k))
      gate m (m.up && x.gated && ready && !m.start.d3hot)
        ((((m.holders cluster).foldl (fun m k => m.releaseBank k cluster) m).quiesceCluster cluster).modClu cluster
          (fun x => { x with gated := false, idleSince := m.now, poweredAt := m.now }))

end Sys2Proof.Machine
end

