-- ==== Sys2Proof/Machine/Tensor.lean ====
section
/-! DEFINITION. Machine/Tensor.lean: the issue of TMMA, TZERO, TLOAD and TSTORE to the tensor engine's queue (R139, R141, R142, R147,
R153 to R155, R158, R192). -/

namespace Sys2Proof.Machine

/-- The tiles of local memory that an instruction names lie in the block's allocation; the offset of the first that does not, by
its start (R147; DESIGN CHOICE, log 121: the abort record's address is that offset). -/
def Mach.tileFault (m : Mach) (g : Nat) (kind : TKind) (f : FmtT) : Option Nat :=
  let room := 1024 * (m.blk (m.grp g).block).granules
  let tiles : List (Nat × Nat) := match kind with
    | .tmma => [(128 * f.abase.toNat, tileBytes f.afmt (shapeK f.shape)), (128 * f.bbase.toNat, tileBytes f.bfmt (shapeK f.shape))]
    | .tzero => []
    | _ => [(128 * f.abase.toNat, tileBytes f.afmt 128)]
  (tiles.find? (fun t => decide (room < t.1 + t.2))).map (·.1)

/-- Issues a T word: it enters the queue, which holds four; a stochastic TSTORE reserves 256 draws per lane (R141, R192).
DEDUCED: log 58. -/
def runT (g : Nat) (i : Instr) (kind : TKind) (f : FmtT) (s : State) : Out :=
  issue g i [] true f.pi f.pn (fun m _ =>
    if !m.mayAccess g then .hold m
    else
      match m.tileFault g kind f with
      | some a => .fault fAddress (some a) m
      | none =>
        if 4 ≤ (m.core (coreOf g)).tq.length then .hold m
        else
          let enter := fun (m : Mach) (lanes : Tbl RngLane) =>
            let op : TOp := { id := m.nextId, gid := g, krn := m.krnOf g, block := (m.grp g).block, kind := kind, f := f, lanes := lanes }
            Eff.go (m.bumpId.modCore (coreOf g) (fun c => { c with tq := c.tq ++ [op] }))
          if kind == .tstore && f.opt.getLsbD 0 then
            drawing m g (fun m =>
              let old := (m.grp g).lanes
              let new : Tbl RngLane := (List.range 32).foldl (fun t l => tput RngLane.zero t l (drawN l 256 (laneOf old l)).2) []
              enter ((m.modGrp g (fun x => { x with lanes := new })).noteDraw g) old)
          else enter m []) s

/-- TMMA (R141, R145, R150). -/
def execTmma (g : Nat) (f : FmtT) (s : State) : Out := runT g (.tmma g f) .tmma f s

/-- TZERO (R141, R153). -/
def execTzero (g : Nat) (f : FmtT) (s : State) : Out := runT g (.tzero g f) .tzero f s

/-- TLOAD (R141, R154). -/
def execTload (g : Nat) (f : FmtT) (s : State) : Out := runT g (.tload g f) .tload f s

/-- TSTORE (R141, R155, R158). -/
def execTstore (g : Nat) (f : FmtT) (s : State) : Out := runT g (.tstore g f) .tstore f s

end Sys2Proof.Machine
end

