-- ==== Sys2Proof/Machine/Dispatch.lean ====
section
/-! DEFINITION. Machine/Dispatch.lean: the meaning of each command, one arm per constructor of `Instr`. -/

namespace Sys2Proof.Machine

/-- The effect of a command on everything but the queue. -/
def exec (i : Instr) (s : State) : Host.Outcome State Fault Refusal :=
  match i with
  | .add g f => Sys2Proof.Machine.execAdd g f s
  | .sub g f => Sys2Proof.Machine.execSub g f s
  | .mul g f => Sys2Proof.Machine.execMul g f s
  | .mulhi g f => Sys2Proof.Machine.execMulhi g f s
  | .min g f => Sys2Proof.Machine.execMin g f s
  | .max g f => Sys2Proof.Machine.execMax g f s
  | .abs g f => Sys2Proof.Machine.execAbs g f s
  | .neg g f => Sys2Proof.Machine.execNeg g f s
  | .fma g f => Sys2Proof.Machine.execFma g f s
  | .dot4 g f => Sys2Proof.Machine.execDot4 g f s
  | .and g f => Sys2Proof.Machine.execAnd g f s
  | .or g f => Sys2Proof.Machine.execOr g f s
  | .xor g f => Sys2Proof.Machine.execXor g f s
  | .not g f => Sys2Proof.Machine.execNot g f s
  | .shl g f => Sys2Proof.Machine.execShl g f s
  | .shr g f => Sys2Proof.Machine.execShr g f s
  | .sar g f => Sys2Proof.Machine.execSar g f s
  | .popc g f => Sys2Proof.Machine.execPopc g f s
  | .clz g f => Sys2Proof.Machine.execClz g f s
  | .brev g f => Sys2Proof.Machine.execBrev g f s
  | .sel g f => Sys2Proof.Machine.execSel g f s
  | .cmpEq g f => Sys2Proof.Machine.execCmpEq g f s
  | .cmpNe g f => Sys2Proof.Machine.execCmpNe g f s
  | .cmpLt g f => Sys2Proof.Machine.execCmpLt g f s
  | .cmpLe g f => Sys2Proof.Machine.execCmpLe g f s
  | .cmpGt g f => Sys2Proof.Machine.execCmpGt g f s
  | .cmpGe g f => Sys2Proof.Machine.execCmpGe g f s
  | .mov g f => Sys2Proof.Machine.execMov g f s
  | .cvt g f => Sys2Proof.Machine.execCvt g f s
  | .pmov g f => Sys2Proof.Machine.execPmov g f s
  | .rcp g f => Sys2Proof.Machine.execRcp g f s
  | .rsq g f => Sys2Proof.Machine.execRsq g f s
  | .sqrt g f => Sys2Proof.Machine.execSqrt g f s
  | .exp2 g f => Sys2Proof.Machine.execExp2 g f s
  | .log2 g f => Sys2Proof.Machine.execLog2 g f s
  | .tanh g f => Sys2Proof.Machine.execTanh g f s
  | .shfl g f => Sys2Proof.Machine.execShfl g f s
  | .ballot g f => Sys2Proof.Machine.execBallot g f s
  | .redadd g f => Sys2Proof.Machine.execRedadd g f s
  | .redmax g f => Sys2Proof.Machine.execRedmax g f s
  | .immediateAluForm g op f => Sys2Proof.Machine.execImmediateAluForm g op f s
  | .cmpFImmediate g c f => Sys2Proof.Machine.execCmpFImmediate g c f s
  | .cmpIntImmediate g c f => Sys2Proof.Machine.execCmpIntImmediate g c f s
  | .movi g f => Sys2Proof.Machine.execMovi g f s
  | .ld g f => Sys2Proof.Machine.execLd g f s
  | .st g f => Sys2Proof.Machine.execSt g f s
  | .atAdd g f => Sys2Proof.Machine.execAtAdd g f s
  | .atMins g f => Sys2Proof.Machine.execAtMins g f s
  | .atMinu g f => Sys2Proof.Machine.execAtMinu g f s
  | .atMaxs g f => Sys2Proof.Machine.execAtMaxs g f s
  | .atMaxu g f => Sys2Proof.Machine.execAtMaxu g f s
  | .atAnd g f => Sys2Proof.Machine.execAtAnd g f s
  | .atOr g f => Sys2Proof.Machine.execAtOr g f s
  | .atXor g f => Sys2Proof.Machine.execAtXor g f s
  | .atXchg g f => Sys2Proof.Machine.execAtXchg g f s
  | .atCas g f => Sys2Proof.Machine.execAtCas g f s
  | .atFadd g f => Sys2Proof.Machine.execAtFadd g f s
  | .redAdd g f => Sys2Proof.Machine.execRedAdd g f s
  | .redMins g f => Sys2Proof.Machine.execRedMins g f s
  | .redMinu g f => Sys2Proof.Machine.execRedMinu g f s
  | .redMaxs g f => Sys2Proof.Machine.execRedMaxs g f s
  | .redMaxu g f => Sys2Proof.Machine.execRedMaxu g f s
  | .redAnd g f => Sys2Proof.Machine.execRedAnd g f s
  | .redOr g f => Sys2Proof.Machine.execRedOr g f s
  | .redXor g f => Sys2Proof.Machine.execRedXor g f s
  | .redFadd g f => Sys2Proof.Machine.execRedFadd g f s
  | .tmma g f => Sys2Proof.Machine.execTmma g f s
  | .tzero g f => Sys2Proof.Machine.execTzero g f s
  | .tload g f => Sys2Proof.Machine.execTload g f s
  | .tstore g f => Sys2Proof.Machine.execTstore g f s
  | .bra g f => Sys2Proof.Machine.execBra g f s
  | .brx g f => Sys2Proof.Machine.execBrx g f s
  | .call g f => Sys2Proof.Machine.execCall g f s
  | .ret g f => Sys2Proof.Machine.execRet g f s
  | .exit g f => Sys2Proof.Machine.execExit g f s
  | .nop g f => Sys2Proof.Machine.execNop g f s
  | .evtInc g f => Sys2Proof.Machine.execEvtInc g f s
  | .evtSig g f => Sys2Proof.Machine.execEvtSig g f s
  | .evtWait g f => Sys2Proof.Machine.execEvtWait g f s
  | .evtRead g f => Sys2Proof.Machine.execEvtRead g f s
  | .fenceAcq g f => Sys2Proof.Machine.execFenceAcq g f s
  | .fenceRel g f => Sys2Proof.Machine.execFenceRel g f s
  | .flush g f => Sys2Proof.Machine.execFlush g f s
  | .ceCopy g f => Sys2Proof.Machine.execCeCopy g f s
  | .mcast g f => Sys2Proof.Machine.execMcast g f s
  | .ordSort g f => Sys2Proof.Machine.execOrdSort g f s
  | .ordTopk g f => Sys2Proof.Machine.execOrdTopk g f s
  | .ordArgmax g f => Sys2Proof.Machine.execOrdArgmax g f s
  | .ordNearest g f => Sys2Proof.Machine.execOrdNearest g f s
  | .ordSearch g f => Sys2Proof.Machine.execOrdSearch g f s
  | .ordSample g f => Sys2Proof.Machine.execOrdSample g f s
  | .rngU32 g f => Sys2Proof.Machine.execRngU32 g f s
  | .rngU24 g f => Sys2Proof.Machine.execRngU24 g f s
  | .rngBern g f => Sys2Proof.Machine.execRngBern g f s
  | .rngNorm g f => Sys2Proof.Machine.execRngNorm g f s
  | .rngGumbel g f => Sys2Proof.Machine.execRngGumbel g f s
  | .rngKey g f => Sys2Proof.Machine.execRngKey g f s
  | .tideRd g f => Sys2Proof.Machine.execTideRd g f s
  | .irqRaise g f => Sys2Proof.Machine.execIrqRaise g f s
  | .tensorQueueStart start => Sys2Proof.Machine.execTensorQueueStart start s
  | .evtSigArrival sig => Sys2Proof.Machine.execEvtSigArrival sig s
  | .evtWaitSatisfied core ctr => Sys2Proof.Machine.execEvtWaitSatisfied core ctr s
  | .evtWaitDeadline g => Sys2Proof.Machine.execEvtWaitDeadline g s
  | .flushComplete op => Sys2Proof.Machine.execFlushComplete op s
  | .ceCopyComplete half turn => Sys2Proof.Machine.execCeCopyComplete half turn s
  | .mcastPacketArrival op target packet tailBad => Sys2Proof.Machine.execMcastPacketArrival op target packet tailBad s
  | .mcastTimerExpiry op target => Sys2Proof.Machine.execMcastTimerExpiry op target s
  | .mcastComplete op => Sys2Proof.Machine.execMcastComplete op s
  | .ordRowBoundary turn => Sys2Proof.Machine.execOrdRowBoundary turn s
  | .ordDescriptorComplete cluster => Sys2Proof.Machine.execOrdDescriptorComplete cluster s
  | .ordUnitReset cluster => Sys2Proof.Machine.execOrdUnitReset cluster s
  | .sampleStateReturn cluster => Sys2Proof.Machine.execSampleStateReturn cluster s
  | .loadDataReturn op tailBad => Sys2Proof.Machine.execLoadDataReturn op tailBad s
  | .accessPerformed op line tailBad => Sys2Proof.Machine.execAccessPerformed op line tailBad s
  | .kgiLoad fn ch => Sys2Proof.Machine.execKgiLoad fn ch s
  | .kgiUnload fn ch => Sys2Proof.Machine.execKgiUnload fn ch s
  | .krnLaunch fn ch => Sys2Proof.Machine.execKrnLaunch fn ch s
  | .krnWait fn ch => Sys2Proof.Machine.execKrnWait fn ch s
  | .krnWaitTimeout fn ch => Sys2Proof.Machine.execKrnWaitTimeout fn ch s
  | .krnAbort fn ch => Sys2Proof.Machine.execKrnAbort fn ch s
  | .krnClass fn ch => Sys2Proof.Machine.execKrnClass fn ch s
  | .devInfo fn ch => Sys2Proof.Machine.execDevInfo fn ch s
  | .devWarmReset fn ch => Sys2Proof.Machine.execDevWarmReset fn ch s
  | .partCreate fn ch => Sys2Proof.Machine.execPartCreate fn ch s
  | .partDestroy fn ch => Sys2Proof.Machine.execPartDestroy fn ch s
  | .partQuery fn ch => Sys2Proof.Machine.execPartQuery fn ch s
  | .partFreeze fn ch => Sys2Proof.Machine.execPartFreeze fn ch s
  | .partSave fn ch => Sys2Proof.Machine.execPartSave fn ch s
  | .partRestore fn ch => Sys2Proof.Machine.execPartRestore fn ch s
  | .partThaw fn ch => Sys2Proof.Machine.execPartThaw fn ch s
  | .partLogStart fn ch => Sys2Proof.Machine.execPartLogStart fn ch s
  | .partLogRead fn ch => Sys2Proof.Machine.execPartLogRead fn ch s
  | .partLogStop fn ch => Sys2Proof.Machine.execPartLogStop fn ch s
  | .partApertureMap fn ch => Sys2Proof.Machine.execPartApertureMap fn ch s
  | .partApertureUnmap fn ch => Sys2Proof.Machine.execPartApertureUnmap fn ch s
  | .memMap fn ch => Sys2Proof.Machine.execMemMap fn ch s
  | .memUnmap fn ch => Sys2Proof.Machine.execMemUnmap fn ch s
  | .memProtect fn ch => Sys2Proof.Machine.execMemProtect fn ch s
  | .memFlush fn ch => Sys2Proof.Machine.execMemFlush fn ch s
  | .memHostpool fn ch => Sys2Proof.Machine.execMemHostpool fn ch s
  | .seqConfig fn ch => Sys2Proof.Machine.execSeqConfig fn ch s
  | .seqAdmit fn ch => Sys2Proof.Machine.execSeqAdmit fn ch s
  | .seqToken fn ch => Sys2Proof.Machine.execSeqToken fn ch s
  | .seqPause fn ch => Sys2Proof.Machine.execSeqPause fn ch s
  | .seqResume fn ch => Sys2Proof.Machine.execSeqResume fn ch s
  | .seqCancel fn ch => Sys2Proof.Machine.execSeqCancel fn ch s
  | .seqStep fn ch => Sys2Proof.Machine.execSeqStep fn ch s
  | .pwrCap fn ch => Sys2Proof.Machine.execPwrCap fn ch s
  | .pwrMode fn ch => Sys2Proof.Machine.execPwrMode fn ch s
  | .pwrShare fn ch => Sys2Proof.Machine.execPwrShare fn ch s
  | .pwrQuery fn ch => Sys2Proof.Machine.execPwrQuery fn ch s
  | .meterRead fn ch => Sys2Proof.Machine.execMeterRead fn ch s
  | .meterAudit fn ch => Sys2Proof.Machine.execMeterAudit fn ch s
  | .meterIdent fn ch => Sys2Proof.Machine.execMeterIdent fn ch s
  | .rasLogRead fn ch => Sys2Proof.Machine.execRasLogRead fn ch s
  | .rasLogClear fn ch => Sys2Proof.Machine.execRasLogClear fn ch s
  | .rasCrashRead fn ch => Sys2Proof.Machine.execRasCrashRead fn ch s
  | .secKeyUpdate fn ch => Sys2Proof.Machine.execSecKeyUpdate fn ch s
  | .secDbgUnlock fn ch => Sys2Proof.Machine.execSecDbgUnlock fn ch s
  | .secDbgLock fn ch => Sys2Proof.Machine.execSecDbgLock fn ch s
  | .secLifecycle fn ch => Sys2Proof.Machine.execSecLifecycle fn ch s
  | .fwStage fn ch => Sys2Proof.Machine.execFwStage fn ch s
  | .fwActivate fn ch => Sys2Proof.Machine.execFwActivate fn ch s
  | .fwInfo fn ch => Sys2Proof.Machine.execFwInfo fn ch s
  | .linkConfigOff fn ch => Sys2Proof.Machine.execLinkConfigOff fn ch s
  | .linkConfigYlpDirect fn ch => Sys2Proof.Machine.execLinkConfigYlpDirect fn ch s
  | .linkConfigYlpUdp fn ch => Sys2Proof.Machine.execLinkConfigYlpUdp fn ch s
  | .linkRouteSet fn ch => Sys2Proof.Machine.execLinkRouteSet fn ch s
  | .linkStatus fn ch => Sys2Proof.Machine.execLinkStatus fn ch s
  | .bankAssign cluster => Sys2Proof.Machine.execBankAssign cluster s
  | .blockLaunch cluster => Sys2Proof.Machine.execBlockLaunch cluster s
  | .placementHoldTimeout cluster krn => Sys2Proof.Machine.execPlacementHoldTimeout cluster krn s
  | .blockEnd block => Sys2Proof.Machine.execBlockEnd block s
  | .instanceComplete krn => Sys2Proof.Machine.execInstanceComplete krn s
  | .eventDeadlock core krn => Sys2Proof.Machine.execEventDeadlock core krn s
  | .quiescenceDeadlock krn => Sys2Proof.Machine.execQuiescenceDeadlock krn s
  | .blockWatchdog block => Sys2Proof.Machine.execBlockWatchdog block s
  | .coreFence core cause => Sys2Proof.Machine.execCoreFence core cause s
  | .issueHang core => Sys2Proof.Machine.execIssueHang core s
  | .spareSwap cluster => Sys2Proof.Machine.execSpareSwap cluster s
  | .clusterFence cluster => Sys2Proof.Machine.execClusterFence cluster s
  | .streamParityError g => Sys2Proof.Machine.execStreamParityError g s
  | .trngHealthFailure => Sys2Proof.Machine.execTrngHealthFailure s
  | .steprateWindowEnd cluster steps tj sensors => Sys2Proof.Machine.execSteprateWindowEnd cluster steps tj sensors s
  | .tideTick => Sys2Proof.Machine.execTideTick s
  | .tideDrift die => Sys2Proof.Machine.execTideDrift die s
  | .lcPacketEjection half injected path => Sys2Proof.Machine.execLcPacketEjection half injected path s
  | .dieBridgeRetryFail bridge => Sys2Proof.Machine.execDieBridgeRetryFail bridge s
  | .rds rlc line ra => Sys2Proof.Machine.execRds rlc line ra s
  | .rdx rlc line => Sys2Proof.Machine.execRdx rlc line s
  | .upgr rlc line => Sys2Proof.Machine.execUpgr rlc line s
  | .rdcur agent line => Sys2Proof.Machine.execRdcur agent line s
  | .wrline agent line data tailBad => Sys2Proof.Machine.execWrline agent line data tailBad s
  | .wrpart agent line data mask tailBad => Sys2Proof.Machine.execWrpart agent line data mask tailBad s
  | .atom agent line op offset wide opnd cmp tailBad => Sys2Proof.Machine.execAtom agent line op offset wide opnd cmp tailBad s
  | .cohFlush agent line => Sys2Proof.Machine.execCohFlush agent line s
  | .wb rlc line => Sys2Proof.Machine.execWb rlc line s
  | .eve rlc line => Sys2Proof.Machine.execEve rlc line s
  | .evf rlc line => Sys2Proof.Machine.execEvf rlc line s
  | .wback rlc line => Sys2Proof.Machine.execWback rlc line s
  | .snpinv rlc line => Sys2Proof.Machine.execSnpinv rlc line s
  | .snpdata rlc line => Sys2Proof.Machine.execSnpdata rlc line s
  | .recall rlc line => Sys2Proof.Machine.execRecall rlc line s
  | .fwds rlc line => Sys2Proof.Machine.execFwds rlc line s
  | .fwdx rlc line => Sys2Proof.Machine.execFwdx rlc line s
  | .rspi rlc line => Sys2Proof.Machine.execRspi rlc line s
  | .rsps rlc line => Sys2Proof.Machine.execRsps rlc line s
  | .rspdata rlc line => Sys2Proof.Machine.execRspdata rlc line s
  | .wbinflight rlc line => Sys2Proof.Machine.execWbinflight rlc line s
  | .dataSt rlc line => Sys2Proof.Machine.execDataSt rlc line s
  | .cmp agent line => Sys2Proof.Machine.execCmp agent line s
  | .bisnpinv line => Sys2Proof.Machine.execBisnpinv line s
  | .bisnpdata line => Sys2Proof.Machine.execBisnpdata line s
  | .snoopTimeout line => Sys2Proof.Machine.execSnoopTimeout line s
  | .bisnpTimeout line => Sys2Proof.Machine.execBisnpTimeout line s
  | .directoryParityRebuild line => Sys2Proof.Machine.execDirectoryParityRebuild line s
  | .cxlProtocolError line => Sys2Proof.Machine.execCxlProtocolError line s
  | .readaheadTrigger rlc block => Sys2Proof.Machine.execReadaheadTrigger rlc block s
  | .readaheadTrackerRelease rlc block => Sys2Proof.Machine.execReadaheadTrackerRelease rlc block s
  | .shootDown sd => Sys2Proof.Machine.execShootDown sd s
  | .atsTranslationComplete fn page answer => Sys2Proof.Machine.execAtsTranslationComplete fn page answer s
  | .atsInvalidation fn page => Sys2Proof.Machine.execAtsInvalidation fn page s
  | .hostMemrd line mv => Sys2Proof.Machine.execHostMemrd line mv s
  | .hostMemwr line data => Sys2Proof.Machine.execHostMemwr line data s
  | .hostCxlCacheSnoop hline kind => Sys2Proof.Machine.execHostCxlCacheSnoop hline kind s
  | .bisnpResponse line data => Sys2Proof.Machine.execBisnpResponse line data s
  | .cxlCacheHostResponse hline st data => Sys2Proof.Machine.execCxlCacheHostResponse hline st data s
  | .bar2Read fn offset len tailBad => Sys2Proof.Machine.execBar2Read fn offset len tailBad s
  | .bar2ReadNoSnoop fn offset len => Sys2Proof.Machine.execBar2ReadNoSnoop fn offset len s
  | .bar2Write fn offset data => Sys2Proof.Machine.execBar2Write fn offset data s
  | .bar0UnsupportedAccess fn offset size write => Sys2Proof.Machine.execBar0UnsupportedAccess fn offset size write s
  | .configRequest fn req => Sys2Proof.Machine.execConfigRequest fn req s
  | .deviceReadinessStatus link => Sys2Proof.Machine.execDeviceReadinessStatus link s
  | .vfEnableChange link enable numVfs => Sys2Proof.Machine.execVfEnableChange link enable numVfs s
  | .bar2Resize fn size => Sys2Proof.Machine.execBar2Resize fn size s
  | .hdmDecoderCommit dec base size pool ways => Sys2Proof.Machine.execHdmDecoderCommit dec base size pool ways s
  | .initiateFunctionLevelReset part => Sys2Proof.Machine.execInitiateFunctionLevelReset part s
  | .flrQuiesceLimit part => Sys2Proof.Machine.execFlrQuiesceLimit part s
  | .flrClustersQuiet part => Sys2Proof.Machine.execFlrClustersQuiet part s
  | .flrComplete part => Sys2Proof.Machine.execFlrComplete part s
  | .flrTimeout part => Sys2Proof.Machine.execFlrTimeout part s
  | .partFreezeComplete part => Sys2Proof.Machine.execPartFreezeComplete part s
  | .partFreezeTimeout part => Sys2Proof.Machine.execPartFreezeTimeout part s
  | .d3hotFreezeTimeout part => Sys2Proof.Machine.execD3hotFreezeTimeout part s
  | .tdispConfigLocked part => Sys2Proof.Machine.execTdispConfigLocked part s
  | .tdispLockedConfigChange part => Sys2Proof.Machine.execTdispLockedConfigChange part s
  | .tdispUnlock part => Sys2Proof.Machine.execTdispUnlock part s
  | .tdispRun part stream => Sys2Proof.Machine.execTdispRun part stream s
  | .unitScrubComplete unit => Sys2Proof.Machine.execUnitScrubComplete unit s
  | .scrubWriteFail unit => Sys2Proof.Machine.execScrubWriteFail unit s
  | .hostLinkUp link rate width cxl => Sys2Proof.Machine.execHostLinkUp link rate width cxl s
  | .hostLinkDown link => Sys2Proof.Machine.execHostLinkDown link s
  | .hostLinkDownGraceExpiry link => Sys2Proof.Machine.execHostLinkDownGraceExpiry link s
  | .hostLinkHotReset link => Sys2Proof.Machine.execHostLinkHotReset link s
  | .d3hotEntry => Sys2Proof.Machine.execD3hotEntry s
  | .d0Entry => Sys2Proof.Machine.execD0Entry s
  | .ideKm link stream key => Sys2Proof.Machine.execIdeKm link stream key s
  | .ideCheckFailed link stream => Sys2Proof.Machine.execIdeCheckFailed link stream s
  | .getVersion link version => Sys2Proof.Machine.execGetVersion link version s
  | .getCertificate link => Sys2Proof.Machine.execGetCertificate link s
  | .getMeasurements link => Sys2Proof.Machine.execGetMeasurements link s
  | .doeDiscovery link => Sys2Proof.Machine.execDoeDiscovery link s
  | .cdatRead link => Sys2Proof.Machine.execCdatRead link s
  | .spdmKeyExchange link => Sys2Proof.Machine.execSpdmKeyExchange link s
  | .mbxTxqWrite fn ch word => Sys2Proof.Machine.execMbxTxqWrite fn ch word s
  | .mbxDoorbellWrite fn ch ptr => Sys2Proof.Machine.execMbxDoorbellWrite fn ch ptr s
  | .mbxRxqRead fn ch => Sys2Proof.Machine.execMbxRxqRead fn ch s
  | .mbxNoticeOutRead fn ch half => Sys2Proof.Machine.execMbxNoticeOutRead fn ch half s
  | .mbxTicketRead fn ch half => Sys2Proof.Machine.execMbxTicketRead fn ch half s
  | .mbxTicketRelease fn ch ticket => Sys2Proof.Machine.execMbxTicketRelease fn ch ticket s
  | .mbxCtlWrite fn ch value => Sys2Proof.Machine.execMbxCtlWrite fn ch value s
  | .overrunClear fn ch => Sys2Proof.Machine.execOverrunClear fn ch s
  | .ticketSkip fn ch => Sys2Proof.Machine.execTicketSkip fn ch s
  | .abandoned fn ch => Sys2Proof.Machine.execAbandoned fn ch s
  | .moonResponsePosted fn ch => Sys2Proof.Machine.execMoonResponsePosted fn ch s
  | .mailboxQueueError fn ch what => Sys2Proof.Machine.execMailboxQueueError fn ch what s
  | .moonExceptionEntry core cause faultAddr kind => Sys2Proof.Machine.execMoonExceptionEntry core cause faultAddr kind s
  | .moonLockup core => Sys2Proof.Machine.execMoonLockup core s
  | .moonWatchdog => Sys2Proof.Machine.execMoonWatchdog s
  | .fwRestart => Sys2Proof.Machine.execFwRestart s
  | .restartLimit => Sys2Proof.Machine.execRestartLimit s
  | .deviceReady => Sys2Proof.Machine.execDeviceReady s
  | .ylpAck peer seq nak => Sys2Proof.Machine.execYlpAck peer seq nak s
  | .ylpPut link f => Sys2Proof.Machine.execYlpPut link f s
  | .ylpMput link f => Sys2Proof.Machine.execYlpMput link f s
  | .ylpGet link f => Sys2Proof.Machine.execYlpGet link f s
  | .ylpBget link f => Sys2Proof.Machine.execYlpBget link f s
  | .ylpAtom link f => Sys2Proof.Machine.execYlpAtom link f s
  | .ylpRed link f => Sys2Proof.Machine.execYlpRed link f s
  | .ylpEvt link f => Sys2Proof.Machine.execYlpEvt link f s
  | .ylpMbox link f => Sys2Proof.Machine.execYlpMbox link f s
  | .ylpCmp link f => Sys2Proof.Machine.execYlpCmp link f s
  | .ylpTransit link f => Sys2Proof.Machine.execYlpTransit link f s
  | .ylpTime link msg => Sys2Proof.Machine.execYlpTime link msg s
  | .ylpRetryTimeout peer => Sys2Proof.Machine.execYlpRetryTimeout peer s
  | .remoteResend tag => Sys2Proof.Machine.execRemoteResend tag s
  | .remoteBusyLimit tag => Sys2Proof.Machine.execRemoteBusyLimit tag s
  | .remoteCmpTimeout tag => Sys2Proof.Machine.execRemoteCmpTimeout tag s
  | .linkDegrade link lane => Sys2Proof.Machine.execLinkDegrade link lane s
  | .linkTrainingRetry link => Sys2Proof.Machine.execLinkTrainingRetry link s
  | .linkUp link => Sys2Proof.Machine.execLinkUp link s
  | .linkDown link => Sys2Proof.Machine.execLinkDown link s
  | .linkRetryFail link => Sys2Proof.Machine.execLinkRetryFail link s
  | .tideParentLinkDown => Sys2Proof.Machine.execTideParentLinkDown s
  | .bucketRefill => Sys2Proof.Machine.execBucketRefill s
  | .controlPeriod sense => Sys2Proof.Machine.execControlPeriod sense s
  | .voutCommand => Sys2Proof.Machine.execVoutCommand s
  | .opChangeComplete half => Sys2Proof.Machine.execOpChangeComplete half s
  | .controlPortNoAck => Sys2Proof.Machine.execControlPortNoAck s
  | .fastOpLimit op halves src => Sys2Proof.Machine.execFastOpLimit op halves src s
  | .throtNFall => Sys2Proof.Machine.execThrotNFall s
  | .throtNRise => Sys2Proof.Machine.execThrotNRise s
  | .droopWarning half mv => Sys2Proof.Machine.execDroopWarning half mv s
  | .droopHalvingEnd half => Sys2Proof.Machine.execDroopHalvingEnd half s
  | .droopHoldEnd half => Sys2Proof.Machine.execDroopHoldEnd half s
  | .droopReset half => Sys2Proof.Machine.execDroopReset half s
  | .thermalLimitRise half => Sys2Proof.Machine.execThermalLimitRise half s
  | .hbmThermalLimit stack temp => Sys2Proof.Machine.execHbmThermalLimit stack temp s
  | .thermtrip => Sys2Proof.Machine.execThermtrip s
  | .energyEstimateUpdate => Sys2Proof.Machine.execEnergyEstimateUpdate s
  | .mirrorStale => Sys2Proof.Machine.execMirrorStale s
  | .crescentStart boot => Sys2Proof.Machine.execCrescentStart boot s
  | .crescentSample reads => Sys2Proof.Machine.execCrescentSample reads s
  | .ledgerRecord => Sys2Proof.Machine.execLedgerRecord s
  | .intervalClose => Sys2Proof.Machine.execIntervalClose s
  | .ledgerMissing => Sys2Proof.Machine.execLedgerMissing s
  | .railStale rail => Sys2Proof.Machine.execRailStale rail s
  | .checksumRecompute sum => Sys2Proof.Machine.execChecksumRecompute sum s
  | .metrologyChangePackage pkg => Sys2Proof.Machine.execMetrologyChangePackage pkg s
  | .vstbyCrFall committed => Sys2Proof.Machine.execVstbyCrFall committed s
  | .vstbyCrRise => Sys2Proof.Machine.execVstbyCrRise s
  | .crescentHourlyCommit => Sys2Proof.Machine.execCrescentHourlyCommit s
  | .oscillatorFault => Sys2Proof.Machine.execOscillatorFault s
  | .patrolScrub line found => Sys2Proof.Machine.execPatrolScrub line found s
  | .arrayPatrol array found => Sys2Proof.Machine.execArrayPatrol array found s
  | .checkerFailedPath path => Sys2Proof.Machine.execCheckerFailedPath path s
  | .repairMapUpdate die => Sys2Proof.Machine.execRepairMapUpdate die s
  | .repairMapRetry die ok => Sys2Proof.Machine.execRepairMapRetry die ok s
  | .rasInjectGo value => Sys2Proof.Machine.execRasInjectGo value s
  | .rasAlertPendClear value => Sys2Proof.Machine.execRasAlertPendClear value s
  | .rasAlertMaskWrite value => Sys2Proof.Machine.execRasAlertMaskWrite value s
  | .acctThreshCtlWrite part value => Sys2Proof.Machine.execAcctThreshCtlWrite part value s
  | .acctThresholdFire part => Sys2Proof.Machine.execAcctThresholdFire part s
  | .qdTailWrite part value => Sys2Proof.Machine.execQdTailWrite part value s
  | .qdConfigWrite part size value => Sys2Proof.Machine.execQdConfigWrite part size value s
  | .partLinkWrite part value => Sys2Proof.Machine.execPartLinkWrite part value s
  | .pwrOpMaxWrite value => Sys2Proof.Machine.execPwrOpMaxWrite value s
  | .w1cClear fn offset value => Sys2Proof.Machine.execW1cClear fn offset value s
  | .registerWrite fn offset size value => Sys2Proof.Machine.execRegisterWrite fn offset size value s
  | .stepBoundary turn => Sys2Proof.Machine.execStepBoundary turn s
  | .graphNodeLaunch part node => Sys2Proof.Machine.execGraphNodeLaunch part node s
  | .graphEnd turn => Sys2Proof.Machine.execGraphEnd turn s
  | .stepBuilderError half => Sys2Proof.Machine.execStepBuilderError half s
  | .clusterGate cluster => Sys2Proof.Machine.execClusterGate cluster s
  | .clusterUngate cluster => Sys2Proof.Machine.execClusterUngate cluster s
  | .debugExpiry => Sys2Proof.Machine.execDebugExpiry s
  | .pwrgdMainRise board => Sys2Proof.Machine.execPwrgdMainRise board s
  | .pwrgdMainFall => Sys2Proof.Machine.execPwrgdMainFall s
  | .devRstN level => Sys2Proof.Machine.execDevRstN level s
  | .perstN port level => Sys2Proof.Machine.execPerstN port level s
  | .tidePllLock => Sys2Proof.Machine.execTidePllLock s
  | .tidePllLockTimeout => Sys2Proof.Machine.execTidePllLockTimeout s
  | .tidePllRelock => Sys2Proof.Machine.execTidePllRelock s
  | .dieBridgeTrainingEnd ok => Sys2Proof.Machine.execDieBridgeTrainingEnd ok s
  | .moonInitPhaseEnd => Sys2Proof.Machine.execMoonInitPhaseEnd s
  | .phaseOverrun => Sys2Proof.Machine.execPhaseOverrun s
  | .warmResetStop => Sys2Proof.Machine.execWarmResetStop s
  | .tideRefclkLoss => Sys2Proof.Machine.execTideRefclkLoss s
  | .vioX0Removal => Sys2Proof.Machine.execVioX0Removal s
  | .trueRandomSourceRecovery => Sys2Proof.Machine.execTrueRandomSourceRecovery s
  | .bootRomPhaseEnd fusesOk lifeOk slotA slotB => Sys2Proof.Machine.execBootRomPhaseEnd fusesOk lifeOk slotA slotB s
  | .selfTestPhaseEnd failing rowsOk => Sys2Proof.Machine.execSelfTestPhaseEnd failing rowsOk s
  | .hbmInitPhaseEnd stacksOk => Sys2Proof.Machine.execHbmInitPhaseEnd stacksOk s
  | .warmReset cause => Sys2Proof.Machine.execWarmReset cause s
  | .pcieRefclkLoss port => Sys2Proof.Machine.execPcieRefclkLoss port s
  | .linkRefclkLoss die => Sys2Proof.Machine.execLinkRefclkLoss die s
  | .testAccessPortInstruction op => Sys2Proof.Machine.execTestAccessPortInstruction op s
  | .pldmRequest msg => Sys2Proof.Machine.execPldmRequest msg s

end Sys2Proof.Machine
end

