-- ==== Sys2Proof/Safety.lean ====
section
/-! DEFINITION. Safety.lean: the terms that claims use: a command that completes, a safe run, and the frame of a core instruction. -/

namespace Sys2Proof.Machine

/-- The command COMPLETES at `s`: `exec` answers a next state, which keeps the queue and whose device satisfies `P`. -/
def Does (c : Instr) (s : State) (P : Mach → Prop) : Prop := ∃ t : Mach, exec c s = .next { s with m := t } ∧ P t

/-- The command stops at `s`, with a fault or a refusal. -/
def Stops (c : Instr) (s : State) : Prop := (∃ r, exec c s = .fault r) ∨ ∃ r, exec c s = .refused r

/-- A run of `k` steps is safe: none of its steps faults or is refused. -/
def SafeRun (k : Nat) (s : State) : Prop := ∃ t, Sys2Proof.core.run k s = .next t

/-- Group `g` can issue the core instruction `i` now (R82): it is resident and runs, the word passed the checks of KGI.LOAD, and its
line is in the core's instruction cache (R210). -/
def CanIssue (g : Nat) (i : Instr) (m : Mach) : Prop :=
  g < 49152 ∧ i.wf = true ∧ m.runnable g = true ∧ kernelAllows (m.krn (m.krnOf g)).desc i = true ∧ m.fetch g = .hit

/-- The guard is true in some lane, and in every lane where the instruction is group-wide (R84, R85). -/
def GuardOpen (g : Nat) (pi : BitVec 3) (pn wide : Bool) (m : Mach) : Prop :=
  m.guards g pi pn ≠ 0 ∧ (wide = true → m.guards g pi pn = 0xFFFFFFFF)

/-- A stochastic rounding can draw: its streams are not lent, and they are seeded or the true-random source works (R158, R192,
R194, R205). -/
def CanDraw (g : Nat) (rnd : Rnd) (m : Mach) : Prop :=
  rnd = .stochastic → (m.grp g).lent = false ∧ ((m.grp g).seeding ≠ .unseeded ∨ m.sec.trngOk = true)

/-- Cores: only that of group `g` changes, and only in its last issue. -/
def CoreFrame (g : Nat) (m t : Mach) : Prop :=
  (∀ c, c ≠ coreOf g → t.core c = m.core c) ∧
    t.core (coreOf g) = { m.core (coreOf g) with issueTide := m.coreTide (coreOf g) }

/-- The frame of an instruction on registers: nothing of the device changes but group `g`, its core's last issue, and, where it draws, the launch's sticky flag and the count of free values. -/
def RegFrame (g : Nat) (draws : Bool) (m t : Mach) : Prop :=
  t = { m with groups := t.groups, cores := t.cores, krns := t.krns, free := t.free } ∧
    (∀ h, h ≠ g → t.grp h = m.grp h) ∧ CoreFrame g m t ∧
    (draws = false → t.krns = m.krns ∧ t.free = m.free ∧ (t.grp g).lanes = (m.grp g).lanes ∧ (t.grp g).seeding = (m.grp g).seeding) ∧
    (∀ k, t.krn k = m.krn k ∨ t.krn k = { m.krn k with unseeded := true })

/-- Of group `g` itself only v-registers, u-registers, predicates, the pc and the streams may change, and the pc has advanced by one
word. -/
def Advanced (g : Nat) (m t : Mach) : Prop :=
  t.grp g = { m.grp g with pc := (m.grp g).pc + 1, v := (t.grp g).v, u := (t.grp g).u, p := (t.grp g).p,
                           lanes := (t.grp g).lanes, seeding := (t.grp g).seeding }

/-- No access in flight carries an identifier that is still to be given out. -/
def FreshIds (m : Mach) : Prop := ∀ o ∈ m.ops, o.id < m.nextId

/-- The device's memories, HBM, Moon's SRAM and every core's local memory, are in canonical form: addresses rise strictly, and no byte
that an unlisted address reads as is listed. -/
def Memory.wf (m : Mach) : Bool := twf 0 m.mem.hbm && twf 0 m.moon.sram && m.cores.all (fun e => twf 0 e.2.loc)

/-- The frame of a unit-issue, memory or tensor instruction on cores: each core keeps all but its last issue and TLB, and what `f` says
of the group's own core. -/
def CoresBut (g : Nat) (m t : Mach) (f : Core → Core) : Prop :=
  ∀ c, t.core c = (if c = coreOf g then f else id)
    { m.core c with issueTide := (t.core c).issueTide, tlb := (t.core c).tlb }

/-- Group `g` goes on with the next word, changed by `f`; no other group changes. -/
def GoesOn (g : Nat) (m t : Mach) (f : Group → Group) : Prop :=
  (∀ h, h ≠ g → t.grp h = m.grp h) ∧ t.grp g = { f (m.grp g) with pc := (m.grp g).pc + 1 }

/-- The frame of an access to memory: it reaches the memory system, the partitions' accounts, logs, buckets and pending interrupts, the
records, host memory and what is sent out, and nothing else: no register, counter or local memory of any core, no launch, no link,
no power, security or start-up state. -/
def MemFrame (m t : Mach) : Prop :=
  t = { m with mem := t.mem, parts := t.parts, ras := t.ras, host := t.host, moon := t.moon, out := t.out, free := t.free }

end Sys2Proof.Machine
end

