-- ==== Sys2Proof/Certificates/Slice0/Obligations.lean ====
section
/-! DEFINITION. Obligations.lean: the statements for the provers. -/

open Sys2Proof Sys2Proof.Machine

namespace Sys2Proof.Claims

/-- An instruction of format A that computes a register: its constructor, the v-registers it reads or writes, whether its result takes
64 bits, and the result in a lane from the rounding draws. -/
structure AluRow where
  ctor : Nat → FmtA → Instr
  regs : FmtA → List Nat
  wide : FmtA → Bool
  res : FmtA → Mach → Nat → (Nat → Nat) → Nat → Nat

/-- A row over the sources of its TYPE's width. -/
def plainRow (ctor : Nat → FmtA → Instr) (s2 s3 : Bool) (op : FmtA → Nat → Nat → Nat → Nat → Nat) : AluRow :=
  { ctor := ctor, regs := fun f => aRegs f s2 s3 f.ty.is64 f.ty.is64 f.ty.is64, wide := fun f => f.ty.is64,
    res := fun f m g r l =>
      op f (r l) (m.src13 g f f.vs1 l f.ty.is64) (if s2 then m.src2 g f l f.ty.is64 else 0) (if s3 then m.src13 g f f.vs3 l f.ty.is64 else 0) }

/-- A shift: the count is a 32-bit register. -/
def shiftRow (ctor : Nat → FmtA → Instr) (op : Nat → Nat → Nat → Nat) : AluRow :=
  { ctor := ctor, regs := fun f => aRegs f true false f.ty.is64 f.ty.is64 false, wide := fun f => f.ty.is64,
    res := fun f m g _ l => op (tyWidth f.ty) (m.src13 g f f.vs1 l f.ty.is64) (m.src2 g f l false) }

/-- The instructions of format A that write one register. -/
def aluRows : List AluRow :=
  [ plainRow .add true false opAdd, plainRow .sub true false opSub, plainRow .mul true false opMul, plainRow .mulhi true false opMulhi,
    plainRow .min true false opMin, plainRow .max true false opMax, plainRow .abs false false opAbs, plainRow .neg false false opNeg,
    plainRow .fma true true opFma, plainRow .dot4 true true opDot4, plainRow .and true false (fun _ _ a b _ => a &&& b),
    plainRow .or true false (fun _ _ a b _ => a ||| b), plainRow .xor true false (fun _ _ a b _ => a ^^^ b),
    plainRow .not false false (fun f _ a _ _ => 2 ^ (if f.ty.is64 then 64 else 32) - 1 - a),
    shiftRow .shl shiftL, shiftRow .shr shiftR, shiftRow .sar shiftA,
    plainRow .popc false false (fun _ _ a _ _ => popc32 a), plainRow .clz false false (fun _ _ a _ _ => clz32 a),
    plainRow .brev false false (fun _ _ a _ _ => brev32 a), plainRow .mov false false (fun _ _ a _ _ => a),
    plainRow .rcp false false (fun _ _ a _ _ => rcp32 a), plainRow .rsq false false (fun _ _ a _ _ => rsq32 a),
    plainRow .sqrt false false (fun _ _ a _ _ => sqrt32 a), plainRow .exp2 false false (fun _ _ a _ _ => exp232 a),
    plainRow .log2 false false (fun _ _ a _ _ => log232 a), plainRow .tanh false false (fun _ _ a _ _ => tanh32 a),
    { ctor := .cvt, regs := fun f => aRegs f false false (f.cvtTo.getD .s32).is64 f.ty.is64 false, wide := fun f => (f.cvtTo.getD .s32).is64,
      res := fun f m g r l => cvtOp f.ty (f.cvtTo.getD .s32) f.rnd (r l) (m.src13 g f f.vs1 l f.ty.is64) },
    { ctor := .sel, regs := fun f => aRegs f false true f.ty.is64 f.ty.is64 false, wide := fun f => f.ty.is64,
      res := fun f m g _ l => if (m.pGet g f.pd.toNat).getLsbD l then m.src13 g f f.vs1 l f.ty.is64 else m.src13 g f f.vs3 l f.ty.is64 },
    { ctor := .pmov, regs := fun f => if f.dk then [] else [f.vd.toNat], wide := fun _ => false,
      res := fun f m g _ l => ((m.pGet g (f.vs1.toNat % 8)).getLsbD l).toNat },
    { ctor := .shfl, regs := fun f => aRegs f true false false false false, wide := fun _ => false,
      res := fun f m g _ l => m.src13 g f f.vs1 (m.src2 g f l false % 32) false } ]

/-- The rounding draws of a word with RND 4 are 16 bits a lane; no other word draws (R158). -/
def drawsOk (rnd : Rnd) (r : Nat → Nat) : Prop := (∀ l, r l < 65536) ∧ (rnd ≠ .stochastic → ∀ l, r l = 0)

/-- The v-registers after a result `x l` has been written in the lanes of a mask: register `vd`, with `vd + 1` where the result is
`wide`; registers at or beyond the allotment are not written and read zero (R77). -/
def vWritten (g vd : Nat) (wide : Bool) (mask : Word) (x : Nat → Nat) (m t : Mach) : Prop :=
  ∀ r l, l < 32 → t.vGet g r l =
    if mask.getLsbD l = false then m.vGet g r l
    else if m.allot g ≤ r then 0
    else if wide ∧ r = vd + 1 then x l / 2 ^ 32 % 2 ^ 32
    else if r = vd then x l % 2 ^ 32
    else m.vGet g r l

/-- The u-registers after a result has been written to `ud`, with `ud + 1` where it is `wide`. -/
def uWritten (g ud : Nat) (wide : Bool) (x : Nat) (m t : Mach) : Prop :=
  ∀ r, r < 64 → t.uGet g r =
    if wide ∧ r = ud + 1 then x / 2 ^ 32 % 2 ^ 32 else if r = ud then x % 2 ^ 32 else m.uGet g r

/-- The value that lane `l` gives a lane operation: a v-register of the lane, or the u-register with DK = 1. -/
def laneVal (f : FmtA) (m : Mach) (g l : Nat) : Nat := m.src13 g f f.vs1 l false

/-- The predicates after `x l` has been written to predicate `pd` in the lanes of a mask; p0 is not written (R110). -/
def pWritten (g pd : Nat) (mask : Word) (x : Nat → Bool) (m t : Mach) : Prop :=
  ∀ q l, q < 8 → l < 32 → (t.pGet g q).getLsbD l = if q = 0 then true else if q = pd ∧ mask.getLsbD l = true then x l else (m.pGet g q).getLsbD l

/-- The six compares of format A. -/
def cmpRows : List ((Nat → FmtA → Instr) × CmpOp) :=
  [(.cmpEq, .eq), (.cmpNe, .ne), (.cmpLt, .lt), (.cmpLe, .le), (.cmpGt, .gt), (.cmpGe, .ge)]

/-- The condition of a C word, by Table 05.5 and R86. -/
def branchTaken (g : Nat) (f : FmtC) (m : Mach) : Prop :=
  match f.ck with
  | .always => True
  | .ureg =>
    let x := (BitVec.ofNat 32 (m.uGet g f.cu.toNat)).toInt
    (match f.cmp with | .eqz => x = 0 | .nez => x ≠ 0 | .ltz => x < 0 | .gez => 0 ≤ x | .gtz => 0 < x | .lez => x ≤ 0)
  | .any => ∃ l, l < 32 ∧ (m.pGet g f.cp.toNat).getLsbD l = true
  | .all => ∀ l, l < 32 → (m.pGet g f.cp.toNat).getLsbD l = true
  | .none => ∀ l, l < 32 → (m.pGet g f.cp.toNat).getLsbD l = false

/-- The four jumps: their constructor and the word index each jumps to. -/
def jumpRows : List ((Nat → FmtC → Instr) × (FmtC → Mach → Nat → Int)) :=
  [ (.bra, fun f m g => ((m.grp g).pc.toNat : Int) + f.tgt.toInt), (.call, fun f m g => ((m.grp g).pc.toNat : Int) + f.tgt.toInt),
    (.brx, fun f m g => m.uGet g f.cu.toNat), (.ret, fun f m g => m.uGet g f.cu.toNat) ]

/-- A word index lies in the code range of group `g`'s kernel. -/
def inKernel (g : Nat) (i : Int) (m : Mach) : Prop :=
  let d := (m.krn (m.krnOf g)).desc
  (d.entry : Int) ≤ i ∧ i < (d.entry : Int) + d.length

/-- The group and guard of a core instruction of formats A, B, C and S, B SEL apart, and whether it is group-wide. -/
def guardOf : Instr → Option (Nat × BitVec 3 × Bool × Bool)
  | .add g f | .sub g f | .mul g f | .mulhi g f | .min g f | .max g f | .abs g f | .neg g f | .fma g f | .dot4 g f | .and g f | .or g f
  | .xor g f | .not g f | .shl g f | .shr g f | .sar g f | .popc g f | .clz g f | .brev g f | .sel g f | .cmpEq g f | .cmpNe g f
  | .cmpLt g f | .cmpLe g f | .cmpGt g f | .cmpGe g f | .mov g f | .cvt g f | .pmov g f | .rcp g f | .rsq g f | .sqrt g f | .exp2 g f
  | .log2 g f | .tanh g f | .shfl g f => some (g, f.pi, f.pn, f.dk)
  | .ballot g f | .redadd g f | .redmax g f => some (g, f.pi, f.pn, true)
  | .immediateAluForm g o f => if o = .sel then none else some (g, f.pi, f.pn, f.uk)
  | .cmpFImmediate g _ f | .cmpIntImmediate g _ f | .movi g f => some (g, f.pi, f.pn, f.uk)
  | .bra g f | .brx g f | .call g f | .ret g f | .exit g f | .nop g f => some (g, f.pi, f.pn, true)
  | .tmma g f | .tzero g f | .tload g f | .tstore g f => some (g, f.pi, f.pn, true)
  | .evtInc g f | .evtSig g f | .evtWait g f | .evtRead g f | .fenceAcq g f | .fenceRel g f | .flush g f | .ceCopy g f | .mcast g f
  | .ordSort g f | .ordTopk g f | .ordArgmax g f | .ordNearest g f | .ordSearch g f | .ordSample g f | .rngU32 g f | .rngU24 g f
  | .rngBern g f | .rngNorm g f | .rngGumbel g f | .rngKey g f | .tideRd g f | .irqRaise g f => some (g, f.pi, f.pn, true)
  | _ => none

/-- The value that an RNG instruction writes in a lane from the lane's draw (R196 to R198). -/
def rngRows : List ((Nat → FmtS → Instr) × (Mach → Nat → FmtS → Nat → Nat)) :=
  [ (.rngU32, fun _ _ _ d => d), (.rngU24, fun _ _ _ d => f32.encode .nearest 0 (.fin false (d / 256) (-24))),
    (.rngBern, fun m g f d => if d < m.uGet g f.ua.toNat then 1 else 0),
    (.rngNorm, fun m g f d => f32.fma .nearest 0 (m.uGet g (f.ua.toNat + 1)) (normalZ d) (m.uGet g f.ua.toNat)),
    (.rngGumbel, fun m g f d => f32.mul .nearest 0 (m.uGet g f.ua.toNat) (gumbelG d)) ]

/-- The streams that a draw of group `g` starts from: its own, or those seeded from the true-random source (R194). -/
def streamsOf (m : Mach) (g : Nat) : Tbl RngLane :=
  if (m.grp g).seeding = .unseeded then seedGroup (Config.trueRandom m.free) (m.blk (m.grp g).block).id (m.grp g).index 0 else (m.grp g).lanes

/-- The instructions of format M and what each access does. -/
def memRows : List ((Nat → FmtM → Instr) × MemKind) :=
  [ (.ld, .load), (.st, .store), (.atAdd, .atomic .add), (.atMins, .atomic .mins), (.atMinu, .atomic .minu), (.atMaxs, .atomic .maxs),
    (.atMaxu, .atomic .maxu), (.atAnd, .atomic .and), (.atOr, .atomic .or), (.atXor, .atomic .xor), (.atXchg, .atomic .xchg),
    (.atCas, .atomic .cas), (.atFadd, .atomic .fadd), (.redAdd, .red .add), (.redMins, .red .mins), (.redMinu, .red .minu),
    (.redMaxs, .red .maxs), (.redMaxu, .red .maxu), (.redAnd, .red .and), (.redOr, .red .or), (.redXor, .red .xor), (.redFadd, .red .fadd) ]

/-- The byte at `a` once the lanes of a local store of `n` bytes have been performed in order. -/
def storedByte (ls : List LaneAcc) (n a : Nat) (old : Byte) : Byte :=
  ls.foldl (fun acc l => match l.tgt with
    | .localMem off => if off ≤ a ∧ a < off + n then BitVec.ofNat 8 (l.data.toNat / 256 ^ (a - off)) else acc
    | _ => acc) old

/-- The tensor instructions. -/
def tensorRows : List ((Nat → FmtT → Instr) × TKind) := [(.tmma, .tmma), (.tzero, .tzero), (.tload, .tload), (.tstore, .tstore)]

/-- Counter `e` of core `c` after a completion increment of launch `k` (R126): one more, saturating, where the launch holds a bank on a
served core. -/
def incremented (eve : Bool) (k core ec : Nat) (m t : Mach) : Prop :=
  ∀ c e, t.ctrVal c e =
    match m.bankOf k (clusterOf core) with
    | some b => if eve = true ∧ m.coreLive core = true ∧ c = core ∧ e = 32 * b + ec then satInc (m.ctrVal c e) 1 else m.ctrVal c e
    | none => m.ctrVal c e

/-- Group `g` waits for operation `id`, or goes on where the operation runs on by itself (R126). -/
def awaits (g id : Nat) (eve : Bool) (m t : Mach) : Prop := GoesOn g m t (fun x => if eve then x else { x with wait := .op id })

/-- The group that waited for operation `id` waits no longer; no other group changes. -/
def released (g id : Nat) (m t : Mach) : Prop :=
  ∀ h, t.grp h = if h = g ∧ (m.grp g).wait = .op id then { m.grp g with wait := .none } else m.grp h

/-- Of the accesses in flight only this changes: a lane of the core that loads a line of the set will not allocate it (R264). -/
def onlyFills (core : Nat) (hit : Nat → Prop) (m t : Mach) : Prop :=
  let plain := fun (o : MemOp) => { o with lanes := o.lanes.map (fun (l : LaneAcc) => { l with noFill := false }) }
  t.ops.map plain = m.ops.map plain ∧ ∀ o ∈ t.ops, o.core = core → ∀ l ∈ o.lanes, ∀ pa, l.tgt = .hbm pa → hit (pa / 64) → l.noFill = true

/-- A status word with detail 0 (R127). -/
def statusBytes (code : Nat) : List Byte := leBytes 8 code

end Sys2Proof.Claims

open Sys2Proof.Claims

/-- O1: a step takes the command at the front of the queue and runs exec on it with the queue's rest. Choices and readings of the model:
log 2. -/
def Obligations.StepRunsTheFrontCommand : Prop :=
  (∀ (s : State) (c : Instr) (rest : List Instr), s.pending = c :: rest → step s = exec c { s with pending := rest }) ∧
    ∀ s : State, s.pending = [] → step s = .next s

/-- O2: running the commands of a queue one after another is the same whatever waits behind them. -/
def Obligations.CommandSequencesCompose : Prop :=
  ∀ (q r : List Instr) (m : Mach),
    Sys2Proof.core.run q.length ⟨m, q ++ r⟩ =
      match Sys2Proof.core.run q.length ⟨m, q⟩ with
      | .next t => .next { t with pending := r }
      | .fault x => .fault x
      | .refused x => .refused x

/-- O3: the result and the frame of the 31 instructions of format A that write one register (R107 to R112, R585 to R589). Choices and
readings of the model: log 7. -/
def Obligations.AluResults : Prop :=
  ∀ e ∈ aluRows, ∀ (g : Nat) (f : FmtA) (s : State), CanIssue g (e.ctor g f) s.m → s.m.regsFree g (e.regs f) = true →
    GuardOpen g f.pi f.pn f.dk s.m → CanDraw g f.rnd s.m →
    Does (e.ctor g f) s (fun t =>
      RegFrame g (f.rnd == .stochastic) s.m t ∧ Advanced g s.m t ∧ (t.grp g).p = (s.m.grp g).p ∧
      ∃ r : Nat → Nat, drawsOk f.rnd r ∧
        if f.dk then (t.grp g).v = (s.m.grp g).v ∧ uWritten g f.vd.toNat (e.wide f) (e.res f s.m g r 0) s.m t
        else (t.grp g).u = (s.m.grp g).u ∧ vWritten g f.vd.toNat (e.wide f) (s.m.guards g f.pi f.pn) (e.res f s.m g r) s.m t)

/-- O4: BALLOT, REDADD, REDMAX and the compares of formats A and B: result and frame (R110, R586, R587). Choices and readings of the
model: log 26. -/
def Obligations.ComparesAndReductions : Prop :=
  (∀ (g : Nat) (f : FmtA) (s : State), GuardOpen g f.pi f.pn true s.m → CanDraw g f.rnd s.m →
    (CanIssue g (.ballot g f) s.m →
      Does (.ballot g f) s (fun t => RegFrame g (f.rnd == .stochastic) s.m t ∧ Advanced g s.m t ∧ (t.grp g).v = (s.m.grp g).v ∧
        (t.grp g).p = (s.m.grp g).p ∧ uWritten g f.vd.toNat false (s.m.pGet g f.vs1.toNat).toNat s.m t)) ∧
    (CanIssue g (.redadd g f) s.m → s.m.regsFree g (if f.dk then [] else [f.vs1.toNat]) = true →
      Does (.redadd g f) s (fun t => RegFrame g (f.rnd == .stochastic) s.m t ∧ Advanced g s.m t ∧ (t.grp g).v = (s.m.grp g).v ∧
        (t.grp g).p = (s.m.grp g).p ∧ ∃ r : Nat → Nat, drawsOk f.rnd r ∧
          uWritten g f.vd.toNat false
            (if f.ty = .f32 then f32.encode f.rnd (r 0) (sumVals ((List.range 32).map (fun l => f32.decode (laneVal f s.m g l))))
             else ((List.range 32).map (laneVal f s.m g)).sum) s.m t)) ∧
    (CanIssue g (.redmax g f) s.m → s.m.regsFree g (if f.dk then [] else [f.vs1.toNat]) = true →
      Does (.redmax g f) s (fun t => RegFrame g (f.rnd == .stochastic) s.m t ∧ Advanced g s.m t ∧ (t.grp g).v = (s.m.grp g).v ∧
        (t.grp g).p = (s.m.grp g).p ∧
          if f.ty = .f32 then
            uWritten g f.vd.toNat false
              (((List.range 31).map (fun l => laneVal f s.m g (l + 1))).foldl f32.maxNum (f32.maxNum (laneVal f s.m g 0) (laneVal f s.m g 0))) s.m t
          else ∃ l, l < 32 ∧ uWritten g f.vd.toNat false (laneVal f s.m g l) s.m t ∧
            ∀ k, k < 32 → tyInt f.ty (laneVal f s.m g k) ≤ tyInt f.ty (laneVal f s.m g l)))) ∧
  (∀ e ∈ cmpRows, ∀ (g : Nat) (f : FmtA) (s : State), CanIssue g (e.1 g f) s.m → GuardOpen g f.pi f.pn f.dk s.m → CanDraw g f.rnd s.m →
    s.m.regsFree g (aRegs { f with vd := f.vs1 } true false f.ty.is64 f.ty.is64 f.ty.is64) = true →
    Does (e.1 g f) s (fun t => RegFrame g (f.rnd == .stochastic) s.m t ∧ Advanced g s.m t ∧ (t.grp g).v = (s.m.grp g).v ∧
      (t.grp g).u = (s.m.grp g).u ∧
      pWritten g f.pd.toNat (s.m.guards g f.pi f.pn)
        (fun l => let k := if f.dk then 0 else l; relOf e.2 f.ty (s.m.src13 g f f.vs1 k f.ty.is64) (s.m.src2 g f k f.ty.is64)) s.m t)) ∧
  ∀ (g : Nat) (c : CmpOp) (f : FmtB) (s : State) (i : Instr) (ty : Ty),
    (i = .cmpFImmediate g c f ∧ ty = .f32) ∨ (i = .cmpIntImmediate g c f ∧ ty = .s32) →
    CanIssue g i s.m → GuardOpen g f.pi f.pn f.uk s.m → s.m.regsFree g (if f.uk then [] else [f.vs1.toNat]) = true →
    Does i s (fun t => RegFrame g false s.m t ∧ Advanced g s.m t ∧ (t.grp g).v = (s.m.grp g).v ∧ (t.grp g).u = (s.m.grp g).u ∧
      pWritten g f.vd.toNat (s.m.guards g f.pi f.pn) (fun l => relOf c ty (s.m.bReg g f f.vs1 (if f.uk then 0 else l)) f.imm.toNat) s.m t)

/-- O5: the immediate forms of format B, SEL and MOVI: result and frame (R589). -/
def Obligations.ImmediateForms : Prop :=
  ∀ (g : Nat) (f : FmtB) (s : State) (i : Instr) (sel : Bool) (x : Nat → Nat),
    (∃ o, o ≠ .sel ∧ i = .immediateAluForm g o f ∧ sel = false ∧
        s.m.regsFree g (bRegs f) = true ∧ ∀ l, x l = bOp o (s.m.bReg g f f.vs1 l) f.imm.toNat (s.m.bReg g f f.vd l)) ∨
      (i = .immediateAluForm g .sel f ∧ sel = true ∧ s.m.regsFree g (bRegs f) = true ∧
        ∀ l, x l = if (s.m.pGet g f.pi.toNat).getLsbD l ^^ f.pn then s.m.bReg g f f.vs1 l else f.imm.toNat) ∨
      (i = .movi g f ∧ sel = false ∧ s.m.regsFree g (if f.uk then [] else [f.vd.toNat]) = true ∧ ∀ l, x l = f.imm.toNat) →
    CanIssue g i s.m → (sel = false → GuardOpen g f.pi f.pn f.uk s.m) →
    Does i s (fun t => RegFrame g false s.m t ∧ Advanced g s.m t ∧ (t.grp g).p = (s.m.grp g).p ∧
      if f.uk then (t.grp g).v = (s.m.grp g).v ∧ uWritten g f.vd.toNat false (x 0) s.m t
      else (t.grp g).u = (s.m.grp g).u ∧ vWritten g f.vd.toNat false (if sel then 0xFFFFFFFF else s.m.guards g f.pi f.pn) x s.m t)

/-- O6: BRA, CALL, BRX, RET, NOP and EXIT: where the pc goes, and that nothing else changes (R86, R119, R136). -/
def Obligations.JumpsAndExit : Prop :=
  (∀ e ∈ jumpRows, ∀ (g : Nat) (f : FmtC) (s : State), CanIssue g (e.1 g f) s.m → GuardOpen g f.pi f.pn true s.m →
    (¬ branchTaken g f s.m →
      Does (e.1 g f) s (fun t => RegFrame g false s.m t ∧ t.grp g = { s.m.grp g with pc := (s.m.grp g).pc + 1 })) ∧
    (branchTaken g f s.m → inKernel g (e.2 f s.m g) s.m →
      Does (e.1 g f) s (fun t => RegFrame g false s.m t ∧
        t.grp g = { s.m.grp g with pc := BitVec.ofInt 32 (e.2 f s.m g), u := (t.grp g).u } ∧
        ∀ r, r < 64 → t.uGet g r =
          if e.1 g f = .call g f ∧ r = f.cu.toNat then ((s.m.grp g).pc.toNat + 1) % 2 ^ 32 else s.m.uGet g r))) ∧
  ∀ (g : Nat) (f : FmtC) (s : State), GuardOpen g f.pi f.pn true s.m →
    (CanIssue g (.nop g f) s.m →
      Does (.nop g f) s (fun t => RegFrame g false s.m t ∧ t.grp g = { s.m.grp g with pc := (s.m.grp g).pc + 1 })) ∧
    (CanIssue g (.exit g f) s.m →
      Does (.exit g f) s (fun t => t = { s.m with groups := t.groups, cores := t.cores, krns := t.krns } ∧ CoreFrame g s.m t ∧
        (∀ h, h ≠ g → t.grp h = s.m.grp h) ∧ t.grp g = { s.m.grp g with pc := (s.m.grp g).pc + 1, exited := true } ∧
        ∀ k, t.krn k = { s.m.krn k with leftTide := if k = s.m.krnOf g then (t.krn k).leftTide else (s.m.krn k).leftTide }))

namespace Sys2Proof.Claims

/-- Group `g` runs and its kernel allows the instruction: it issues as soon as the word's line is in the instruction cache. -/
def MayFetch (g : Nat) (i : Instr) (m : Mach) : Prop :=
  g < 49152 ∧ i.wf = true ∧ m.runnable g = true ∧ kernelAllows (m.krn (m.krnOf g)).desc i = true

/-- The launch of group `g` may be aborted with a record (R93). -/
def LaunchLives (g : Nat) (m : Mach) : Prop :=
  (m.krn (m.krnOf g)).live = true ∧ m.moon.restart = 0 ∧ (m.part (m.krn (m.krnOf g)).part).st ≠ .resetting

/-- The launch of group `g` has been aborted with a fault code (R93, R546). -/
def LaunchAborted (g fault : Nat) (m t : Mach) : Prop :=
  (t.krn (m.krnOf g)).live = false ∧
    ∃ r, t.ras.ring.head? = some r ∧ r.code = 0x20 ∧ r.fault = fault ∧ r.status = 9 ∧ r.krn = (m.krn (m.krnOf g)).num

end Sys2Proof.Claims

/-- O7: a closed guard only advances; a mixed guard on a group-wide instruction aborts; a word whose line is not in the instruction cache
is fetched first (R84, R85, R93, R135, R210). Choices and readings of the model: logs 81, 133. -/
def Obligations.Guards : Prop :=
  (∀ (i : Instr) (g : Nat) (pi : BitVec 3) (pn wide : Bool) (s : State), guardOf i = some (g, pi, pn, wide) → CanIssue g i s.m →
    (∀ l, l < 32 → (s.m.pGet g pi.toNat).getLsbD l = pn) →
    Does i s (fun t => RegFrame g false s.m t ∧ t.grp g = { s.m.grp g with pc := (s.m.grp g).pc + 1 })) ∧
  (∀ (i : Instr) (g : Nat) (pi : BitVec 3) (pn : Bool) (s : State), guardOf i = some (g, pi, pn, true) → CanIssue g i s.m →
    (∀ o ∈ s.m.ops, o.gid ≠ g) → (∃ l, l < 32 ∧ (s.m.pGet g pi.toNat).getLsbD l = pn) →
    (∃ l, l < 32 ∧ (s.m.pGet g pi.toNat).getLsbD l ≠ pn) → LaunchLives g s.m → Does i s (LaunchAborted g 1 s.m)) ∧
  (∀ (i : Instr) (g : Nat) (pi : BitVec 3) (pn wide : Bool) (s : State), guardOf i = some (g, pi, pn, wide) → MayFetch g i s.m →
    (∀ line d m1, s.m.fetch g = .fill line d m1 → Does i s (fun t => MemFrame s.m { t with cores := s.m.cores } ∧
      (t.core (coreOf g)).icacheLine line = some d ∧
      ∀ c, t.core c = if c = coreOf g then { s.m.core c with icache := (t.core c).icache } else s.m.core c)) ∧
    (∀ m1, s.m.fetch g = .waits m1 → Does i s (fun t => t = m1)) ∧
    (∀ va, s.m.fetch g = .fault va → LaunchLives g s.m → Does i s (LaunchAborted g 2 s.m)) ∧
    ∀ va m1, s.m.fetch g = .poison va m1 → LaunchLives g s.m → Does i s (LaunchAborted g 3 s.m)) ∧
  (∀ (i : Instr) (g : Nat) (pi : BitVec 3) (pn wide : Bool) (s : State), guardOf i = some (g, pi, pn, wide) → g < 49152 →
    (i.wf = false → Stops i s) ∧ (i.wf = true → s.m.runnable g = false → Does i s (fun t => t = s.m)) ∧
    (i.wf = true → s.m.runnable g = true → kernelAllows (s.m.krn (s.m.krnOf g)).desc i = false → Stops i s)) ∧
  ∀ (g : Nat) (m : Mach), let x := m.krn (m.krnOf g)
    let pc := (m.grp g).pc.toNat
    (pc < x.desc.entry ∨ x.desc.entry + x.desc.length ≤ pc ↔ ¬ inKernel g pc m) ∧ (¬ inKernel g pc m → ∃ va, m.fetch g = .fault va)

/-- O8: integer arithmetic, shifts, counts and compares agree with 32-bit and 64-bit bit-vector operations (R586, R587). -/
def Obligations.OperationResults : Prop :=
  (∀ (f : FmtA) (r : Nat) (a b : BitVec 32) (c : Nat), f.ty = .s32 ∨ f.ty = .u32 →
    opAdd f r a.toNat b.toNat c = (a + b).toNat ∧ opSub f r a.toNat b.toNat c = (a - b).toNat ∧ opMul f r a.toNat b.toNat c = (a * b).toNat ∧
    opMulhi f r a.toNat b.toNat c =
      (if f.ty = .s32 then BitVec.ofInt 32 (a.toInt * b.toInt / 2 ^ 32) else BitVec.ofNat 32 (a.toNat * b.toNat / 2 ^ 32)).toNat ∧
    opMin f r a.toNat b.toNat c = (if f.ty = .s32 then (if a.toInt ≤ b.toInt then a else b) else (if a ≤ b then a else b)).toNat ∧
    opMax f r a.toNat b.toNat c = (if f.ty = .s32 then (if a.toInt ≤ b.toInt then b else a) else (if a ≤ b then b else a)).toNat) ∧
  (∀ (f : FmtA) (r : Nat) (a b : BitVec 64) (c : Nat), f.ty = .s64 ∨ f.ty = .u64 →
    opAdd f r a.toNat b.toNat c = (a + b).toNat ∧ opSub f r a.toNat b.toNat c = (a - b).toNat ∧ opMul f r a.toNat b.toNat c = (a * b).toNat) ∧
  (∀ (f : FmtA) (r b c : Nat) (a : BitVec 32), f.ty = .s32 →
    opAbs f r a.toNat b c = (if a.toInt < 0 then -a else a).toNat ∧ opNeg f r a.toNat b c = (-a).toNat) ∧
  (∀ (a : BitVec 32) (n : Nat), shiftL 32 a.toNat n = (a <<< n).toNat ∧ shiftR 32 a.toNat n = (a >>> n).toNat ∧
    shiftA 32 a.toNat n = (a.sshiftRight n).toNat) ∧
  (∀ (a : BitVec 64) (n : Nat), shiftL 64 a.toNat n = (a <<< n).toNat ∧ shiftR 64 a.toNat n = (a >>> n).toNat ∧
    shiftA 64 a.toNat n = (a.sshiftRight n).toNat) ∧
  (∀ a : BitVec 32, popc32 a.toNat = a.cpop.toNat ∧ clz32 a.toNat = a.clz.toNat ∧ brev32 a.toNat = a.reverse.toNat) ∧
  (∀ a b : BitVec 32,
    relOf .eq .s32 a.toNat b.toNat = decide (a = b) ∧ relOf .lt .s32 a.toNat b.toNat = a.slt b ∧
    relOf .le .s32 a.toNat b.toNat = a.sle b ∧ relOf .lt .u32 a.toNat b.toNat = a.ult b ∧ relOf .le .u32 a.toNat b.toNat = a.ule b ∧
    relOf .eq .b32 a.toNat b.toNat = decide (a = b)) ∧
  (∀ (c : CmpOp) (a b : Nat), f32.decode a = .nan ∨ f32.decode b = .nan → relOf c .f32 a b = decide (c = .ne)) ∧
  (∀ a b : Nat, f32.decode a ≠ .nan → f32.decode b ≠ .nan →
    relOf .ne .f32 a b = !relOf .eq .f32 a b ∧ relOf .le .f32 a b = (relOf .lt .f32 a b || relOf .eq .f32 a b) ∧
    relOf .gt .f32 a b = relOf .lt .f32 b a ∧ relOf .ge .f32 a b = relOf .le .f32 b a) ∧
  relOf .eq .f32 0x80000000 0 = true

/-- O9: EVT.INC, EVT.READ and TIDE.RD: result and frame (R87, R128). -/
def Obligations.CountersAndTide : Prop :=
  ∀ (g : Nat) (f : FmtS) (s : State) (b : Nat), GuardOpen g f.pi f.pn true s.m → s.m.mayAccess g = true →
    s.m.bankOf (s.m.krnOf g) (clusterOf (coreOf g)) = some b → s.m.coreLive (coreOf g) = true →
    (CanIssue g (.evtInc g f) s.m →
      Does (.evtInc g f) s (fun t => t = { s.m with groups := t.groups, cores := t.cores } ∧ GoesOn g s.m t id ∧
        (∀ c e, c < 1024 → e < 64 → (t.ctrVal c e).toNat =
          if c = coreOf g ∧ e = 32 * b + f.ec.toNat then min ((s.m.ctrVal c e).toNat + f.imm.toNat) 0xFFFFFFFF else (s.m.ctrVal c e).toNat) ∧
        ∀ c, t.core c = { s.m.core c with issueTide := (t.core c).issueTide, ctr := (t.core c).ctr, ctrTide := (t.core c).ctrTide })) ∧
    (CanIssue g (.evtRead g f) s.m →
      let m1 := s.m.testWaits (coreOf g) (32 * b + f.ec.toNat)
      Does (.evtRead g f) s (fun t => t = { s.m with groups := t.groups, cores := t.cores } ∧ CoresBut g m1 t id ∧
        GoesOn g m1 t (fun x => { x with u := (t.grp g).u }) ∧
        uWritten g f.ua.toNat false (m1.ctrVal (coreOf g) (32 * b + f.ec.toNat)).toNat s.m t)) ∧
    (CanIssue g (.tideRd g f) s.m →
      Does (.tideRd g f) s (fun t => t = { s.m with groups := t.groups, cores := t.cores } ∧ CoresBut g s.m t id ∧
        GoesOn g s.m t (fun x => { x with u := (t.grp g).u }) ∧ uWritten g f.ua.toNat true (s.m.coreTide (coreOf g)) s.m t))

/-- O10: EVT.WAIT, after the waits that a change of its counter has met, goes on, waits or times out, and waiting groups are woken oldest
first (R87, R88, R102, R128). -/
def Obligations.EventWaits : Prop :=
  (∀ (g : Nat) (f : FmtS) (s : State) (b : Nat), GuardOpen g f.pi f.pn true s.m → s.m.mayAccess g = true →
    s.m.bankOf (s.m.krnOf g) (clusterOf (coreOf g)) = some b → CanIssue g (.evtWait g f) s.m →
    let e := 32 * b + f.ec.toNat
    let m1 := s.m.testWaits (coreOf g) e
    let now := (m1.ctrVal (coreOf g) e).toNat
    let thr := s.m.uGet g f.ua.toNat
    (thr ≤ now →
      Does (.evtWait g f) s (fun t => t = { s.m with groups := t.groups, cores := t.cores } ∧
        GoesOn g m1 t (fun x => { x with p := (t.grp g).p }) ∧ pWritten g f.pd.toNat 0xFFFFFFFF (fun _ => true) s.m t ∧
        CoresBut g m1 t (fun c => { c with ctr := (t.core (coreOf g)).ctr, ctrTide := (t.core (coreOf g)).ctrTide }) ∧
        ∀ i, (t.ctrVal (coreOf g) i).toNat = if i = e ∧ f.cons = true then now - thr else (m1.ctrVal (coreOf g) i).toNat)) ∧
    (now < thr → f.dle = true → s.m.uPair g f.ub.toNat ≤ s.m.coreTide (coreOf g) →
      Does (.evtWait g f) s (fun t => t = { s.m with groups := t.groups, cores := t.cores } ∧
        GoesOn g m1 t (fun x => { x with p := (t.grp g).p }) ∧ pWritten g f.pd.toNat 0xFFFFFFFF (fun _ => false) s.m t ∧ CoresBut g m1 t id)) ∧
    (now < thr → (f.dle = true → s.m.coreTide (coreOf g) < s.m.uPair g f.ub.toNat) →
      Does (.evtWait g f) s (fun t => t.runnable g = false ∧ CoresBut g m1 t id ∧ t = { s.m with groups := t.groups, cores := t.cores } ∧
        GoesOn g m1 t (fun x => { x with wait := .event e (BitVec.ofNat 32 thr) f.cons (if f.dle then some (s.m.uPair g f.ub.toNat) else none)
                                                    f.pd.toNat (s.m.coreTide (coreOf g)) })))) ∧
  (∀ (core ctr : Nat) (s : State), core < 1024 → ctr < 64 →
    Does (.evtWaitSatisfied core ctr) s (fun t =>
      (∀ g c thr cons d pd since, g ∈ groupSlots core → (t.grp g).live = true → (t.grp g).wait = .event c thr cons d pd since → c = ctr →
        t.ctrVal core ctr < thr) ∧
      (∀ g thr cons d pd since, g ∈ groupSlots core → (s.m.grp g).live = true → (s.m.grp g).wait = .event ctr thr cons d pd since →
        thr ≤ s.m.ctrVal core ctr →
        (∀ h ∈ groupSlots core, h ≠ g → (s.m.grp h).live = true → (s.m.grp g).age < (s.m.grp h).age) →
        (t.grp g).wait = .none ∧ (pd ≠ 0 → t.pGet g pd = 0xFFFFFFFF)) ∧
      t = { s.m with groups := t.groups, cores := t.cores })) ∧
  ∀ (g : Nat) (s : State) (c : Nat) (thr : Word) (cons : Bool) (d pd since : Nat), g < 49152 → (s.m.grp g).live = true →
    (s.m.grp g).wait = .event c thr cons (some d) pd since → d ≤ s.m.coreTide (coreOf g) →
    let m1 := s.m.testWaits (coreOf g) c
    Does (.evtWaitDeadline g) s (fun t => (t.grp g).wait = .none ∧ (t.grp g).pc = (s.m.grp g).pc ∧ t = { m1 with groups := t.groups } ∧
      (∀ h, h ≠ g → t.grp h = m1.grp h) ∧ ((m1.grp g).wait = .none → t = m1) ∧
      (s.m.ctrVal (coreOf g) c < thr → pd ≠ 0 → t.pGet g pd = 0))

/-- O11: EVT.SIG sends one signal, whose arrival increments the counter it names (R89, R90, R128). Choices and readings of the model: log
55. -/
def Obligations.RemoteSignals : Prop :=
  (∀ (g : Nat) (f : FmtS) (s : State), GuardOpen g f.pi f.pn true s.m → s.m.mayAccess g = true → CanIssue g (.evtSig g f) s.m →
    let k := s.m.krnOf g
    let cluster := s.m.uGet g f.ua.toNat / 256 % 64
    ((s.m.part (s.m.krn k).part).clusters.getLsbD cluster = true →
      Does (.evtSig g f) s (fun t => GoesOn g s.m t id ∧ CoresBut g s.m t id ∧
        t = { s.m with groups := t.groups, cores := t.cores, sigs := t.sigs, nextId := s.m.nextId + 1 } ∧
        ∃ x, t.sigs = s.m.sigs ++ [x] ∧ x.krn = k ∧ x.core = 16 * cluster + s.m.uGet g f.ua.toNat % 16 ∧ x.ec = f.ec.toNat ∧ x.n = f.imm.toNat)) ∧
    ((s.m.part (s.m.krn k).part).clusters.getLsbD cluster = false → (s.m.part (s.m.krn k).part).st = .running → (s.m.krn k).part ≠ 0 →
      s.m.moon.restart = 0 →
      Does (.evtSig g f) s (fun t => GoesOn g s.m t id ∧ t.sigs = s.m.sigs ∧ (∀ c e, t.ctrVal c e = s.m.ctrVal c e) ∧
        (t.part (s.m.krn k).part).irqCause.getLsbD 1 = true ∧
        ∃ r, t.ras.ring.head? = some r ∧ r.status = 3 ∧ r.part = (s.m.krn k).part ∧ r.krn = (s.m.krn k).num))) ∧
  (∀ (s : State) (x : Sig), s.m.sigs.find? (fun y => y.id == x.id) = some x → s.m.coreLive x.core = true → s.m.moon.restart = 0 →
    ((s.m.krn x.krn).live = false ∨ s.m.bankOf x.krn (clusterOf x.core) = none) →
    Does (.evtSigArrival x.id) s (fun t => (∀ y, y ∈ t.sigs ↔ y ∈ s.m.sigs ∧ y.id ≠ x.id) ∧ (∀ c e, t.ctrVal c e = s.m.ctrVal c e) ∧
      ∃ r, t.ras.ring.head? = some r ∧ r.status = 3 ∧ r.part = x.part ∧ r.krn = (s.m.krn x.krn).num)) ∧
  ∀ (s : State) (x : Sig), s.m.sigs.find? (fun y => y.id == x.id) = some x → (s.m.krn x.krn).live = true →
    Does (.evtSigArrival x.id) s (fun t => (∀ y, y ∈ t.sigs ↔ y ∈ s.m.sigs ∧ y.id ≠ x.id) ∧
      ∀ c e, t.ctrVal c e =
        match s.m.bankOf x.krn (clusterOf x.core) with
        | some b => if s.m.coreLive x.core = true ∧ 2 ≤ (s.m.krn x.krn).ctrKind x.ec ∧ c = x.core ∧ e = 32 * b + x.ec then satInc (s.m.ctrVal c e) x.n
          else s.m.ctrVal c e
        | none => s.m.ctrVal c e)

/-- O12: FENCE.REL waits for earlier accesses; IRQ.RAISE sends the partition's vector (R122, R354). -/
def Obligations.FencesAndInterrupts : Prop :=
  ∀ (g : Nat) (f : FmtS) (s : State), GuardOpen g f.pi f.pn true s.m → s.m.mayAccess g = true →
    (CanIssue g (.fenceRel g f) s.m →
      Does (.fenceRel g f) s (fun t => t = { s.m with groups := t.groups, cores := t.cores } ∧ CoresBut g s.m t id ∧
        if s.m.allPerformed g s.m.nextId (f.scope == .system) then GoesOn g s.m t id
        else t.runnable g = false ∧ GoesOn g s.m t (fun x => { x with wait := .fence s.m.nextId (f.scope == .system) }))) ∧
    (CanIssue g (.irqRaise g f) s.m → s.m.storesPerformed g = true →
      let p := (s.m.krn (s.m.krnOf g)).part
      let v := s.m.uGet g f.ua.toNat
      let fn := s.m.fnSt (s.m.vfKey p)
      let e := tget (⟨0, 0, true⟩ : MsixEntry) fn.table v
      5 ≤ v → v < (s.m.part p).msix → (s.m.part p).st = .running →
      Does (.irqRaise g f) s (fun t => GoesOn g s.m t id ∧ CoresBut g s.m t id ∧
        if fn.msixEn = true ∧ fn.msixMask = false ∧ e.masked = false ∧ fn.d3hot = false ∧ fn.mse = true then
          t = { s.m with groups := t.groups, cores := t.cores, out := t.out } ∧
            t.out = if (s.m.hlink (s.m.part p).link).up then .msix (s.m.vfKey p) v e.addr e.data :: s.m.out else s.m.out
        else tget false (t.fnSt (s.m.vfKey p)).pba v = true ∧ t.out = s.m.out))

/-- O13: the RNG instructions draw once per lane; RNG.KEY seeds every lane (R129, R189 to R198). Choices and readings of the model: log
8. -/
def Obligations.RandomDraws : Prop :=
  (∀ e ∈ rngRows, ∀ (g : Nat) (f : FmtS) (s : State), GuardOpen g f.pi f.pn true s.m → s.m.mayAccess g = true →
    CanIssue g (e.1 g f) s.m → s.m.regsFree g [f.vx.toNat] = true → CanDraw g .stochastic s.m →
    Does (e.1 g f) s (fun t => RegFrame g true s.m t ∧ Advanced g s.m t ∧ (t.grp g).u = (s.m.grp g).u ∧ (t.grp g).p = (s.m.grp g).p ∧
      vWritten g f.vx.toNat false 0xFFFFFFFF (fun l => e.2 s.m g f (draw l (laneOf (streamsOf s.m g) l)).1.toNat) s.m t ∧
      (∀ l, l < 32 → laneOf (t.grp g).lanes l = (draw l (laneOf (streamsOf s.m g) l)).2) ∧
      ((s.m.grp g).seeding ≠ .seeded → (t.krn (s.m.krnOf g)).unseeded = true))) ∧
  ∀ (g : Nat) (f : FmtS) (s : State), GuardOpen g f.pi f.pn true s.m → s.m.mayAccess g = true → CanIssue g (.rngKey g f) s.m →
    (s.m.grp g).lent = false →
    Does (.rngKey g f) s (fun t => CoresBut g s.m t id ∧ t = { s.m with groups := t.groups, cores := t.cores } ∧
      ∃ ls, GoesOn g s.m t (fun x => { x with seeding := .seeded, lanes := ls }) ∧
        ∀ l, l < 32 → laneOf ls l =
          seedThread (BitVec.ofNat 128 (s.m.uPair g f.ua.toNat + 2 ^ 64 * s.m.uPair g (f.ua.toNat + 2))) (s.m.blk (s.m.grp g).block).id
            (32 * (s.m.grp g).index + l) (BitVec.ofNat 32 (s.m.uGet g f.ub.toNat)))

/-- O14: the 22 instructions of format M issue one memory operation with an access for each guarded lane (R112, R113, R120, R121,
R124). -/
def Obligations.MemoryAccessesIssue : Prop :=
  ∀ e ∈ memRows, ∀ (g : Nat) (f : FmtM) (s : State), FreshIds s.m → GuardOpen g f.pi f.pn false s.m → s.m.mayAccess g = true →
    CanIssue g (e.1 g f) s.m → s.m.regsFree g (mRegs f (if e.2 = .atomic .cas then 2 else 1)) = true →
    (∀ l, l < 32 → (s.m.guards g f.pi f.pn).getLsbD l = true → ∃ a x, s.m.placeLane g f e.2 l = .ok a x) →
    Does (e.1 g f) s (fun t => GoesOn g s.m t id ∧ CoresBut g s.m t id ∧
      t = { s.m with groups := t.groups, cores := t.cores, clusters := t.clusters, ops := t.ops, nextId := s.m.nextId + 1 } ∧
      (∀ c, t.clu c = { s.m.clu c with tlb := (t.clu c).tlb }) ∧
      ∃ o, t.ops = s.m.ops ++ [o] ∧ o.id = s.m.nextId ∧ o.gid = g ∧ o.kind = e.2 ∧ o.bytes = 2 ^ f.size.toNat ∧ o.vds = f.vds.toNat ∧
        o.ord = f.ord ∧ o.space = f.space ∧ o.eve = f.eve ∧ o.ec = f.ec.toNat ∧
        o.lanes.map (·.lane) = lanesOf (s.m.guards g f.pi f.pn) ∧
        ∀ l ∈ o.lanes, l.done = false ∧ l.noFill = false ∧ (l.sent = false ↔ ∃ w p va, l.tgt = .window w p va) ∧ s.m.placeLane g f e.2 l.lane = .ok l.addr l.tgt ∧
          l.data.toNat = s.m.runVal g f.vds.toNat f.run l.lane % 256 ^ (2 ^ f.size.toNat) ∧
          (e.2 = .atomic .cas → l.swap.toNat = s.m.runVal g (f.vds.toNat + f.run) f.run l.lane % 2 ^ 64))

/-- O15: performed local stores, atomics, reductions and loads read and write exactly the bytes they name (R113, R124, R139, R142). -/
def Obligations.LocalAccessesPerformed : Prop :=
  ∀ (s : State) (o : MemOp), s.m.ops.find? (fun x => x.id == o.id) = some o → o.isLocal = true → s.m.released o = true →
    (∀ l ∈ o.lanes, l.done = false ∧ l.sent = true ∧ s.m.inOrder o l = true ∧ ∃ off, l.tgt = .localMem off) →
    (o.lanes.map (·.lane)).Nodup → o.lanes ≠ [] →
    (o.kind = .store → ∀ line tailBad, line < hbmLines →
      Does (.accessPerformed o.id line tailBad) s (fun t => (∀ x ∈ t.ops, x.id ≠ o.id) ∧ t.mem = { s.m.mem with atsInv := t.mem.atsInv } ∧
        t.host = s.m.host ∧
        ∀ c a, tget 0 (t.core c).loc a = if c = o.core then storedByte o.lanes o.bytes a (tget 0 (s.m.core c).loc a) else tget 0 (s.m.core c).loc a)) ∧
    (∀ a l line tailBad, (o.kind = .atomic a ∨ o.kind = .red a) → o.lanes = [l] → line < hbmLines →
      Does (.accessPerformed o.id line tailBad) s (fun t => t.mem = { s.m.mem with atsInv := t.mem.atsInv } ∧
        ∀ off, l.tgt = .localMem off →
          let old := ofLe (getBytes (s.m.core o.core).loc off o.bytes)
          let new := atomNew a (8 * o.bytes) (faddN o.bytes) old (l.opnd a) (l.cmp a)
          (∀ i, i < o.bytes → tget 0 (t.core o.core).loc (off + i) = BitVec.ofNat 8 (new / 256 ^ i)) ∧
          (o.kind = .red a → ∀ x ∈ t.ops, x.id ≠ o.id) ∧
          (o.kind = .atomic a → ∃ x ∈ t.ops, x.id = o.id ∧ x.lanes = [{ l with data := BitVec.ofNat 128 old, done := true }]))) ∧
    (o.kind = .load → o.retried = false → o.bytes ∈ [4, 8, 16] → (s.m.grp o.gid).live = true → s.m.krnOf o.gid = o.krn → (∀ l ∈ o.lanes, l.lane < 32) →
      ∀ tailBad, Does (.loadDataReturn o.id tailBad) s (fun t => (∀ x ∈ t.ops, x.id ≠ o.id) ∧
        t.mem = { s.m.mem with atsInv := t.mem.atsInv } ∧ (∀ c, (t.core c).loc = (s.m.core c).loc) ∧
        ∀ l ∈ o.lanes, ∀ off i, l.tgt = .localMem off → i < o.bytes / 4 → o.vds + i < s.m.allot o.gid →
          t.vGet o.gid (o.vds + i) l.lane = ofLe (getBytes (s.m.core o.core).loc (off + 4 * i) 4)))

/-- O16: TMMA, TZERO, TLOAD and TSTORE go to the tail of the core's tensor queue (R140, R141, R158). -/
def Obligations.TensorIssue : Prop :=
  ∀ e ∈ tensorRows, ∀ (g : Nat) (f : FmtT) (s : State), GuardOpen g f.pi f.pn true s.m → s.m.mayAccess g = true →
    CanIssue g (e.1 g f) s.m → s.m.tileFault g e.2 f = none → (s.m.core (coreOf g)).tq.length < 4 →
    (e.2 = .tstore → f.opt.getLsbD 0 = true → CanDraw g .stochastic s.m) →
    Does (e.1 g f) s (fun t => Advanced g s.m t ∧ (t.grp g).v = (s.m.grp g).v ∧ (t.grp g).u = (s.m.grp g).u ∧ (t.grp g).p = (s.m.grp g).p ∧
      (∀ h, h ≠ g → t.grp h = s.m.grp h) ∧
      t = { s.m with groups := t.groups, cores := t.cores, krns := t.krns, free := t.free, nextId := s.m.nextId + 1 } ∧
      ∃ q, CoresBut g s.m t (fun c => { c with tq := c.tq ++ [q] }) ∧ q.id = s.m.nextId ∧ q.gid = g ∧ q.kind = e.2 ∧ q.f = f ∧
        q.block = (s.m.grp g).block ∧
        if e.2 = .tstore ∧ f.opt.getLsbD 0 = true then
          ∀ l, l < 32 → laneOf q.lanes l = laneOf (streamsOf s.m g) l ∧ laneOf (t.grp g).lanes l = (drawN l 256 (laneOf (streamsOf s.m g) l)).2
        else (t.grp g).lanes = (s.m.grp g).lanes ∧ (t.grp g).seeding = (s.m.grp g).seeding)

/-- O17: the tensor engine performs the word at the head of its queue on tile and local memory alone; one that reads an uncorrectable
error fences the core (R141, R142, R150, R157 to R160, R162). -/
def Obligations.TensorEngineRuns : Prop :=
  ∀ (core : Nat) (err : TileError) (s : State) (q : TOp) (rest : List TOp), core < 1024 → (s.m.core core).tq = q :: rest →
    (∀ o ∈ s.m.ops, o.gid = q.gid → o.id < q.id → o.isLocal = true → ∀ l ∈ o.lanes, l.done = true) →
    ((err = .localWord ∧ (q.kind = .tmma ∨ q.kind = .tload)) ∨
        (err = .accElem ∧ (q.kind = .tstore ∨ (q.kind = .tmma ∧ q.f.accz = false))) → s.m.coreLive core = true →
      Does (.tensorQueueStart ⟨core, err⟩) s (fun t => t.coreLive core = false ∧ (t.core core).tq = [])) ∧
    (err = .none ∨ (err = .localWord ∧ (q.kind = .tzero ∨ q.kind = .tstore)) ∨
        (err = .accElem ∧ (q.kind = .tzero ∨ q.kind = .tload ∨ (q.kind = .tmma ∧ q.f.accz = true))) →
    Does (.tensorQueueStart ⟨core, err⟩) s (fun t =>
      let a := s.m.tileBase q.block q.f.abase
      let b := s.m.tileBase q.block q.f.bbase
      let c := s.m.core core
      (t.core core).tq = rest ∧ t = { s.m with groups := t.groups, cores := t.cores } ∧ (∀ k, k ≠ core → t.core k = s.m.core k) ∧
      (∀ k i j, k < 8 → i < 128 → j < 128 → accAt (t.core core).acc k i j =
        if k ≠ q.f.acc.toNat then accAt c.acc k i j
        else match q.kind with
          | .tmma => tmmaElem c.loc a b q.f i j (accAt c.acc k i j) % 2 ^ 32
          | .tzero => 0
          | .tload => tloadElem c.loc a q.f.afmt i j % 2 ^ 32
          | .tstore => accAt c.acc k i j) ∧
      ∀ x, tget 0 (t.core core).loc x =
        if q.kind = .tstore ∧ a ≤ x ∧ x < a + (tstoreBytes c.acc q.f (tstoreDraws q.lanes)).length
        then nth 0 (tstoreBytes c.acc q.f (tstoreDraws q.lanes)) (x - a) else tget 0 c.loc x))

/-- O18: FENCE.ACQ drops cached lines, FLUSH writes lines back and counts when complete (R121 to R123, R126, R137). -/
def Obligations.FencesAndFlushes : Prop :=
  (∀ (g : Nat) (f : FmtS) (s : State), GuardOpen g f.pi f.pn true s.m → s.m.mayAccess g = true → CanIssue g (.fenceAcq g f) s.m →
    let va := s.m.uPair g f.ua.toNat
    let n := s.m.uGet g f.ub.toNat
    let part := (s.m.krn (s.m.krnOf g)).part
    (f.scope = .core → Does (.fenceAcq g f) s (fun t => t = { s.m with groups := t.groups, cores := t.cores } ∧ GoesOn g s.m t id ∧ CoresBut g s.m t id)) ∧
    (f.scope ≠ .core → s.m.loadsPerformed g = true → n = 0 →
      Does (.fenceAcq g f) s (fun t => t = { s.m with groups := t.groups, cores := t.cores, ops := t.ops } ∧ GoesOn g s.m t id ∧
        CoresBut g s.m t (fun c => { c with l1 := [], plru := [] }) ∧ onlyFills (coreOf g) (fun _ => True) s.m t)) ∧
    (f.scope ≠ .core → s.m.loadsPerformed g = true → n ≠ 0 → va + n ≤ 2 ^ 52 → s.m.codePage part va n = none →
      let rs := s.m.mappedHbm part (va / 64 * 64) ((va + n + 63) / 64 * 64 - va / 64 * 64)
      Does (.fenceAcq g f) s (fun t => t = { s.m with groups := t.groups, cores := t.cores, ops := t.ops } ∧ GoesOn g s.m t id ∧
        CoresBut g s.m t (fun c => { c with l1 := c.l1.filter (fun e =>
          !(rs.any (fun r => decide (r.1 ≤ 64 * e.2.line ∧ 64 * e.2.line < r.1 + r.2)))) }) ∧
        onlyFills (coreOf g) (fun line => ∃ r ∈ rs, r.1 ≤ 64 * line ∧ 64 * line < r.1 + r.2) s.m t))) ∧
  (∀ (g : Nat) (f : FmtS) (s : State), GuardOpen g f.pi f.pn true s.m → s.m.mayAccess g = true → CanIssue g (.flush g f) s.m →
    s.m.storesPerformed g = true →
    let va := s.m.uPair g f.ua.toNat
    let n := s.m.uGet g f.ub.toNat
    (n = 0 → Does (.flush g f) s (fun t => GoesOn g s.m t id ∧ incremented f.eve (s.m.krnOf g) (coreOf g) f.ec.toNat s.m t ∧
      t = { s.m with groups := t.groups, cores := t.cores })) ∧
    (n ≠ 0 → va + n ≤ 2 ^ 52 →
      Does (.flush g f) s (fun t => awaits g s.m.nextId f.eve s.m t ∧ CoresBut g s.m t id ∧
        t = { s.m with groups := t.groups, cores := t.cores, flushes := t.flushes, nextId := s.m.nextId + 1 } ∧
        ∃ o, t.flushes = s.m.flushes ++ [o] ∧ o.id = s.m.nextId ∧ o.gid = g ∧ o.va = va ∧ o.len = n ∧ o.krn = s.m.krnOf g ∧
          o.part = (s.m.krn (s.m.krnOf g)).part ∧ o.eve = f.eve ∧ o.ec = f.ec.toNat))) ∧
  ∀ (s : State) (o : FlushOp) (m1 : Mach), s.m.flushes.find? (fun x => x.id == o.id) = some o →
    let lo := o.va / 64 * 64
    let n := (o.va + o.len + 63) / 64 * 64 - lo
    (∀ pc ∈ pieces lo n, s.m.translate o.part .read pc.1 ≠ .fault) → s.m.vflush o.part lo n .read = .ok m1 →
    Does (.flushComplete o.id) s (fun t => (∀ x, x ∈ t.flushes ↔ x ∈ s.m.flushes ∧ x.id ≠ o.id) ∧ t.mem = m1.mem ∧
      incremented o.eve o.krn o.core o.ec s.m t ∧ released o.gid o.id s.m t)

/-- O19: CE.COPY queues its descriptor, and its completion writes the status word after the copy; a Tail mismatch that stays ends it with
POISONED, detail 1 (R126, R127, R225 to R227, R526). Choices and readings of the model: log 142. -/
def Obligations.CopyEngines : Prop :=
  (∀ (g : Nat) (f : FmtS) (s : State) (b : List Byte) (m1 : Mach), GuardOpen g f.pi f.pn true s.m → s.m.mayAccess g = true →
    CanIssue g (.ceCopy g f) s.m → s.m.storesPerformed g = true →
    let part := (s.m.krn (s.m.krnOf g)).part
    let va := s.m.uPair g f.ua.toNat
    let e := s.m.copyEngine (halfOfCore (coreOf g))
    (s.m.copyQ e).length < 8 → va % 64 = 0 → va < 2 ^ 52 → s.m.mappedFor part .write va 64 = true →
    s.m.vreadFor (some (halfOfCore (coreOf g))) (s.m.krn (s.m.krnOf g)).num part va 64 .read = .ok b m1 →
    Does (.ceCopy g f) s (fun t => awaits g s.m.nextId f.eve s.m t ∧ CoresBut g s.m t id ∧ t.mem = m1.mem ∧
      (∀ k, k ≠ e → t.copyQ k = s.m.copyQ k) ∧
      ∃ o, t.copyQ e = s.m.copyQ e ++ [o] ∧ o.id = s.m.nextId ∧ o.gid = g ∧ o.va = va ∧ o.src = fieldAt b 8 8 ∧ o.dst = fieldAt b 16 8 ∧
        o.len = fieldAt b 24 4 ∧ o.rows = fieldAt b 28 2 ∧ o.ctrl.toNat = fieldAt b 30 2 ∧ o.spitch = fieldAt b 32 8 ∧ o.dpitch = fieldAt b 40 8 ∧
        o.pos = 0 ∧ o.faultAt = none ∧ (o.status = none ∨ o.status = some (3, 0)) ∧
        ((o.len = 0 ∨ o.rows = 0 ∨ 2 ^ 31 < o.len ∨ (1 < o.rows ∧ (o.spitch < o.len ∨ o.dpitch < o.len)) ∨ (o.stream = true ∧ o.srcLocal = true)) →
          o.status = some (3, 0)))) ∧
  (∀ (half : Nat) (turn : CopyTurn) (s : State) (o : CopyOp) (rest : List CopyOp) (m1 : Mach), half < 8 → turn.engine < 4 →
    s.m.copyQ (4 * half + turn.engine) = o :: rest → (o.status ≠ none ∨ (o.len * o.rows ≤ o.pos ∧ s.m.copyAnswered o.id = true)) →
    s.m.vwriteFor o.half (s.m.krn o.krn).num o.part o.va
      (statusBytes ((o.status.getD (0, 0)).1 % 65536 + 65536 * ((o.status.getD (0, 0)).2 % 65536))) = .ok m1 →
    (o.faultAt = none →
      Does (.ceCopyComplete half turn) s (fun t => t.copyQ (4 * half + turn.engine) = rest ∧
        (∀ k, k ≠ 4 * half + turn.engine → t.copyQ k = s.m.copyQ k) ∧ t.mem = m1.mem ∧
        incremented o.eve o.krn o.core o.ec s.m t ∧ released o.gid o.id s.m t)) ∧
    (o.faultAt ≠ none → Does (.ceCopyComplete half turn) s (fun t => (t.krn o.krn).live = false))) ∧
  (∀ (half engine : Nat) (s : State) (o : CopyOp) (rest : List CopyOp) (b : List Byte) (po : Bool) (m1 m2 : Mach), half < 8 → engine < 4 →
    s.m.copyQ (4 * half + engine) = o :: rest → o.status = none → o.faultAt = none → o.pos < o.len * o.rows → o.srcLocal = false →
    s.m.copyRead o o.pos (o.piece (s.m.copyRemote o)) = .bytes b po m1 →
    (m1.modCopy o.id (fun x => { x with status := some (7, 1) })).vwriteFor o.half (m1.krn o.krn).num o.part o.va (statusBytes (7 + 65536)) = .ok m2 →
    Does (.ceCopyComplete half ⟨engine, .bad, 0⟩) s (fun t => t.copyQ (4 * half + engine) = (m2.copyQ (4 * half + engine)).drop 1 ∧
      (∀ k, k ≠ 4 * half + engine → t.copyQ k = m2.copyQ k) ∧ t.mem = m2.mem ∧
      incremented o.eve o.krn o.core o.ec m2 t ∧ released o.gid o.id m2 t)) ∧
  ∀ (half : Nat) (turn : CopyTurn) (s : State) (o : CopyOp) (rest : List CopyOp), half < 8 → turn.engine < 4 → turn.check ≠ .bad →
    s.m.copyQ (4 * half + turn.engine) = o :: rest → o.srcLocal = true → o.dstLocal = true → o.status = none → o.pos = 0 → 0 < o.len → 0 < o.rows →
    o.faultAt = none → (1 < o.rows → o.len ≤ o.dpitch) →
    (o.src + (o.rows - 1) * o.spitch + o.len ≤ o.dst ∨ o.dst + (o.rows - 1) * o.dpitch + o.len ≤ o.src) →
    (∀ c q x, ({ s.m with cores := c, copies := q } : Mach).vwriteFor o.half (s.m.krn o.krn).num o.part o.va (statusBytes x) ≠ .fault) →
    Does (.ceCopyComplete half turn) s (fun t => (∀ c, c ≠ o.core → (t.core c).loc = (s.m.core c).loc) ∧
      ∀ k j, k < o.rows → j < o.len →
        tget 0 (t.core o.core).loc (o.base + o.dst + k * o.dpitch + j) = tget 0 (s.m.core o.core).loc (o.base + o.src + k * o.spitch + j))

/-- O20: MCAST sends its payload to the cores of both masks, and reports the targets it did not reach (R62, R63, R65, R130, R550). -/
def Obligations.Multicasts : Prop :=
  (∀ (g : Nat) (f : FmtS) (s : State) (b : List Byte) (m1 : Mach), GuardOpen g f.pi f.pn true s.m → s.m.mayAccess g = true →
    CanIssue g (.mcast g f) s.m → (∀ o ∈ s.m.ops, o.gid = g → o.isLocal = true → o.isLoad = true ∨ ∀ l ∈ o.lanes, l.done = true) →
    (∀ q ∈ (s.m.core (coreOf g)).tq, q.gid = g → q.stores = false) →
    let x := s.m.krn (s.m.krnOf g)
    let va := s.m.uPair g f.ua.toNat
    let blk := s.m.blk (s.m.grp g).block
    let len := fieldAt b 12 4
    va % 64 = 0 → va < 2 ^ 52 → s.m.vread x.part va 64 .read = .ok b m1 →
    len % 256 = 0 → 256 ≤ len → len ≤ 524288 → fieldAt b 16 4 % 256 = 0 → fieldAt b 20 4 % 256 = 0 →
    fieldAt b 16 4 + len ≤ 1024 * blk.granules → fieldAt b 20 4 + len ≤ x.desc.recvBytes →
    (∀ c, c < 64 → (fieldAt b 0 8).testBit c = true → (s.m.part x.part).clusters.getLsbD c = true) →
    (∃ c l, c < 64 ∧ l < 16 ∧ (fieldAt b 0 8).testBit c = true ∧ (fieldAt b 8 2).testBit l = true) →
    Does (.mcast g f) s (fun t => awaits g s.m.nextId f.eve s.m t ∧ CoresBut g s.m t id ∧ t.mem = m1.mem ∧ t.nextId = s.m.nextId + 1 ∧
      ∃ o, t.mcasts = s.m.mcasts ++ [o] ∧ o.id = s.m.nextId ∧ o.packets = len / 256 ∧ o.dst = fieldAt b 20 4 ∧ o.invalid = false ∧
        o.payload = getBytes (s.m.core (coreOf g)).loc (1024 * blk.base + fieldAt b 16 4) len ∧
        ∀ k, k ∈ o.targets ↔ k < 1024 ∧ (fieldAt b 0 8).testBit (k / 16) = true ∧ (fieldAt b 8 2).testBit (k % 16) = true)) ∧
  (∀ (s : State) (o : McastOp) (target packet : Nat) (bad : Bool), target < 1024 → s.m.mcasts.find? (fun x => x.id == o.id) = some o →
    let x := tget mcTarget0 o.state target
    let recv := tget 0 (s.m.krn o.krn).recv target
    target ∈ o.targets → x.undelivered = false → o.invalid = false → packet < o.packets → packet ∉ x.got → o.passes target packet = true →
    o.payload.length = 256 * o.packets →
    ((s.m.core target).halted = true → Config.ejectBuffer ≤ (s.m.core target).ejected → recv ≠ 0 → s.m.coreLive target = true → bad = false →
      Does (.mcastPacketArrival o.id target packet bad) s (fun t => (∀ c, t.core c = s.m.core c) ∧
        ∃ o', t.mcasts.find? (fun x => x.id == o.id) = some o' ∧ (tget mcTarget0 o'.state target).got = x.got ∧
          (tget mcTarget0 o'.state target).blocked = if x.blocked = 0 then s.m.now + 1 else x.blocked)) ∧
    (recv = 0 ∨ s.m.coreLive target = false ∨ bad = true ∨ (s.m.core target).halted = false ∨ (s.m.core target).ejected < Config.ejectBuffer →
    Does (.mcastPacketArrival o.id target packet bad) s (fun t => ∃ o', t.mcasts.find? (fun x => x.id == o.id) = some o' ∧
      (∀ k, k ≠ target → tget mcTarget0 o'.state k = tget mcTarget0 o.state k) ∧
      if recv = 0 ∨ s.m.coreLive target = false ∨ bad = true then
        (tget mcTarget0 o'.state target).undelivered = true ∧ ∀ c, (t.core c).loc = (s.m.core c).loc
      else (tget mcTarget0 o'.state target).got = packet :: x.got ∧ (∀ c, c ≠ target → (t.core c).loc = (s.m.core c).loc) ∧
        ∀ i, tget 0 (t.core target).loc i =
          let a := 1024 * (recv - 1) + o.dst + 256 * packet
          if a ≤ i ∧ i < a + 256 then nth 0 o.payload (256 * packet + (i - a)) else tget 0 (s.m.core target).loc i))) ∧
  (∀ (s : State) (o : McastOp) (target : Nat), s.m.mcasts.find? (fun x => x.id == o.id) = some o →
    let x := tget mcTarget0 o.state target
    x.blocked ≠ 0 → x.undelivered = false → x.blocked - 1 + 16000 ≤ s.m.now →
    Does (.mcastTimerExpiry o.id target) s (fun t => t = { s.m with mcasts := t.mcasts, cores := t.cores } ∧
      (∀ c, t.core c = { s.m.core c with ejected := (t.core c).ejected }) ∧
      ∃ o', t.mcasts.find? (fun x => x.id == o.id) = some o' ∧ (tget mcTarget0 o'.state target).undelivered = true ∧
        ∀ k, k ≠ target → tget mcTarget0 o'.state k = tget mcTarget0 o.state k)) ∧
  ∀ (s : State) (o : McastOp) (m1 : Mach), s.m.mcasts.find? (fun x => x.id == o.id) = some o →
    (o.invalid = false → ∀ k ∈ o.targets, (tget mcTarget0 o.state k).undelivered = true ∨ o.packets ≤ (tget mcTarget0 o.state k).got.length) →
    s.m.vwrite o.part o.record
      (statusBytes (if o.invalid then 3 else if ∀ k ∈ o.targets, (tget mcTarget0 o.state k).undelivered = false then 0 else 11) ++
        leBytes 8 (s.m.coreTide o.core) ++ List.replicate 112 0 ++
        leBytes 128 (((o.targets.filter (fun k => o.invalid || (tget mcTarget0 o.state k).undelivered)).map (2 ^ ·)).sum)) = .ok m1 →
    Does (.mcastComplete o.id) s (fun t => (∀ x, x ∈ t.mcasts ↔ x ∈ s.m.mcasts ∧ x.id ≠ o.id) ∧ t.mem = m1.mem ∧
      incremented o.eve o.krn o.core o.ec s.m t ∧ released o.gid o.id s.m t)

namespace Sys2Proof.Claims

/-- The instructions of the Ordering Unit. -/
def ordRows : List ((Nat → FmtS → Instr) × OrdOp) :=
  [(.ordSort, .sort), (.ordTopk, .topk), (.ordArgmax, .argmax), (.ordNearest, .nearest), (.ordSearch, .search), (.ordSample, .sample)]

/-- Index `i` comes before index `j` in a row with these keys (R171). -/
def before (keys : List Nat) (i j : Nat) : Prop := nth 0 keys i < nth 0 keys j ∨ (nth 0 keys i = nth 0 keys j ∧ i < j)

/-- `idx` lists the first `n` indices of a row in order. -/
def firstInOrder (keys idx : List Nat) (n : Nat) : Prop :=
  idx.length = min n keys.length ∧ (∀ i ∈ idx, i < keys.length) ∧ idx.Pairwise (before keys) ∧
    ∀ i, i < keys.length → i ∉ idx → ∀ j ∈ idx, before keys j i

/-- Descriptor `d` has the next row of a unit's queue (R165): unfinished, none of a higher class unfinished, and the earliest accepted of
its own class. -/
def comesNext (m : Mach) (q : List OrdDesc) (d : OrdDesc) : Prop :=
  ∃ a b, q = a ++ d :: b ∧ d.finished = false ∧
    (∀ x ∈ a, x.finished = true ∨ ((m.krn d.krn).lc = true ∧ (m.krn x.krn).lc = false)) ∧
    ∀ x ∈ b, x.finished = true ∨ (m.krn d.krn).lc = true ∨ (m.krn x.krn).lc = false

/-- Only cluster `c`'s Ordering Unit changes, its queue by `f`. -/
def OnlyUnit (c : Nat) (f : List OrdDesc → List OrdDesc) (m t : Mach) : Prop :=
  ∀ k, t.clu k = if k = c then { m.clu k with ordq := f (m.clu k).ordq } else m.clu k

end Sys2Proof.Claims

open Sys2Proof.Claims

/-- O21: the six instructions of the Ordering Unit append a descriptor to the unit's queue (R163, R164, R176, R177). -/
def Obligations.OrderingIssue : Prop :=
  ∀ e ∈ ordRows, ∀ (g : Nat) (f : FmtS) (s : State) (b : List Byte) (m1 : Mach), GuardOpen g f.pi f.pn true s.m → s.m.mayAccess g = true →
    CanIssue g (e.1 g f) s.m → s.m.storesPerformed g = true → (s.m.clu (clusterOf (coreOf g))).ordq.length < 32 →
    let part := (s.m.krn (s.m.krnOf g)).part
    let va := s.m.uPair g f.ua.toNat
    let fs := ordFields b
    let draws := ordBad e.2 fs = none ∧ ordDraws e.2 fs = true
    va % 64 = 0 → va < 2 ^ 52 → s.m.mappedFor part .write va 64 = true →
    s.m.vreadFor (some (halfOfCore (coreOf g))) (s.m.krn (s.m.krnOf g)).num part va 64 .read = .ok b m1 →
    (draws → CanDraw g .stochastic s.m) →
    Does (e.1 g f) s (fun t => t.mem = m1.mem ∧ t.nextId = s.m.nextId + 1 ∧
      ∃ d, OnlyUnit (clusterOf (coreOf g)) (fun q => q ++ [d]) s.m t ∧ d.id = s.m.nextId ∧ d.op = e.2 ∧ d.gid = g ∧ d.va = va ∧ d.f = fs ∧
        d.row = 0 ∧ d.status = (ordBad e.2 fs).map (fun off => (3, off)) ∧ CoresBut g s.m t id ∧
        d.unseeded = decide (ordBad e.2 fs = none ∧ e.2 = .sample ∧ (s.m.grp g).seeding ≠ .seeded) ∧
        (¬ draws → awaits g s.m.nextId f.eve s.m t ∧ d.lanes = []) ∧
        (draws → d.lanes = streamsOf m1 g ∧
          GoesOn g s.m t (fun x => { x with wait := if f.eve then x.wait else .op s.m.nextId, lent := true, lanes := d.lanes,
                                            seeding := (t.grp g).seeding })))

/-- O22: the order keys of the Ordering Unit order the elements, with every NaN after them (R170). -/
def Obligations.OrderKeys : Prop :=
  ∀ (ty : OrdTy) (largest : Bool) (x y : Nat), x < 2 ^ (8 * ty.bytes) → y < 2 ^ (8 * ty.bytes) →
    orderKey ty largest x < 2 ^ 32 ∧
    (ordVal ty x = .nan → orderKey ty largest x = 0xFFFFFFFF ∧ (ordVal ty y ≠ .nan → orderKey ty largest y < orderKey ty largest x)) ∧
    (ordVal ty x ≠ .nan → ordVal ty y ≠ .nan →
      (orderKey ty largest x < orderKey ty largest y ↔
        if largest then (ordVal ty y).lt (ordVal ty x) = true else (ordVal ty x).lt (ordVal ty y) = true) ∧
      (orderKey ty largest x = orderKey ty largest y ↔ (ordVal ty x).eqv (ordVal ty y) = true) ∧
      orderKey ty largest x % 2 ^ (32 - 8 * ty.bytes) = 0)

/-- O23: SORT, TOPK, ARGMAX, greedy SAMPLE and SEARCH write the stable order of their row, unless its areas overlap, and poison or a Tail
mismatch ends the descriptor (R165, R166, R171 to R175, R180, R183, R526). Choices and readings of the model: logs 36, 142, 62. -/
def Obligations.OrderingRows : Prop :=
  (∀ (m : Mach) (part : Nat) (d : OrdDesc) (idx : List Nat), m.ordOverlaps part d = false → m.rowOut part d idx = (idx, m)) ∧
  ∀ (cluster : Nat) (check : ReadCheck) (s : State) (d : OrdDesc) (ty : OrdTy) (b : List Byte) (m1 m2 : Mach), cluster < 64 →
    comesNext s.m (s.m.clu cluster).ordq d → d.f.ty = some ty → 1 ≤ d.f.n → d.f.n ≤ 2 ^ 31 →
    let reread := fun (m : Mach) => m.reread check (dieOfCluster cluster) cluster
    let part := (s.m.krn d.krn).part
    let xs := elemsOf ty.bytes d.f.n b
    let done := fun (t : Mach) => t.mem = m2.mem ∧ MemFrame s.m { t with clusters := s.m.clusters } ∧
      OnlyUnit cluster (fun q => q.map (fun x => if x.id = d.id then { x with row := d.row + 1, lanes := d.lanes } else x)) s.m t
    let num := (s.m.krn d.krn).num
    (d.op ≠ .nearest → s.m.vreadFor d.half num part (d.f.inp.toNat + d.row * d.f.stride) (ty.bytes * d.f.n) .read = .poisoned m1 →
      Does (.ordRowBoundary ⟨cluster, check⟩) s (fun t => t.mem = m1.mem ∧
        OnlyUnit cluster (fun q => q.map (fun x => if x.id = d.id then { x with status := some (7, d.row % 65536) } else x)) s.m t)) ∧
    (s.m.vreadFor d.half num part (d.f.inp.toNat + d.row * d.f.stride) (ty.bytes * d.f.n) .read = .ok b m1 →
    (check = .bad → d.op ≠ .nearest → d.op ≠ .search → Does (.ordRowBoundary ⟨cluster, check⟩) s (fun t => t.mem = m1.mem ∧
        OnlyUnit cluster (fun q => q.map (fun x => if x.id = d.id then { x with status := some (7, 1) } else x)) s.m t)) ∧
    (check ≠ .bad → d.op = .sort ∨ d.op = .topk ∨ d.op = .argmax ∨ (d.op = .sample ∧ d.f.temp.toNat % 2 ^ 31 = 0) →
      ∀ idx out m3 m4, firstInOrder (xs.map (orderKey ty (d.op == .sample || d.f.largest))) idx (ordJ d.op d.f) →
      (reread m1).rowOut part d (idx ++ List.replicate (ordJ d.op d.f - d.f.n) 0xFFFFFFFF) = (out, m3) → m3.useScratch part d = .ok m4 →
      m4.vwriteFor d.half num part (d.f.out.toNat + 4 * ordJ d.op d.f * d.row) (out.flatMap (leBytes 4)) = .ok m2 →
      Does (.ordRowBoundary ⟨cluster, check⟩) s done) ∧
    (check ≠ .bad → d.op = .search → (xs.map (orderKey ty d.f.largest)).Pairwise (· ≤ ·) →
      ∀ q out m3 m4, m1.vreadFor d.half num part d.f.aux.toNat (ty.bytes * d.f.k) .read = .ok q m3 →
      (reread m3).rowOut part d ((elemsOf ty.bytes d.f.k q).map (fun y =>
        xs.countP (fun x => decide (orderKey ty d.f.largest x < orderKey ty d.f.largest y)))) = (out, m4) →
      m4.vwriteFor d.half num part (d.f.out.toNat + 4 * d.f.k * d.row) (out.flatMap (leBytes 4)) = .ok m2 →
      Does (.ordRowBoundary ⟨cluster, check⟩) s done))

/-- O24: the end of a descriptor: status word, increment, streams returned, and the unit's own error (R126, R127, R166, R176, R192). -/
def Obligations.OrderingEnds : Prop :=
  (∀ (cluster : Nat) (s : State) (d : OrdDesc) (a b : List OrdDesc) (m1 : Mach), cluster < 64 → (s.m.clu cluster).ordq = a ++ d :: b →
    d.finished = true → d.lanes = [] → (∀ x ∈ a, x.finished = false) →
    s.m.vwriteFor d.half (s.m.krn d.krn).num (s.m.krn d.krn).part d.va
      (statusBytes (match d.status with | some (code, detail) => code % 65536 + 65536 * (detail % 65536) | none => if d.unseeded then 12 else 0)) = .ok m1 →
    Does (.ordDescriptorComplete cluster) s (fun t => OnlyUnit cluster (fun q => q.filter (fun x => x.id != d.id)) s.m t ∧ t.mem = m1.mem ∧
      incremented d.eve d.krn d.core d.ec s.m t ∧ released d.gid d.id s.m t)) ∧
  (∀ (cluster : Nat) (s : State) (d : OrdDesc) (a b : List OrdDesc), cluster < 64 → (s.m.clu cluster).ordq = a ++ d :: b →
    d.finished = true → d.op = .sample → d.f.temp.toNat % 2 ^ 31 ≠ 0 → d.lanes ≠ [] → (∀ x ∈ a, x.lanes = []) →
    (s.m.grp d.gid).live = true → s.m.krnOf d.gid = d.krn →
    Does (.sampleStateReturn cluster) s (fun t => t = { s.m with groups := t.groups, clusters := t.clusters } ∧
      OnlyUnit cluster (fun q => q.map (fun x => if x.id = d.id then { x with lanes := [] } else x)) s.m t ∧
      (∀ h, h ≠ d.gid → t.grp h = s.m.grp h) ∧
      t.grp d.gid = { s.m.grp d.gid with lent := false, lanes := (t.grp d.gid).lanes } ∧
      ∀ l, l < 32 → laneOf (t.grp d.gid).lanes l = (drawN l ((d.f.rows - d.row) * ((d.f.n + 31) / 32)) (laneOf d.lanes l)).2)) ∧
  (∀ (cluster : Nat) (s : State), cluster < 64 → (∀ d ∈ (s.m.clu cluster).ordq, d.finished = true) → s.m.moon.restart = 0 →
    Does (.ordUnitReset cluster) s (fun t => t.clusters = s.m.clusters ∧
      t = { s.m with ras := t.ras, parts := t.parts, host := t.host, out := t.out } ∧
      ∃ r, t.ras.ring.head? = some r ∧ r.code = 0x28 ∧ r.sev = 2 ∧ r.place = cluster ∧ r.part = (s.m.clu cluster).owner)) ∧
  ∀ (cluster : Nat) (s : State) (d : OrdDesc), cluster < 64 → comesNext s.m (s.m.clu cluster).ordq d → s.m.moon.restart = 0 →
    Does (.ordUnitReset cluster) s (fun t =>
      OnlyUnit cluster (fun q => q.map (fun x => if x.id = d.id then { x with status := some (9, 0) } else x)) s.m t ∧
      t = { s.m with clusters := t.clusters, ras := t.ras, parts := t.parts, host := t.host, out := t.out } ∧
      ∃ r, t.ras.ring.head? = some r ∧ r.code = 0x28 ∧ r.sev = 2 ∧ r.place = cluster ∧ r.part = (s.m.krn d.krn).part)

namespace Sys2Proof.Claims

/-- Of the device only channel `key`, by `f`, and what is sent out change. -/
def OnlyChan (key : Nat) (f : Chan → Chan) (sent : List Output) (m t : Mach) : Prop :=
  t = { m with host := { m.host with chans := t.host.chans }, out := sent ++ m.out } ∧ ∀ k, t.chan k = if k = key then f (m.chan k) else m.chan k

/-- The same, but that function `fn` also logs an error in its AER (R308). -/
def OnlyLogged (fn key code : Nat) (f : Chan → Chan) (m t : Mach) : Prop :=
  OnlyChan key f [.aer fn code (code != 1 && (m.fnSt fn).aerSev.getLsbD (code - 1))] m { t with host := { t.host with fns := m.host.fns } } ∧
    ∀ k, t.fnSt k = { m.fnSt k with aer := if k = fn then (m.fnSt k).aer ||| (1#4 <<< (code - 1)) else (m.fnSt k).aer,
                                    aerAdvisory := (m.fnSt k).aerAdvisory || (k == fn && code == 1) }

/-- The same, when Moon posts a response: it services its watchdog, and an end status that the response returned is kept no longer (R337,
R343). -/
def OnlyPosted (key : Nat) (r : Reply) (f : Chan → Chan) (sent : List Output) (m t : Mach) : Prop :=
  OnlyChan key f sent m { t with moon := m.moon, parts := m.parts } ∧ t.moon = { m.moon with wdog := m.now } ∧
    ∀ p, t.part p = if p = keySpace key ∧ r.opcode = 0x0502 ∧ r.result ≠ [] then
        { m.part p with ends := match (m.part p).ends.find? (fun e => e.num == r.num) with
                                | some e => (m.part p).ends.erase e | none => (m.part p).ends }
      else m.part p

/-- A posted write waits behind those of its port that have not been performed (R282). -/
def Queued (fn : Fn) (off size : Nat) (v : DWord) (m t : Mach) : Prop :=
  t = { m with host := { m.host with posted := m.host.posted ++ [⟨fn, .reg off size v⟩] } }

/-- A channel has nothing in its queues and no command outstanding. -/
def Chan.quiet (c : Chan) : Prop := c.inq = [] ∧ c.outq = [] ∧ c.dbq = [] ∧ c.notices = [] ∧ c.cur = none ∧ c.held = []

/-- The inbound words of a channel are the whole commands `ws` and then the words `part` of one that is not complete (R328). -/
def framed (c : Chan) (ws : List (List Word)) (part : List Word) : Prop :=
  c.inq = ws.flatten ++ part ∧ c.inq.length ≤ 16 ∧ (∀ w ∈ ws, w.length = hdrLen (w.headD 0) + 1) ∧ part ≠ [] ∧
    part.length + c.need = hdrLen (part.headD 0) + 1 ∧ c.need ≠ 0

/-- An answer that Moon holds for posting. -/
def reply (c : Cmd) (status detail : Nat) (result : List Byte) : Reply :=
  { opcode := c.opcode, tag := c.tag, status := status, detail := detail, result := result, seq := c.seq, ptr := c.ptr, pmode := c.pmode,
    written := false, num := if c.opcode = 0x0502 then fieldAt c.params 0 4 else 0 }

/-- The MCI commands, each with its row of Table 13.4; LINK.CONFIG and the token commands have statements of their own. -/
def mciRow (e : (Fn → Nat → Instr) × Nat × Who) : Prop :=
  e ∈ ([ (.devInfo, 0x0101, .f), (.devWarmReset, 0x0102, .m), (.partCreate, 0x0201, .m), (.partDestroy, 0x0202, .m), (.partQuery, 0x0203, .f),
    (.partFreeze, 0x0204, .m), (.partSave, 0x0205, .m), (.partRestore, 0x0206, .m), (.partThaw, 0x0207, .m), (.partLogStart, 0x0208, .m),
    (.partLogRead, 0x0209, .m), (.partLogStop, 0x020A, .m), (.memMap, 0x0301, .f), (.memUnmap, 0x0302, .f), (.memProtect, 0x0303, .f),
    (.memFlush, 0x0304, .f), (.memHostpool, 0x0305, .m), (.kgiLoad, 0x0401, .f), (.kgiUnload, 0x0402, .f), (.krnLaunch, 0x0501, .f),
    (.krnWait, 0x0502, .f), (.krnAbort, 0x0503, .f), (.krnClass, 0x0504, .f), (.seqConfig, 0x0601, .f), (.seqAdmit, 0x0602, .f),
    (.seqToken, 0x0603, .f), (.seqPause, 0x0604, .f), (.seqResume, 0x0605, .f), (.seqCancel, 0x0606, .f), (.seqStep, 0x0607, .f),
    (.pwrCap, 0x0701, .m), (.pwrMode, 0x0702, .m), (.pwrShare, 0x0703, .m), (.pwrQuery, 0x0704, .p), (.meterRead, 0x0801, .f),
    (.meterAudit, 0x0802, .m), (.meterIdent, 0x0803, .p), (.rasLogRead, 0x0901, .f), (.rasLogClear, 0x0902, .m), (.rasCrashRead, 0x0903, .m),
    (.secKeyUpdate, 0x0A01, .m), (.secDbgLock, 0x0A03, .m), (.fwStage, 0x0B01, .m), (.fwActivate, 0x0B02, .m), (.fwInfo, 0x0B03, .p),
    (.linkRouteSet, 0x0C02, .m), (.linkStatus, 0x0C03, .p) ] : List ((Fn → Nat → Instr) × Nat × Who))

/-- Command `c` with opcode `op` is the oldest complete command of a channel, and Moon takes it; reading it leaves the device as `m1`. -/
def Sent (op : Nat) (fn : Fn) (ch : Nat) (c : Cmd) (m m1 : Mach) : Prop :=
  chanOk fn ch = true ∧ m.mayTake fn ch = true ∧ m.peek (chanKey fn ch) = .cmd c m1 ∧ c.opcode = op ∧ m.stateDenies op = false ∧
    m.aborted fn (chanKey fn ch) c = false

/-- The command has the length, in whole words, and the padding of its layout (R329): `plen` bytes of which the fields cover those of
`fields`. -/
def Framed (plen rlen : Nat) (fields : List (Nat × Nat)) (c : Cmd) : Prop :=
  (c.pmode = false → plen ≤ 60 ∧ rlen ≤ 56) ∧ c.params.length = (plen + 3) / 4 * 4 ∧
    ∀ i, i < c.params.length → (∀ f ∈ fields, i < f.1 ∨ f.1 + f.2 ≤ i) → nth 0 c.params i = 0

/-- Moon has answered the command: its reply is held for posting, and the channel performs none. -/
def Answered (fn : Fn) (ch : Nat) (c : Cmd) (status detail : Nat) (result : List Byte) (m t : Mach) : Prop :=
  (t.chan (chanKey fn ch)).held = (m.chan (chanKey fn ch)).held ++ [reply c status detail result] ∧ (t.chan (chanKey fn ch)).cur = none

/-- Of the device only the channels change, with Moon's watchdog service and the partitions' lists of captured commands (R337, R373). -/
def OnlyChans (m t : Mach) : Prop :=
  t = { m with host := { m.host with chans := t.host.chans }, moon := { m.moon with wdog := t.moon.wdog }, parts := t.parts } ∧
    ∀ p, t.part p = { m.part p with captured := (t.part p).captured }

end Sys2Proof.Claims

/-- O25: reads of the mailbox registers and what they remove; tickets, overrun and abandoned commands (R320, R325 to R328, R582). -/
def Obligations.MailboxReadsAndTurns : Prop :=
  (∀ (fn : Fn) (ch : Nat) (s : State), chanOk fn ch = true → s.m.barGate fn = .open_ →
     let key := chanKey fn ch
     let c := s.m.chan key
     let data := fun (n x : Nat) => [Output.readData (fnKey fn) (leBytes n x)]
     Does (.mbxRxqRead fn ch) s (fun t => OnlyChan key (fun c => { c with outq := c.outq.tail }) (data 4 (c.outq.headD 0).toNat) s.m t) ∧
     Does (.mbxNoticeOutRead fn ch .whole) s (fun t =>
       OnlyChan key (fun c => { c with notices := c.notices.tail }) (data 8 (c.notices.headD 0).toNat) s.m t) ∧
     Does (.mbxNoticeOutRead fn ch .high) s (fun t =>
       OnlyChan key (fun c => { c with notices := c.notices.tail }) (data 4 ((c.notices.headD 0).toNat / 2 ^ 32)) s.m t) ∧
     Does (.mbxNoticeOutRead fn ch .low) s (fun t => OnlyChan key id (data 4 ((c.notices.headD 0).toNat % 2 ^ 32)) s.m t) ∧
     (∀ half, half ≠ .high → Does (.mbxTicketRead fn ch half) s (fun t =>
       OnlyChan key (fun c => { c with next := c.next + 1, servingTide := (t.chan key).servingTide })
         (data (if half = .whole then 8 else 4) (c.next.toNat + 65536 * c.serving.toNat)) s.m t)) ∧
     Does (.mbxTicketRead fn ch .high) s (fun t => OnlyChan key id (data 4 0) s.m t)) ∧
  ∀ (fn : Fn) (ch : Nat) (s : State), chanOk fn ch = true →
    let key := chanKey fn ch
    let c := s.m.chan key
    (s.m.barGate fn = .open_ → s.m.behind fn = false → ∀ ticket : BitVec 16,
      Does (.mbxTicketRelease fn ch ticket) s (fun t => OnlyChan key (fun c =>
        if c.serving = ticket then { c with serving := c.serving + 1, servingTide := s.m.now } else c) [] s.m t)) ∧
    (c.next ≠ c.serving → c.servingTide + 100000000 ≤ s.m.now →
      Does (.ticketSkip fn ch) s (fun t => OnlyChan key (fun c =>
        { c with serving := c.serving + 1, servingTide := s.m.now, ticketSkip := true }) [] s.m t)) ∧
    (s.m.barGate fn = .open_ → s.m.behind fn = false → c.overrun = true → c.need = 0 →
      Does (.overrunClear fn ch) s (fun t => OnlyChan key (fun c => { c with overrun := false }) [] s.m t)) ∧
    ∀ ws part, framed c ws part →
      (s.m.barGate fn = .open_ → s.m.behind fn = false → c.overrun = true →
        Does (.overrunClear fn ch) s (fun t => OnlyChan key (fun c => { c with overrun := false, inq := ws.flatten, need := 0 }) [] s.m t)) ∧
      (c.headerTide + 10000000 ≤ s.m.now →
        Does (.abandoned fn ch) s (fun t => OnlyChan key (fun c =>
          { c with abandoned := true, inq := ws.flatten, need := 0,
                   held := c.held ++ [reply ⟨(part.headD 0).toNat / 65536, (part.headD 0).toNat / 256 % 256, [], 0, 0, false⟩ 3 0xFFFF []] }) [] s.m t))

/-- O26: writes to MBX_TXQ, MBX_DOORBELL and MBX_CTL, in the order of the port's posted writes (R282, R321, R322, R324, R340). Choices and
readings of the model: logs 134, 67. -/
def Obligations.MailboxWrites : Prop :=
  (∀ (fn : Fn) (ch : Nat) (s : State), chanOk fn ch = true → s.m.barGate fn = .open_ → s.m.behind fn = true →
    let page := 0x10000 + 0x1000 * ch
    (∀ w : Word, Does (.mbxTxqWrite fn ch w) s (Queued fn (page + 0x100) 4 (w.zeroExtend 64) s.m)) ∧
    (∀ p : DWord, Does (.mbxDoorbellWrite fn ch p) s (Queued fn (page + 0x10) 8 p s.m)) ∧
    (∀ v : DWord, Does (.mbxCtlWrite fn ch v) s (Queued fn page 8 v s.m)) ∧
    (∀ t : BitVec 16, Does (.mbxTicketRelease fn ch t) s (Queued fn (page + 0x24) 4 (t.zeroExtend 64) s.m)) ∧
    Does (.overrunClear fn ch) s (Queued fn (page + 8) 8 (BitVec.ofNat 64 (2 ^ 32)) s.m)) ∧
  ∀ (fn : Fn) (ch : Nat) (s : State), chanOk fn ch = true → s.m.barGate fn = .open_ → s.m.behind fn = false →
    let key := chanKey fn ch
    let c := s.m.chan key
    (∀ w : Word,
      let n := if c.need = 0 then hdrLen w else c.need - 1
      (c.mode = true ∨ c.enable = false →
        Does (.mbxTxqWrite fn ch w) s (OnlyLogged (fnKey fn) key 0 id s.m)) ∧
      (c.mode = false → c.enable = true → (c.overrun = true ∨ 16 ≤ c.inq.length) →
        Does (.mbxTxqWrite fn ch w) s (OnlyLogged (fnKey fn) key 1 (fun c => { c with overrun := true }) s.m)) ∧
      (c.mode = false → c.enable = true → c.overrun = false → c.inq = [] → c.need = 0 → n = 0 → s.m.moon.restart ≠ 0 →
        Does (.mbxTxqWrite fn ch w) s (fun t => OnlyChan key (fun c =>
          { c with headerTide := s.m.now, serving := c.serving + 1, servingTide := s.m.now,
                   held := c.held ++ [{ reply ⟨w.toNat / 65536, w.toNat / 256 % 256, [], 0, 0, false⟩ 1 0 [] with hw := true }] }) [] s.m t)) ∧
      (c.mode = false → c.enable = true → c.overrun = false → c.inq.length < 16 → s.m.moon.restart = 0 ∨ n ≠ 0 →
        Does (.mbxTxqWrite fn ch w) s (fun t => OnlyChan key (fun c =>
          { c with inq := c.inq ++ [w], need := n, headerTide := if c.need = 0 then s.m.now else c.headerTide,
                   serving := if n = 0 then c.serving + 1 else c.serving, servingTide := if n = 0 then s.m.now else c.servingTide }) [] s.m t))) ∧
    (∀ p : DWord,
      (c.mode = false ∨ c.enable = false →
        Does (.mbxDoorbellWrite fn ch p) s (OnlyLogged (fnKey fn) key 0 id s.m)) ∧
      (c.mode = true → c.enable = true → (c.overrun = true ∨ 8 ≤ c.dbq.length) →
        Does (.mbxDoorbellWrite fn ch p) s (OnlyLogged (fnKey fn) key 1 (fun c => { c with overrun := true }) s.m)) ∧
      (c.mode = true → c.enable = true → c.overrun = false → c.dbq.length < 8 →
        Does (.mbxDoorbellWrite fn ch p) s (fun t => OnlyChan key (fun c =>
          { c with dbq := if s.m.moon.restart = 0 then c.dbq ++ [(64 * (p.toNat / 64), c.seqNo.toNat)] else c.dbq, seqNo := c.seqNo + 1,
                   serving := c.serving + 1, servingTide := s.m.now, held := (t.chan key).held }) [] s.m t ∧
          (t.chan key).held = if s.m.moon.restart = 0 then c.held
            else c.held ++ [{ reply ⟨0, 0, [], c.seqNo.toNat, 64 * (p.toNat / 64), true⟩ 1 0 [] with hw := true, unread := true }]))) ∧
    ∀ v : DWord, Does (.mbxCtlWrite fn ch v) s (fun t => OnlyChan key (fun c =>
      { c with mode := (t.chan key).mode, irqEn := v.getLsbD 1, enable := v.getLsbD 2 }) [] s.m t ∧
      ((t.chan key).mode = v.getLsbD 0 ∨ (t.chan key).mode = c.mode) ∧ (key ≠ 0 → Chan.quiet c → (t.chan key).mode = v.getLsbD 0) ∧
      (key = 0 ∨ ¬ Chan.quiet c → (t.chan key).mode = c.mode))

/-- O27: errors in a mailbox queue, and how Moon posts or holds a response (R331, R323, R347). -/
def Obligations.MailboxErrorsAndPosting : Prop :=
  ∀ (fn : Fn) (ch : Nat) (s : State), chanOk fn ch = true → s.m.moon.restart = 0 →
    let key := chanKey fn ch
    let c := s.m.chan key
    let lost := fun (f : Chan → Chan) (t : Mach) => OnlyChan key (fun c => { f c with abandoned := true }) [] s.m { t with ras := s.m.ras } ∧
      ∃ r, t.ras.ring.head? = some r ∧ (r.code, r.sev) = Config.rasCode 0
    (∀ w rest, c.mode = false → c.inq = w ++ rest → w.length = hdrLen (w.headD 0) + 1 → (rest = [] → c.need = 0) →
      Does (.mailboxQueueError fn ch .header) s (lost (fun c => { c with inq := rest })) ∧
      (1 < w.length → Does (.mailboxQueueError fn ch .params) s (lost (fun c =>
        { c with inq := rest, held := c.held ++ [reply ⟨(w.headD 0).toNat / 65536, (w.headD 0).toNat / 256 % 256, [], 0, 0, false⟩ 3 0xFFFF []] })))) ∧
    (c.dbq ≠ [] → Does (.mailboxQueueError fn ch .doorbell) s (lost (fun c => { c with dbq := c.dbq.tail }))) ∧
    (c.outq ≠ [] ∨ c.notices ≠ [] → Does (.mailboxQueueError fn ch .outbound) s (lost (fun c => { c with outq := [], notices := [] }))) ∧
    ∀ r rest, s.m.served = true → c.inq = [] → c.dbq = [] → c.held = r :: rest → r.activates = false →
      let m0 := s.m.serviceWdog
      (r.pmode = false → 16 < c.outq.length + (qWords r).length →
        Does (.moonResponsePosted fn ch) s (fun t => t = { s.m with moon := { s.m.moon with wdog := s.m.now } })) ∧
      (r.pmode = false → c.outq.length + (qWords r).length ≤ 16 → (c.outq ≠ [] ∨ c.irqEn = false) →
        Does (.moonResponsePosted fn ch) s (OnlyPosted key r (fun c => { c with held := rest, outq := c.outq ++ qWords r }) [] s.m)) ∧
      (r.pmode = false → (qWords r).length ≤ 16 → c.outq = [] → c.irqEn = true → fn = .pf 0 → (s.m.hlink 0).up = true →
        (s.m.fnSt 0).msixEn = true → (s.m.fnSt 0).msixMask = false → (s.m.fnSt 0).d3hot = false →
        ∀ e, e = tget (⟨0, 0, true⟩ : MsixEntry) (s.m.fnSt 0).table 0 → e.masked = false →
        Does (.moonResponsePosted fn ch) s
          (OnlyPosted key r (fun c => { c with held := rest, outq := qWords r }) [.msix 0 0 e.addr e.data] s.m)) ∧
      (r.pmode = true → r.written = true → r.unread = false → c.notices.length < 8 → (c.notices ≠ [] ∨ c.irqEn = false) →
        Does (.moonResponsePosted fn ch) s
          (OnlyPosted key r (fun c => { c with held := rest, notices := c.notices ++ [noticeWord r] }) [] s.m)) ∧
      ∀ m1 m2 m3 m4, r.pmode = true → r.written = false → r.unread = false → r.hw = false → r.status ≠ 3 → 8 ≤ c.notices.length →
        m0.vwrite (keySpace key) (r.ptr + 64) r.result = .ok m1 → m1.vwrite (keySpace key) (r.ptr + 16) (leBytes 4 r.result.length) = .ok m2 →
        m2.vwrite (keySpace key) (r.ptr + 8) (statusBytes (r.status % 65536 + 65536 * (r.detail % 65536))) = .ok m3 →
        m3.vwrite (keySpace key) (r.ptr + 20) (leBytes 4 1) = .ok m4 →
        Does (.moonResponsePosted fn ch) s (fun t => t.mem = m4.mem ∧ t.chan key = { c with held := { r with written := true } :: rest })

/-- O28: an MCI command through the wrong function is DENIED, one that a reset of its partition meets ABORTED, an oversized one INVALID
(R329, R334, R344, Table 13.4). -/
def Obligations.CommandsNotAdmitted : Prop :=
  ∀ e, mciRow e → ∀ (fn : Fn) (ch : Nat) (s : State) (c : Cmd) (m1 : Mach), chanOk fn ch = true → s.m.mayTake fn ch = true →
    s.m.peek (chanKey fn ch) = .cmd c m1 → c.opcode = e.2.1 →
    ((s.m.stateDenies e.2.1 = true ∨ (e.2.2 = .m ∧ fn ≠ .pf 0) ∨ (e.2.2 = .p ∧ ∃ l p, fn = .vf l p)) →
      Does (e.1 fn ch) s (fun t => OnlyChans m1 t ∧ Answered fn ch c 4 0 [] m1 t)) ∧
    (s.m.stateDenies e.2.1 = false → (e.2.2 = .m → fn = .pf 0) → (e.2.2 = .p → ∃ l, fn = .pf l) →
      (s.m.aborted fn (chanKey fn ch) c = true →
        Does (e.1 fn ch) s (fun t => OnlyChans m1 t ∧ Answered fn ch c 9 0 [] m1 t)) ∧
      (s.m.aborted fn (chanKey fn ch) c = false → 4033 ≤ c.params.length →
        Does (e.1 fn ch) s (fun t => OnlyChans m1 t ∧ Answered fn ch c 3 0xFFFF [] m1 t)))

namespace Sys2Proof.Claims

/-- The abort of launch `k` can be recorded: it runs, Moon is not restarting, and its partition is not resetting. -/
def CanAbort (k : Nat) (m : Mach) : Prop := (m.krn k).live = true ∧ m.moon.restart = 0 ∧ (m.part (m.krn k).part).st ≠ .resetting

/-- Launch `k` has been aborted with a fault code: it and its blocks have gone, and the device ring's newest record says so (R93, R546). -/
def Aborted (k fault : Nat) (m t : Mach) : Prop :=
  (t.krn k).live = false ∧ (∀ b, (t.blk b).live = true → (t.blk b).krn ≠ k) ∧
    ∃ r, t.ras.ring.head? = some r ∧ r.code = 0x20 ∧ r.sev = 2 ∧ r.part = (m.krn k).part ∧ r.krn = (m.krn k).num ∧ r.fault = fault ∧ r.status = 9

/-- Launch `k` may take a bank of cluster `c`: blocks left there, its partition running, and none held yet (R78, R386). -/
def wantsBank (k c : Nat) (m : Mach) : Prop := (m.krn k).more c = true ∧ m.mayLaunch (m.krn k) = true ∧ k ∉ m.holders c

/-- Only launch `k` changes, by `f`. -/
def OnlyKrn (k : Nat) (f : Krn → Krn) (m t : Mach) : Prop := ∀ j, t.krn j = if j = k then f (m.krn j) else m.krn j

end Sys2Proof.Claims

/-- O29: a KGI that is accepted is sound; KGI.LOAD and KGI.UNLOAD (R131 to R133, Table 13.4). Choices and readings of the model: log
80. -/
def Obligations.KernelImages : Prop :=
  (∀ (img : List Byte) (size off : Nat) (ks : List KernelDesc) (gr : List Byte), checkKgi img size = .good off ks gr →
    fieldAt img 0 4 = 0x3149474B ∧ fieldAt img 16 8 = size ∧ slice img 32 48 = sha384 (img.drop 256) ∧ ks.length = fieldAt img 24 4 ∧
    (∀ k ∈ ks, 1 ≤ k.n ∧ k.n ≤ 255 ∧ 1 ≤ k.g ∧ k.g ≤ 32 ∧ 32 * (8 * ((k.n + 7) / 8)) * k.g ≤ 65536 ∧
      (k.localBytes + 1023) / 1024 + (k.recvBytes + 1023) / 1024 ≤ 512) ∧
    ∃ bytes, off + bytes ≤ size ∧ bytes % 8 = 0 ∧ (∀ k ∈ ks, 8 * (k.entry + k.length) ≤ bytes) ∧
      ∀ i, 8 * i < bytes → ∃ ins, decodeWord 0 (BitVec.ofNat 64 (fieldAt (slice img off bytes) (8 * i) 8)) = some ins ∧
        ∀ k ∈ ks, k.entry ≤ i → i < k.entry + k.length → kernelAllows k ins = true) ∧
  (∀ (fn : Fn) (ch : Nat) (s : State) (c : Cmd) (m1 m2 : Mach) (img : List Byte), Sent 0x0401 fn ch c s.m m1 →
    Framed 24 8 [(0, 4), (8, 8), (16, 8)] c →
    let space := spaceOf fn
    (∀ k ∈ (m1.part space).kgis, k.handle ≠ c.f 0 4) → c.f 16 8 ≠ 0 → c.f 8 8 + c.f 16 8 ≤ 2 ^ 52 →
    m1.mappedFor space .image (c.f 8 8) (c.f 16 8) = true → m1.vread space (c.f 8 8) (c.f 16 8) .image = .ok img m2 →
    (∀ w, checkKgi img (c.f 16 8) = .bad w →
      Does (.kgiLoad fn ch) s (fun t => Answered fn ch c 3 8 (leBytes 8 w) m2 t ∧ OnlyChans m2 t)) ∧
    ∀ off ks gr, checkKgi img (c.f 16 8) = .good off ks gr →
      (64 ≤ (m2.part space).kgis.length →
        Does (.kgiLoad fn ch) s (fun t => Answered fn ch c 5 6 (leBytes 8 0) m2 t ∧ OnlyChans m2 t)) ∧
      ((m2.part space).kgis.length < 64 →
        Does (.kgiLoad fn ch) s (fun t => Answered fn ch c 0 0 (leBytes 8 0) m2 t ∧ OnlyChans { m2 with parts := t.parts } t ∧
          ∀ p, t.part p = if p = space then
              { m2.part p with kgis := (m2.part p).kgis ++ [{ handle := c.f 0 4, code := c.f 8 8 + off, kernels := ks, graph := gr }],
                               captured := (t.part p).captured }
            else { m2.part p with captured := (t.part p).captured }))) ∧
  ∀ (fn : Fn) (ch : Nat) (s : State) (c : Cmd) (m1 : Mach), Sent 0x0402 fn ch c s.m m1 → Framed 4 0 [(0, 4)] c →
    let space := spaceOf fn
    (∃ k ∈ (m1.part space).kgis, k.handle = c.f 0 4) → (∀ k, (m1.krn k).live = true → (m1.krn k).part = space → (m1.krn k).handle ≠ c.f 0 4) →
    ((m1.part space).sb.conf = true → (m1.part space).sb.handle ≠ c.f 0 4) →
    Does (.kgiUnload fn ch) s (fun t => Answered fn ch c 0 0 [] m1 t ∧ OnlyChans { m1 with parts := t.parts, cores := t.cores } t ∧
      (∀ p, t.part p = { m1.part p with captured := (t.part p).captured,
                                        kgis := if p = space then (m1.part p).kgis.filter (fun k => k.handle != c.f 0 4) else (m1.part p).kgis }) ∧
      ∀ k, t.core k = if space < 65 ∧ k < 1024 ∧ (m1.part space).clusters.getLsbD (k / 16) = true then { m1.core k with icache := [] }
        else m1.core k)

/-- O30: KRN.LAUNCH, KRN.WAIT with its timeout, KRN.ABORT and KRN.CLASS (R190, R386, Table 13.4). Choices and readings of the model: logs
80, 81. -/
def Obligations.LaunchCommands : Prop :=
  (∀ (fn : Fn) (ch : Nat) (s : State) (c : Cmd) (m1 : Mach) (kgi : Kgi) (d : KernelDesc), Sent 0x0501 fn ch c s.m m1 →
    Framed 56 0 [(0, 4), (4, 4), (8, 4), (16, 8), (24, 8), (32, 16), (48, 4), (52, 4)] c →
    let space := spaceOf fn
    let mask : DWord := BitVec.ofNat 64 (c.f 16 8)
    (m1.part space).kgis.find? (fun k => k.handle == c.f 4 4) = some kgi → kgi.kernels[c.f 8 4]? = some d → mask ≠ 0 →
    mask &&& ~~~(m1.part space).clusters = 0 → c.f 24 8 < 2 ^ 52 → c.f 52 4 < 4 → m1.krnByNum space (c.f 0 4) = none →
    (256 ≤ (m1.mciKrns space).length → Does (.krnLaunch fn ch) s (fun t => Answered fn ch c 5 6 [] m1 t ∧ OnlyChans m1 t)) ∧
    ((m1.mciKrns space).length < 256 →
      Does (.krnLaunch fn ch) s (fun t => Answered fn ch c 0 0 [] m1 t ∧ OnlyChans { m1 with krns := t.krns, nextId := m1.nextId + 1 } t ∧
        OnlyKrn m1.nextId (fun _ => { Krn.reset with
          live := true, part := space, num := c.f 0 4, handle := kgi.handle, kernel := c.f 8 4, desc := d, code := kgi.code, clusters := mask,
          args := c.f 24 8, key := BitVec.ofNat 128 (c.f 32 16), epoch := BitVec.ofNat 32 (c.f 48 4), keyValid := (c.f 52 4).testBit 0,
          lc := (c.f 52 4).testBit 1, accepted := m1.nextId, total := d.blocks }) m1 t))) ∧
  (∀ (fn : Fn) (ch : Nat) (s : State) (c : Cmd) (m1 : Mach), Sent 0x0502 fn ch c s.m m1 → Framed 8 12 [(0, 4), (4, 4)] c →
    let space := spaceOf fn
    (∀ k, m1.krnByNum space (c.f 0 4) = some k →
      Does (.krnWait fn ch) s (fun t => OnlyChans m1 t ∧ (t.chan (chanKey fn ch)).held = (m1.chan (chanKey fn ch)).held ∧
        (t.chan (chanKey fn ch)).cur = some (c, .krn space (c.f 0 4) (if c.f 4 4 = 0 then none else some (m1.now + 1000 * c.f 4 4))))) ∧
    (m1.krnByNum space (c.f 0 4) = none → ∀ e, (m1.part space).ends.find? (fun e => e.num == c.f 0 4) = some e →
      Does (.krnWait fn ch) s (fun t => Answered fn ch c e.status 0 (leBytes 8 e.tide ++ leBytes 4 (if e.replayed then 1 else 0)) m1 t ∧
        OnlyChans m1 t)) ∧
    (m1.krnByNum space (c.f 0 4) = none → (∀ e ∈ (m1.part space).ends, e.num ≠ c.f 0 4) →
      Does (.krnWait fn ch) s (fun t => Answered fn ch c 3 0 [] m1 t ∧ OnlyChans m1 t))) ∧
  (∀ (fn : Fn) (ch : Nat) (s : State) (c : Cmd) (p n deadline : Nat), chanOk fn ch = true →
    (s.m.chan (chanKey fn ch)).cur = some (c, .krn p n (some deadline)) → deadline ≤ s.m.now → s.m.moonServes = true →
    Does (.krnWaitTimeout fn ch) s (fun t => Answered fn ch c 10 0 [] s.m t ∧ OnlyChans s.m t)) ∧
  (∀ (fn : Fn) (ch : Nat) (s : State) (c : Cmd) (m1 : Mach) (k : Nat), Sent 0x0503 fn ch c s.m m1 → Framed 4 0 [(0, 4)] c →
    m1.krnByNum (spaceOf fn) (c.f 0 4) = some k → CanAbort k m1 → (∀ e ∈ m1.waiting (fun _ => true), e.1 ≠ chanKey fn ch) →
    Does (.krnAbort fn ch) s (fun t => Answered fn ch c 0 0 [] m1 t ∧ Aborted k 8 m1 t ∧
      ∃ e ∈ (t.part (spaceOf fn)).ends, e.num = c.f 0 4 ∧ e.status = 9 ∧ e.tide = m1.now)) ∧
  ∀ (fn : Fn) (ch : Nat) (s : State) (c : Cmd) (m1 : Mach), Sent 0x0504 fn ch c s.m m1 → Framed 5 0 [(0, 4), (4, 1)] c → c.f 4 1 ≤ 1 →
    (m1.krnByNum (spaceOf fn) (c.f 0 4) = none → Does (.krnClass fn ch) s (fun t => Answered fn ch c 0 0 [] m1 t ∧ OnlyChans m1 t)) ∧
    ∀ k, m1.krnByNum (spaceOf fn) (c.f 0 4) = some k →
      Does (.krnClass fn ch) s (fun t => Answered fn ch c 0 0 [] m1 t ∧ OnlyChans { m1 with krns := t.krns } t ∧
        OnlyKrn k (fun x => { x with lc := decide (c.f 4 1 = 1) }) m1 t)

/-- O31: a cluster takes the first launch in order, and a launched block, a lost one of the lowest id first, starts as the manual lays out
(R76 to R80, R97, R207, R386). Choices and readings of the model: log 18. -/
def Obligations.BanksAndBlocks : Prop :=
  (∀ (cluster k : Nat) (s : State), cluster < 64 → s.m.mayIssue = true → (s.m.clu cluster).gated = false → (s.m.clu cluster).fenced = false →
    (s.m.clu cluster).bank0 = 0 ∨ (s.m.clu cluster).bank1 = 0 → wantsBank k cluster s.m →
    (∀ j, j ≠ k → wantsBank j cluster s.m → serveOrder (s.m.krn k) < serveOrder (s.m.krn j)) →
    (∀ i ∈ coresOfCluster cluster, s.m.granulesUsed i + granulesOf (s.m.krn k).desc.recvBytes ≤ 512) →
    Does (.bankAssign cluster) s (fun t => t = { s.m with clusters := t.clusters, krns := t.krns, cores := t.cores } ∧
      ∃ b, t.bankOf k cluster = some b ∧ (∀ c, c ≠ cluster → t.clu c = s.m.clu c) ∧
        (∀ i ∈ coresOfCluster cluster, (∀ e, e < 32 → t.ctrVal i (32 * b + e) = 0) ∧ (∀ e, e < 32 → t.ctrVal i (32 * (1 - b) + e) = s.m.ctrVal i (32 * (1 - b) + e)) ∧
          ∀ n, n = granulesOf (s.m.krn k).desc.recvBytes → n ≠ 0 →
            ∃ a, tget 0 (t.krn k).recv i = a + 1 ∧ (∀ j, 512 * j < a + n → a < 512 * (j + 1) → 16 ≤ j) ∧
              ∀ x, tget 0 (t.core i).loc x = if 1024 * a ≤ x ∧ x < 1024 * (a + n) then 0 else tget 0 (s.m.core i).loc x))) ∧
  (∀ (cluster k core id : Nat) (s : State), cluster < 64 → s.m.mayIssue = true → (s.m.clu cluster).gated = false →
    (s.m.clu cluster).fenced = false → s.m.considered cluster = [k] → s.m.place (s.m.krn k).desc cluster = some core →
    let x := s.m.krn k
    ((∀ r ∈ x.replay, r.1 ≠ cluster) ∧ id = x.next) ∨ ((cluster, id) ∈ x.replay ∧ ∀ r ∈ x.replay, r.1 = cluster → id ≤ r.2) →
    Does (.blockLaunch cluster) s (fun t => (t.krn k).next = (if ∀ r ∈ x.replay, r.1 ≠ cluster then x.next + 1 else x.next) ∧
      (∀ r, r ≠ (cluster, id) → (r ∈ (t.krn k).replay ↔ r ∈ x.replay)) ∧
      ∃ b ∈ blockSlots core, (s.m.blk b).live = false ∧ (∀ j, j ≠ b → t.blk j = s.m.blk j) ∧
        (t.blk b).live = true ∧ (t.blk b).krn = k ∧ (t.blk b).id = id ∧ (t.blk b).base = 512 * (b % 16) ∧ (t.blk b).granules = granulesOf x.desc.localBytes ∧
        ∀ i, i < x.desc.g → ∃ g ∈ groupSlots core, (s.m.grp g).live = false ∧ (t.grp g).live = true ∧ (t.grp g).block = b ∧ (t.grp g).index = i ∧
          (t.grp g).pc = BitVec.ofNat 32 x.desc.entry ∧ (t.grp g).wait = .none ∧ (t.grp g).exited = false ∧ (t.grp g).p = [] ∧
          (∀ r l, r < x.desc.regs → l < 32 → t.vGet g r l = if r = 0 then (l + 32 * i) % 2 ^ 32 else 0) ∧
          (∀ r, r < 64 → t.uGet g r = (if r = 0 then id else if r = 1 then i else if r = 2 then x.desc.g else if r = 3 then x.args
            else if r = 4 then x.args / 2 ^ 32 else 0) % 2 ^ 32) ∧
          (if x.keyValid then (t.grp g).seeding = .seeded ∧ ∀ l, l < 32 → laneOf (t.grp g).lanes l = seedThread x.key id (32 * i + l) x.epoch
           else (t.grp g).seeding = .unseeded))) ∧
  ∀ (cluster k : Nat) (s : State), cluster < 64 → k ∈ s.m.considered cluster → tget 0 (s.m.krn k).holdSince cluster ≠ 0 →
    tget 0 (s.m.krn k).holdSince cluster - 1 + 1000000 ≤ s.m.now → s.m.place (s.m.krn k).desc cluster = none →
    Does (.placementHoldTimeout cluster k) s (fun t => t = { s.m with krns := t.krns } ∧
      OnlyKrn k (fun x => { x with holding := (t.krn k).holding }) s.m t ∧ tget 0 (t.krn k).holding cluster = 1)

/-- O32: the end of a block and of an instance, the two deadlock rules and the watchdog (R91 to R95, R195). Choices and readings of the
model: log 114. -/
def Obligations.LaunchEnds : Prop :=
  (∀ (b : Nat) (s : State), b < 16384 → s.m.blockDone b = true → (s.m.krn (s.m.blk b).krn).live = true →
    Does (.blockEnd b) s (fun t =>
      t = { s.m with groups := t.groups, blocks := t.blocks, clusters := t.clusters, krns := t.krns, cores := t.cores } ∧
      (∀ c, t.core c = s.m.core c) ∧
      (∀ j, t.blk j = if j = b then Block.reset else s.m.blk j) ∧
      (∀ g, t.grp g = if coreOf g = blockCore b ∧ (s.m.grp g).live = true ∧ (s.m.grp g).block = b then Group.reset else s.m.grp g) ∧
      (t.krn (s.m.blk b).krn).ended = (s.m.krn (s.m.blk b).krn).ended + 1)) ∧
  (∀ (k : Nat) (s : State), let x := s.m.krn k
    x.live = true → x.stopped = false → x.next = x.total → x.replay = [] → x.total ≤ x.ended → (∀ b, (s.m.blk b).live = true → (s.m.blk b).krn ≠ k) →
    (s.m.part x.part).st ≠ .resetting → x.fromStep = false →
    Does (.instanceComplete k) s (fun t => (t.krn k).live = false ∧ (∀ j, j ≠ k → t.krn j = s.m.krn j) ∧
      t = { s.m with groups := t.groups, blocks := t.blocks, clusters := t.clusters, krns := t.krns, parts := t.parts, host := t.host } ∧
      (∀ key c, s.m.waiting (fun d => match d with | .krn p n _ => p == x.part && n == x.num | _ => false) = [(key, c)] →
        (t.chan key).held = (s.m.chan key).held ++
          [reply c (if x.unseeded then 12 else 0) 0 (leBytes 8 s.m.now ++ leBytes 4 (if x.replayed then 1 else 0))] ∧ (t.chan key).cur = none) ∧
      (t.part x.part).ends.getLast? = some { num := x.num, status := if x.unseeded then 12 else 0, tide := s.m.now, replayed := x.replayed })) ∧
  (∀ (core k : Nat) (s : State), core < 1024 → CanAbort k s.m → (s.m.core core).halted = false →
    let since := s.m.coreTide core - 4000
    s.m.busyOps k core = false → (∃ g ∈ s.m.groupsOn k core, (s.m.grp g).exited = false) →
    (∀ g ∈ s.m.groupsOn k core, (s.m.grp g).exited = false →
      (s.m.grp g).waitsSince (s.m.krn k) (s.m.core core) [1] since = true) → tget 0 (s.m.krn k).opTide core < since →
    tget 0 (s.m.krn k).leftTide core < since →
    Does (.eventDeadlock core k) s (fun t => Aborted k 5 s.m t)) ∧
  (∀ (k : Nat) (s : State), CanAbort k s.m → (s.m.krn k).netTide + 64000 < s.m.now → (∀ g ∈ s.m.sigs, g.krn ≠ k) → (∀ o ∈ s.m.mcasts, o.krn ≠ k) →
    (∃ c l g, c < 64 ∧ (s.m.krn k).clusters.getLsbD c = true ∧ l < 16 ∧ g ∈ s.m.groupsOn k (16 * c + l) ∧ (s.m.grp g).exited = false) →
    (∀ c l, c < 64 → (s.m.krn k).clusters.getLsbD c = true → l < 16 →
      let i := 16 * c + l
      let since := s.m.coreTide i - 64000
      s.m.busyOps k i = false ∧ (s.m.core i).halted = false ∧ tget 0 (s.m.krn k).opTide i < since ∧ tget 0 (s.m.krn k).leftTide i < since ∧
        ∀ g ∈ s.m.groupsOn k i, (s.m.grp g).exited = false → (s.m.grp g).waitsSince (s.m.krn k) (s.m.core i) [0, 1, 2] since = true) →
    Does (.quiescenceDeadlock k) s (fun t => Aborted k 5 s.m t)) ∧
  ∀ (b : Nat) (s : State), b < 16384 → (s.m.blk b).live = true → CanAbort (s.m.blk b).krn s.m → (s.m.core (blockCore b)).halted = false →
    (s.m.blk b).launched + (s.m.blk b).paused + 200000 < s.m.coreTide (blockCore b) →
    (s.m.clu (clusterOf (blockCore b))).stepsTide < s.m.now →
    (s.m.blk b).stepsAt + (s.m.blk b).pausedSteps + 256000 ≤ (s.m.clu (clusterOf (blockCore b))).steps →
    Does (.blockWatchdog b) s (fun t => Aborted (s.m.blk b).krn 6 s.m t)

namespace Sys2Proof.Claims

/-- The home's own value of a line, with its poison: the slice's copy, or what HBM's decrypts to. -/
def homeValue (m : Mach) (line : Nat) : LineData × Bool :=
  match tfind m.mem.llc line with
  | some l => (l.data, l.poison)
  | none => m.hbmLoad line

/-- Nothing is open at the homes, no host access waits there and no message about the line is in flight; no injected error waits for the
line. -/
def LineIdle (line : Nat) (m : Mach) : Prop :=
  m.mem.homeQ = [] ∧ m.mem.txns = [] ∧ m.host.posted = [] ∧ (∀ c ∈ m.mem.msgs, c.line ≠ line) ∧ tget 0 m.mem.hbmErr line = 0 ∧ m.mem.injectWrite ≠ line + 1

/-- An RLC may send a request for a line (R216, R244). -/
def CanAsk (rlc line : Nat) (m : Mach) : Prop :=
  rlc < 8 ∧ line < hbmLines ∧ remoteFor rlc line = true ∧ ∀ r ∈ m.mem.reqs, r.rlc ≠ rlc ∨ r.line ≠ line

/-- The directory records an RLC as the owner of a line. -/
def Owner (rlc line : Nat) (t : Mach) : Prop := ∃ e, t.dirOf line = some e ∧ e.st = .ownedRlc ∧ e.f = rlc + 1

/-- The home waits, for a request, for one holder's answer alone. -/
def AwaitsOnly (q : HomeReq) (h : Nat) (m : Mach) : Prop :=
  m.mem.homeQ = [] ∧ m.host.posted = [] ∧ m.mem.txns = [{ Txn.of q with waits := [h] }] ∧ tget 0 m.mem.hbmErr q.line = 0

/-- An RLC has no request on a line that the home has taken up. -/
def NotGranted (rlc line : Nat) (m : Mach) : Prop := ∀ r ∈ m.mem.reqs, r.rlc = rlc → r.line = line → r.served = false

/-- The state that a holder keeps a line in after a snoop, `none` where it keeps no copy, and whether its answer carries the data
(Table 10.3). -/
def snooped : SnoopKind → RlcSt → Option RlcSt × Bool
  | .snpData, .m => (some .f, true)
  | .snpData, .s => (some .s, false)
  | .snpData, _ => (some .f, false)
  | _, .m => (none, true)
  | _, _ => (none, false)

end Sys2Proof.Claims

/-- O33: RdS, RdX, Upgr and the requests of non-caching agents at an idle home (R242 to R247, R252, Tables 10.2 and 10.4). -/
def Obligations.CoherenceRequests : Prop :=
  (∀ (rlc line : Nat) (s : State), CanAsk rlc line s.m → LineIdle line s.m →
    let v := homeValue s.m line
    (s.m.rlcLine rlc line = none → s.m.dirOf line = none → s.m.dirRoom line = true →
      Does (.rds rlc line false) s (fun t => MemFrame s.m t ∧ Owner rlc line t ∧ .data .e rlc line v.1 v.2 0 ∈ t.mem.msgs ∧ t.mem.txns = []) ∧
      Does (.rdx rlc line) s (fun t => MemFrame s.m t ∧ Owner rlc line t ∧ .data .m rlc line v.1 v.2 0 ∈ t.mem.msgs ∧
        t.mem.txns = [{ Txn.of ⟨.rdx, rlc, line⟩ with dataWait := true }])) ∧
    (s.m.rlcLine rlc line = none → s.m.dirOf line = none → s.m.dirRoom line = false →
      Does (.rds rlc line false) s (fun t => MemFrame s.m t ∧ t.mem.homeQ = [⟨.rds false, rlc, line⟩] ∧ t.mem.dir = s.m.mem.dir)) ∧
    (∀ e h, s.m.rlcLine rlc line = none → s.m.dirOf line = some e → e.st = .ownedRlc → e.f = h + 1 → h < 8 → h ≠ rlc →
      Does (.rds rlc line false) s (fun t => MemFrame s.m t ∧ .snoop .fwdS h line rlc e.ownerOrd s.m.now ∈ t.mem.msgs ∧
        if e.ownerOrd then Owner rlc line t ∧ t.mem.txns = []
        else ∃ x, t.dirOf line = some x ∧ x.st = .shared ∧ x.f = rlc + 1 ∧ x.sharers.getLsbD rlc = true ∧ x.sharers.getLsbD h = true) ∧
      Does (.rdx rlc line) s (fun t => MemFrame s.m t ∧ .snoop .fwdX h line rlc e.ownerOrd s.m.now ∈ t.mem.msgs ∧ Owner rlc line t)) ∧
    ∀ e l, s.m.rlcLine rlc line = some l → l.st = .s ∨ l.st = .f → s.m.dirOf line = some e → e.st = .shared → e.sharers.getLsbD rlc = true → e.host = false →
      ((∀ h, h < 8 → h ≠ rlc → e.sharers.getLsbD h = false) →
        Does (.upgr rlc line) s (fun t => MemFrame s.m t ∧ Owner rlc line t ∧ .cmp rlc line ∈ t.mem.msgs)) ∧
      (∀ h, h < 8 → h ≠ rlc → e.sharers.getLsbD h = true →
        Does (.upgr rlc line) s (fun t => MemFrame s.m t ∧ t.dirOf line = some e ∧
          ∀ k, .snoop .snpInv k line rlc false s.m.now ∈ t.mem.msgs ↔ k < 8 ∧ k ≠ rlc ∧ e.sharers.getLsbD k = true))) ∧
  ∀ (agent line : Nat) (s : State), line < hbmLines → LineIdle line s.m → s.m.dirOf line = none → 9 ≤ agent → s.m.moon.restart = 0 →
    let v := homeValue s.m line
    Does (.rdcur agent line) s (fun t => MemFrame s.m t ∧ t.out.head? = some (.homeData agent line v.1 v.2) ∧ homeValue t line = v ∧
      t.dirOf line = none) ∧
    (∀ d bad, Does (.wrline agent line d bad) s (fun t => MemFrame s.m t ∧ homeValue t line = (d, bad) ∧ .cmp agent line ∈ t.mem.msgs)) ∧
    (∀ d mask bad, v.2 = false → mask ≠ BitVec.allOnes 64 →
      Does (.wrpart agent line d mask bad) s (fun t => MemFrame s.m t ∧ homeValue t line = (mergeLine v.1 d mask, bad) ∧ .cmp agent line ∈ t.mem.msgs)) ∧
    (∀ op off wide opnd cmp, v.2 = false →
      let n := if wide then 8 else 4
      let o := off % 64 / n * n
      let old := ofLe (slice (lineBytes v.1) o n)
      Does (.atom agent line op off wide opnd cmp false) s (fun t => MemFrame s.m t ∧
        homeValue t line =
          (mergeLine v.1 (placeBytes o (leBytes n (atomNew op (8 * n) (faddN n) old opnd.toNat cmp.toNat))) (maskOf o n), false) ∧
        t.out.head? = some (.homeData agent line (lineOf (leBytes 64 old)) false) ∧ .cmp agent line ∈ t.mem.msgs)) ∧
    (∀ l, tfind s.m.mem.llc line = some l → l.dirty = true →
      Does (.cohFlush agent line) s (fun t => MemFrame s.m t ∧ t.mem.hbmLine line = l.data ∧ tfind t.mem.llc line = some { l with dirty := false } ∧
        .cmp agent line ∈ t.mem.msgs))

/-- O34: what an RLC answers to a snoop, and how it takes data, completions and write-back acknowledgements (Table 10.3, R243 to R249). -/
def Obligations.CoherenceHolders : Prop :=
  (∀ e ∈ [(Instr.snpinv, SnoopKind.snpInv), (.snpdata, .snpData), (.recall, .recall)], ∀ (rlc line : Nat) (s : State) (req : Nat) (own : Bool) (since : Nat),
    rlc < 8 → line < hbmLines → s.m.snoopTo [e.2] rlc line = some (.snoop e.2 rlc line req own since) →
    ((∃ r, s.m.mem.reqs.find? (fun r => r.rlc == rlc && r.line == line) = some r ∧ r.served = true) →
      (∀ st d po t, .data st rlc line d po t ∈ s.m.mem.msgs → st = .m) → Does (e.1 rlc line) s (fun t => t = s.m)) ∧
    (NotGranted rlc line s.m →
    let rest := s.m.mem.msgs.erase (.snoop e.2 rlc line req own since)
    (∀ l, s.m.rlcLine rlc line = some l → Does (e.1 rlc line) s (fun t => MemFrame s.m t ∧
      t.rlcLine rlc line = (snooped e.2 l.st).1.map (fun st => { l with st := st }) ∧
      t.mem.msgs = rest ++ [if (snooped e.2 l.st).2 then .rspData rlc line l.data l.poison s.m.now
        else if e.2 = .snpData then .rspS rlc line s.m.now else .rspI rlc line s.m.now])) ∧
    (s.m.rlcLine rlc line = none → s.m.evictKind rlc line = none → Does (e.1 rlc line) s (fun t =>
      t = { s.m with mem := { s.m.mem with msgs := rest ++ [.rspI rlc line s.m.now] } })) ∧
    (∀ k, s.m.rlcLine rlc line = none → s.m.evictKind rlc line = some k → Does (e.1 rlc line) s (fun t =>
      ∃ st, t = { s.m with mem := { s.m.mem with msgs := rest ++ [.wbInFlight rlc line req st false s.m.now] } })))) ∧
  (∀ (rlc line : Nat) (s : State) (req since : Nat) (own : Bool) (l : RlcLine), rlc < 8 → line < hbmLines → NotGranted rlc line s.m →
    s.m.firstDue rlc line = false → s.m.rlcLine rlc line = some l → l.st ≠ .s → s.m.mem.homeQ = [] → s.m.host.posted = [] →
    (if own then s.m.mem.txns = [] else
      ∃ x, s.m.mem.txns = [x] ∧ x.req.line = line ∧ x.waits = [rlc] ∧ x.dataWait = true ∧ x.forwarded = true) →
    (s.m.snoopTo [.fwdS, .fwdX] rlc line = some (.snoop .fwdS rlc line req own since) →
      Does (.fwds rlc line) s (fun t => MemFrame s.m t ∧
        .data (if own ∧ l.st ≠ .f then l.st else .f) req line l.data l.poison (s.m.now + 1) ∈ t.mem.msgs ∧
        t.rlcLine rlc line = (if own ∧ l.st ≠ .f then none else some { l with st := .s }) ∧
        (own = false → l.st = .m → .rspData rlc line l.data l.poison s.m.now ∈ t.mem.msgs))) ∧
    (s.m.snoopTo [.fwdS, .fwdX] rlc line = some (.snoop .fwdX rlc line req own since) →
      Does (.fwdx rlc line) s (fun t => MemFrame s.m t ∧ t.rlcLine rlc line = none ∧
        .data (if l.st = .m then .m else .e) req line l.data l.poison (s.m.now + 1) ∈ t.mem.msgs))) ∧
  (∀ (rlc line : Nat) (s : State) (st : RlcSt) (d : LineData) (po : Bool) (sent : Nat) (r : RlcReq), rlc < 8 → line < hbmLines →
    s.m.mem.msgs.find? (fun c => match c with | .data _ h l _ _ _ => h == rlc && l == line | _ => false) = some (.data st rlc line d po sent) →
    s.m.mem.reqs = [r] → r.rlc = rlc → r.line = line → s.m.mem.homeQ = [] → s.m.mem.txns = [] → s.m.host.posted = [] →
    (∀ x ∈ s.m.mem.rlc, x.1 % 8 = rlc → rlcSet (x.1 / 8) = rlcSet line → x.1 = rlcKey rlc line) →
    Does (.dataSt rlc line) s (fun t => t = { s.m with mem := t.mem, parts := t.parts } ∧ (r.dropped = false → t.parts = s.m.parts) ∧
      t.mem.reqs = [] ∧ t.mem.msgs = s.m.mem.msgs.erase (.data st rlc line d po sent) ∧
      ∃ x, t.rlcLine rlc line = some x ∧ x.st = st ∧ x.data = d ∧ x.poison = po ∧
        x.ra = (if r.kind = .rds true ∧ r.dropped = false then r.part + 1 else 0))) ∧
  (∀ (rlc line : Nat) (s : State) (l : RlcLine) (r : RlcReq), rlc < 8 → line < hbmLines → .cmp rlc line ∈ s.m.mem.msgs → s.m.mem.homeQ = [] →
    s.m.host.posted = [] → s.m.mem.reqs = [r] → r.rlc = rlc → r.line = line → r.kind = .upgr → s.m.rlcLine rlc line = some l →
    s.m.mem.txns = [{ Txn.of ⟨.upgr, rlc, line⟩ with dataWait := true }] →
    Does (.cmp rlc line) s (fun t => t = { s.m with mem := t.mem } ∧ t.rlcLine rlc line = some { l with st := .m } ∧ t.mem.txns = [] ∧
      t.mem.reqs = [])) ∧
  ∀ (rlc line : Nat) (s : State), rlc < 8 → line < hbmLines → .wback rlc line ∈ s.m.mem.msgs →
    Does (.wback rlc line) s (fun t => t = { s.m with mem := { s.m.mem with
      msgs := s.m.mem.msgs.erase (.wback rlc line), evicting := s.m.mem.evicting.filter (fun e => e.1 != rlc || e.2.1 != line) } })

/-- O35: the home's side of responses, evictions and crossings, with read-ahead and time-outs (R217, R245 to R250, R259, R261). -/
def Obligations.CoherenceHomes : Prop :=
  (∀ (rlc line req : Nat) (s : State) (e : DirEntry) (since : Nat), rlc < 8 → req < 8 → line < hbmLines → req ≠ rlc → s.m.dirOf line = some e →
    e.st = .shared → e.host = false → e.sharers = 1#8 <<< rlc → AwaitsOnly ⟨.rdx, req, line⟩ rlc s.m →
    s.m.mem.msgs.find? (fun c => match c with | .rspI h l _ => h == rlc && l == line | _ => false) = some (.rspI rlc line since) →
    Does (.rspi rlc line) s (fun t => MemFrame s.m t ∧ Owner req line t ∧
      .data .m req line (homeValue s.m line).1 (homeValue s.m line).2 0 ∈ t.mem.msgs)) ∧
  (∀ (rlc line agent : Nat) (s : State) (e : DirEntry) (since : Nat), rlc < 8 → 9 ≤ agent → line < hbmLines → s.m.dirOf line = some e → e.st = .ownedRlc →
    e.f = rlc + 1 → e.host = false → AwaitsOnly ⟨.rdcur, agent, line⟩ rlc s.m →
    (s.m.mem.msgs.find? (fun c => match c with | .rspS h l _ => h == rlc && l == line | _ => false) = some (.rspS rlc line since) →
      Does (.rsps rlc line) s (fun t => MemFrame s.m t ∧ t.out.head? = some (.homeData agent line (homeValue s.m line).1 (homeValue s.m line).2) ∧
        t.mem.txns = [] ∧ ∃ x, t.dirOf line = some x ∧ x.st = .shared ∧ x.f = rlc + 1 ∧ x.sharers = 1#8 <<< rlc)) ∧
    ∀ d po, s.m.rlcLine rlc line = none →
      s.m.mem.msgs.find? (fun c => match c with | .rspData h l _ _ _ => h == rlc && l == line | _ => false) = some (.rspData rlc line d po since) →
      Does (.rspdata rlc line) s (fun t => MemFrame s.m t ∧ t.out.head? = some (.homeData agent line d po) ∧ homeValue t line = (d, po) ∧
        t.dirOf line = none ∧ t.mem.txns = [])) ∧
  (∀ (rlc line : Nat) (s : State) (d : LineData) (po : Bool), rlc < 8 → line < hbmLines → s.m.mem.homeQ = [] → s.m.host.posted = [] →
    let found := fun (k : EvictKind) =>
      s.m.mem.msgs.find? (fun c => match c with | .evict k' h l _ _ => k' == k && h == rlc && l == line | _ => false) = some (.evict k rlc line d po)
    let gone := fun (k : EvictKind) (t : Mach) => MemFrame s.m t ∧ t.mem.msgs = s.m.mem.msgs.erase (.evict k rlc line d po) ++ [.wback rlc line]
    (Owner rlc line s.m → found .wb → Does (.wb rlc line) s (fun t => gone .wb t ∧ t.dirOf line = none ∧ homeValue t line = (d, po))) ∧
    (Owner rlc line s.m → found .eve → Does (.eve rlc line) s (fun t => gone .eve t ∧ t.dirOf line = none ∧ homeValue t line = homeValue s.m line)) ∧
    ∀ e, s.m.dirOf line = some e → e.st = .shared → e.f = rlc + 1 → e.host = true → found .evf →
      Does (.evf rlc line) s (fun t => gone .evf t ∧ t.dirOf line = some { e with f := 0, sharers := e.sharers &&& ~~~(1#8 <<< rlc) } ∧
        homeValue t line = homeValue s.m line)) ∧
  (∀ (rlc line agent req : Nat) (s : State) (st : RlcSt) (since : Nat), rlc < 8 → 9 ≤ agent → line < hbmLines → s.m.dirOf line = none →
    AwaitsOnly ⟨.rdcur, agent, line⟩ rlc s.m →
    s.m.mem.msgs.find? (fun c => match c with | .wbInFlight h l _ _ _ _ => h == rlc && l == line | _ => false) =
      some (.wbInFlight rlc line req st false since) →
    (∀ k d po, .evict k rlc line d po ∉ s.m.mem.msgs) →
    Does (.wbinflight rlc line) s (fun t => MemFrame s.m t ∧ t.mem.txns = [] ∧
      t.out.head? = some (.homeData agent line (homeValue s.m line).1 (homeValue s.m line).2))) ∧
  (∀ (line : Nat) (s : State), line < hbmLines → s.m.up = true → LineIdle line s.m → s.m.dirOf line ≠ none →
    Does (.directoryParityRebuild line) s (fun t => MemFrame s.m t ∧
      (∀ h, h < 8 → .snoop .snpInv h line 9 false s.m.now ∈ t.mem.msgs) ∧ (s.m.cxlUp = true → .bisnp true line s.m.now false ∈ t.mem.msgs) ∧
      t.mem.txns = [{ Txn.of ⟨.rebuild, 9, line⟩ with waits := List.range 8 ++ (if s.m.cxlUp then [8] else []) }])) ∧
  (∀ (rlc line n since : Nat) (s : State), rlc < 8 → line < hbmLines → s.m.mem.homeQ = [] → s.m.host.posted = [] →
    s.m.mem.txns = [{ Txn.of ⟨.rebuild, 9, line⟩ with waits := [rlc], dirties := n }] → tget 0 s.m.mem.hbmErr line = 0 →
    (n ≤ 1 → s.m.moon.restart = 0 →
      s.m.mem.msgs.find? (fun c => match c with | .rspI h l _ => h == rlc && l == line | _ => false) = some (.rspI rlc line since) →
      Does (.rspi rlc line) s (fun t => MemFrame s.m t ∧ t.dirOf line = none ∧
        ∃ r, t.ras.ring.head? = some r ∧ r.code = 4 ∧ r.sev = 0 ∧ r.addr = 64 * line)) ∧
    ∀ d po, 1 ≤ n →
      s.m.mem.msgs.find? (fun c => match c with | .rspData h l _ _ _ => h == rlc && l == line | _ => false) = some (.rspData rlc line d po since) →
      Does (.rspdata rlc line) s (fun t => MemFrame s.m t ∧ t.dirOf line = none ∧ (homeValue t line).2 = true)) ∧
  (∀ (rlc block : Nat) (s : State) (x : Tracker), rlc < 8 → s.m.mem.trackers = [x] → x.rlc = rlc → x.block = block →
    (4 ≤ x.count → x.triggered = false →
      Does (.readaheadTrigger rlc block) s (fun t => t = { s.m with mem := { s.m.mem with trackers := [{ x with triggered := true }], raTodo := t.mem.raTodo } } ∧
        ∃ new, t.mem.raTodo = s.m.mem.raTodo ++ new ∧ (∀ f ∈ new, f.rlc = rlc ∧ f.part = x.part ∧ f.entry = 0 ∧ remoteFor rlc f.line = true ∧
            (f.line / 128 = block ∨ f.line / 128 = block + 1) ∧ s.m.partMaps x.part f.line = true) ∧
          ∀ l, (l / 128 = block ∨ l / 128 = block + 1) → l < hbmLines → remoteFor rlc l = true → s.m.rlcLine rlc l = none →
            (∀ r ∈ s.m.mem.reqs, r.rlc ≠ rlc ∨ r.line ≠ l) → s.m.partMaps x.part l = true → ∃ f ∈ new, f.line = l)) ∧
    (x.lastMiss + 4000 ≤ s.m.now → Does (.readaheadTrackerRelease rlc block) s (fun t => t = { s.m with mem := { s.m.mem with trackers := [] } }))) ∧
  ∀ (line : Nat) (s : State) (c : CohMsg) (since : Nat), line < hbmLines → c ∈ s.m.mem.msgs → c.line = line → c.since = some since →
    since + 100000 ≤ s.m.now → s.m.start.warmAt = 0 → s.m.pins.thermtrip = true → s.m.start.phase = .ready →
    Does (.snoopTimeout line) s (fun t => t.start.warmAt = s.m.now + 10000000 + 1 ∧
      ∃ r, t.ras.ring.head? = some r ∧ r.code = 0x40 ∧ r.sev = 3 ∧ r.detail = leBytes 20 2)

/-- O36: CXL.mem and CXL.cache: host reads and writes, BISnp, snoops, responses and errors (R253, R254, R260). Choices and readings of the
model: log 78. -/
def Obligations.HostCoherence : Prop :=
  (∀ (line : Nat) (s : State), line < hbmLines → s.m.cxlUp = true → s.m.hdmMaps line = true → LineIdle line s.m → s.m.dirOf line = none →
    s.m.dirRoom line = true →
    let v := homeValue s.m line
    (Does (.hostMemrd line .invalid) s (fun t => MemFrame s.m t ∧ .memData line v.1 v.2 ∈ t.out ∧ t.dirOf line = none) ∧
      Does (.hostMemrd line .shared) s (fun t => MemFrame s.m t ∧ .memData line v.1 v.2 ∈ t.out ∧
        ∃ e, t.dirOf line = some e ∧ e.st = .shared ∧ e.host = true ∧ e.sharers = 0) ∧
      Does (.hostMemrd line .any) s (fun t => MemFrame s.m t ∧ .memData line v.1 v.2 ∈ t.out ∧
        ∃ e, t.dirOf line = some e ∧ e.st = .ownedHost ∧ e.host = true)) ∧
    ∀ d, Does (.hostMemwr line d) s (fun t => MemFrame s.m t ∧ homeValue t line = (d, false) ∧ t.out.head? = some (.memCmp line))) ∧
  (∀ (line since : Nat) (inv : Bool) (s : State), line < hbmLines → s.m.bisnpOf line false = some (.bisnp inv line since false) →
    Does (if inv then .bisnpinv line else .bisnpdata line) s (fun t =>
      t = { s.m with out := .bisnp inv line :: s.m.out, mem := t.mem } ∧
        t.mem = { s.m.mem with msgs := s.m.mem.msgs.erase (.bisnp inv line since false) ++ [.bisnp inv line since true] })) ∧
  (∀ (line since agent : Nat) (inv : Bool) (s : State) (e : DirEntry), line < hbmLines → 9 ≤ agent → s.m.bisnpOf line true = some (.bisnp inv line since true) →
    s.m.dirOf line = some e → e.st = .ownedHost → AwaitsOnly ⟨.rdcur, agent, line⟩ 8 s.m →
    (∀ data : Option LineData,
      let v := match data with | some d => (d, false) | none => homeValue s.m line
      Does (.bisnpResponse line data) s (fun t => MemFrame s.m t ∧ t.out.head? = some (.homeData agent line v.1 v.2) ∧ t.mem.txns = [] ∧
        homeValue t line = v ∧ t.dirOf line = if inv then none else some { e with st := .shared })) ∧
    (since + 1000000 ≤ s.m.now →
      Does (.bisnpTimeout line) s (fun t => t.out.head? = some (.homeData agent line (homeValue s.m line).1 true) ∧ t.dirOf line = none ∧
        (homeValue t line).2 = true ∧ .aer 0 3 ((s.m.fnSt 0).aerSev.getLsbD 2) ∈ t.out ∧ t.host.cxlRas = true ∧ t.mem.txns = []))) ∧
  (∀ (hline : Nat) (kind : HostSnoop) (s : State), s.m.cxlUp = true →
    (tfind s.m.mem.llc (hostKey hline) = none →
      Does (.hostCxlCacheSnoop hline kind) s (fun t => t = { s.m with out := .cacheRsp hline false 0 false :: s.m.out })) ∧
    ∀ l, tfind s.m.mem.llc (hostKey hline) = some l →
      Does (.hostCxlCacheSnoop hline kind) s (fun t => t = { s.m with out := .cacheRsp hline l.dirty l.data l.poison :: s.m.out, mem := t.mem } ∧
        t.mem = { s.m.mem with llc := t.mem.llc } ∧
        tfind t.mem.llc (hostKey hline) = match kind with
          | .inv => none
          | .data => some { l with dirty := false, host := if l.host = .invalid then .invalid else .shared }
          | .cur => some l)) ∧
  (∀ (hline : Nat) (st : HostGrant) (d : LineData) (s : State) (x : Txn), s.m.txnOf (hostKey hline) = some x → st ≠ .invalid →
    Does (.cxlCacheHostResponse hline st d) s (fun t => MemFrame s.m t ∧
      (∀ y ∈ t.mem.txns, y.req.line ≠ hostKey hline) ∧
      ∃ l, tfind t.mem.llc (hostKey hline) = some l ∧ l.data = d ∧ l.host = st ∧ l.poison = false ∧ l.dirty = decide (st = .modified))) ∧
  ∀ (line : Nat) (s : State), line < hbmLines → s.m.cxlUp = true → s.m.bisnpOf line true = none → tget 0 s.m.mem.hbmErr line = 0 →
    Does (.cxlProtocolError line) s (fun t => (homeValue t line).2 = true ∧ (t.hlink 0).up = false ∧ t.host.cxlRas = true ∧
      .aer 0 3 ((s.m.fnSt 0).aerSev.getLsbD 2) ∈ t.out)

namespace Sys2Proof.Claims

/-- Core `core` is out of service (R96): it holds no block, its counters read zero, and no other core's service changes. -/
def Fenced (core : Nat) (m t : Mach) : Prop :=
  t.coreLive core = false ∧ (∀ c, c < 1024 → c ≠ core → t.coreLive c = m.coreLive c) ∧ (∀ e, t.ctrVal core e = 0) ∧
    (∀ b, blockCore b = core → (t.blk b).live = false) ∧
    (tget .good t.ras.phys (m.physOf core) = if tget .good m.ras.phys (m.physOf core) = .good ∨ tget .good m.ras.phys (m.physOf core) = .spare
      then .onceFailed else .failed) ∧
    ∀ b, blockCore b = core → (m.blk b).live = true →
      let k := (m.blk b).krn
      ((m.krn k).desc.replayable = true → (m.part (m.krn k).part).st ≠ .resetting → (t.krn k).live = true ∧ (clusterOf core, (m.blk b).id) ∈ (t.krn k).replay) ∧
      ((m.krn k).desc.replayable = false → (m.part (m.krn k).part).st ≠ .resetting → (t.krn k).live = false)

/-- A device-level fatal error (R566): the record, AER on every function, and a warm reset 10 ms later. -/
def FatalError (code : Nat) (m t : Mach) : Prop :=
  (∃ r, t.ras.ring.head? = some r ∧ t.ras.fatals.head? = some r ∧ r.code = 0x40 ∧ r.sev = 3 ∧ r.detail = leBytes 20 code) ∧
    (∀ f ∈ m.functions, .aer f 3 ((m.fnSt f).aerSev.getLsbD 2) ∈ t.out) ∧
    t.start.warmAt = (if m.start.warmAt = 0 ∧ m.pins.thermtrip = true ∧ m.start.phase ≠ .outOfService ∧ m.start.phase ≠ .held then m.now + 10000001
      else m.start.warmAt)

/-- The device ring's newest record has this code and severity. -/
def Logged (code sev : Nat) (t : Mach) : Prop := ∃ r, t.ras.ring.head? = some r ∧ r.code = code ∧ r.sev = sev

end Sys2Proof.Claims

/-- O37: a fenced core, an issue hang, a spare swap, a fenced cluster and a stream parity error (R96, R97, R204, R536 to R538, R540).
Choices and readings of the model: logs 42, 105. -/
def Obligations.FencesAndSpares : Prop :=
  (∀ (core : Nat) (s : State) (cause : FenceCause), core < 1024 → s.m.up = true → s.m.coreLive core = true → s.m.moon.restart = 0 →
    (∀ b, blockCore b = core → (s.m.blk b).live = true → (s.m.krn (s.m.blk b).krn).live = true) →
    Does (.coreFence core cause) s (Fenced core s.m) ∧
    ((∀ b, blockCore b = core → (s.m.blk b).live = false) → Does (.coreFence core cause) s (Logged 0x21 2)) ∧
    ((s.m.core core).halted = false → (s.m.core core).issueTide + 20000 ≤ s.m.coreTide core →
      (∃ b, blockCore b = core ∧ (s.m.blk b).live = true ∧ (s.m.blk b).launched + 20000 ≤ s.m.coreTide core) →
      Does (.issueHang core) s (Fenced core s.m))) ∧
  (∀ (cluster : Nat) (s : State), cluster < 64 → s.m.up = true → (s.m.clu cluster).fenced = false → (s.m.clu cluster).pendingValid = true →
    (s.m.clu cluster).spareValid = true → (∀ b, (s.m.blk b).live = true → clusterOf (blockCore b) ≠ cluster) → s.m.moon.restart = 0 →
    let x := s.m.clu cluster
    Does (.spareSwap cluster) s (fun t => t = { s.m with clusters := t.clusters, cores := t.cores, ras := t.ras, krns := t.krns } ∧ Logged 0x24 4 t ∧
      (∀ k, t.krn k = { s.m.krn k with recv := (t.krn k).recv } ∧
        (k ∈ s.m.holders cluster → 0 < granulesOf (s.m.krn k).desc.recvBytes → tget 0 (t.krn k).recv (16 * cluster + x.pending.toNat) ≠ 0)) ∧
      (∀ c, c ≠ cluster → t.clu c = s.m.clu c) ∧
      t.clu cluster = { x with phys := (t.clu cluster).phys, live := x.live ||| (1#16 <<< x.pending.toNat), spareValid := false, pendingValid := false } ∧
      (∀ l, tget 0 (t.clu cluster).phys l = if l = x.pending.toNat then x.spare.toNat else tget 0 x.phys l) ∧
      (∀ a, tget 0 (t.core (16 * cluster + x.pending.toNat)).loc a = 0) ∧ ∀ c, c ≠ 16 * cluster + x.pending.toNat → t.core c = s.m.core c)) ∧
  (∀ (cluster : Nat) (s : State), cluster < 64 → s.m.up = true → (s.m.clu cluster).fenced = false → s.m.moon.restart = 0 →
    Does (.clusterFence cluster) s (fun t => (t.clu cluster).fenced = true ∧ (t.clu cluster).live = 0 ∧
      (∀ c, c ≠ cluster → (t.clu c).live = (s.m.clu c).live ∧ (t.clu c).fenced = (s.m.clu c).fenced) ∧
      (∀ b, (s.m.blk b).live = true → clusterOf (blockCore b) = cluster → (t.krn (s.m.blk b).krn).live = false) ∧
      ((∀ b, (s.m.blk b).live = true → clusterOf (blockCore b) ≠ cluster) →
        (∀ k, (s.m.krn k).live = true → ∀ r ∈ (s.m.krn k).replay, r.1 ≠ cluster) → Logged 0x22 2 t))) ∧
  ∀ (g : Nat) (s : State), g < 49152 → (s.m.grp g).live = true → CanAbort (s.m.krnOf g) s.m →
    Does (.streamParityError g) s (Aborted (s.m.krnOf g) 10 s.m)

/-- O38: patrols of HBM and of the arrays, failed paths, repair maps, and the log commands (R529 to R535, R544, R547, R554, R555). Choices
and readings of the model: logs 106 to 109. -/
def Obligations.PatrolsAndRecords : Prop :=
  (∀ (line : Nat) (s : State), line < hbmLines → s.m.up = true → s.m.patrolLine = line → (s.m.unit (line / 2 ^ 24)).scrub = false →
    tget 0 s.m.mem.hbmErr line = 0 →
    (Does (.patrolScrub line .good) s (fun t => t.ras = { s.m.ras with patrol := (line + 1) % hbmLines } ∧ homeValue t line = homeValue s.m line ∧
      t = { s.m with ras := t.ras, mem := { s.m.mem with hbmErr := t.mem.hbmErr } })) ∧
    (s.m.goodCopy line = none → Does (.patrolScrub line .uncorrectable) s (fun t => MemFrame s.m t ∧ t.mem.hbmLine line = s.m.mem.hbmLine line ∧
      tget false t.mem.hbmPoison line = true ∧ ∀ l, l ≠ line → tget false t.mem.hbmPoison l = tget false s.m.mem.hbmPoison l)) ∧
    ∀ d, s.m.goodCopy line = some d → s.m.moon.restart = 0 → Does (.patrolScrub line .uncorrectable) s (fun t => MemFrame s.m t ∧ t.mem.hbmLine line = d ∧
      tget false t.mem.hbmPoison line = false ∧ Logged 6 0 t)) ∧
  (∀ (a : ArrayRef) (s : State), arrayOk a = true → arrayLineOk a = true → s.m.up = true → s.m.moon.restart = 0 →
    Does (.arrayPatrol a .good) s (fun t => t = s.m) ∧
    Does (.arrayPatrol a .correctable) s (fun t => t = { s.m with ras := t.ras } ∧ Logged 1 0 t) ∧
    (∀ core line, a = .l1 core line → (s.m.core core).l1Way line = none →
      Does (.arrayPatrol a .uncorrectable) s (fun t => t = { s.m with ras := t.ras } ∧ t.ras.ring = s.m.ras.ring)) ∧
    (∀ core line, a = .l1 core line → (s.m.core core).l1Way line ≠ none →
      Does (.arrayPatrol a .uncorrectable) s (fun t => MemFrame s.m { t with cores := s.m.cores } ∧ (∀ c, c ≠ core → t.core c = s.m.core c) ∧
        t.core core = { s.m.core core with l1 := (t.core core).l1, plru := (t.core core).plru } ∧
        ∀ x, remoteFor (halfOfCore core) line = true → s.m.rlcLine (halfOfCore core) line = some x →
          Logged 5 0 t ∧ (t.core core).l1Data line = if x.poison then none else some x.data)) ∧
    (∀ controller p, a = .keyTable controller p → (s.m.part p).st = .running →
      Does (.arrayPatrol a .uncorrectable) s (fun t => (t.part p).st = .resetting)) ∧
    ∀ line l, a = .slice line → s.m.settled line = true → tfind s.m.mem.llc line = some l → l.dirty = true → (∀ h, h < 8 → s.m.rlcLine h line = none) →
      Does (.arrayPatrol a .uncorrectable) s (fun t => MemFrame s.m t ∧ homeValue t line = (l.data, true))) ∧
  (∀ (path : CheckPath) (s : State), s.m.up = true → Does (.checkerFailedPath path) s (FatalError (match path with | .bridge => 1 | .array => 7) s.m)) ∧
  (∀ (die : Nat) (s : State), die < 4 → s.m.moonServes = true → tget 0 s.m.ras.mapDue die ≠ 0 →
    let n := tget 0 s.m.ras.mapFails die
    let written := fun (t : Mach) => t = { s.m with ras := t.ras } ∧ tget 0 t.ras.mapDue die = 0 ∧ tget 0 t.ras.mapFails die = 0 ∧
      (∀ i, tget .good t.ras.flash i = if 272 * die ≤ i ∧ i < 272 * die + 272 then tget .good s.m.ras.phys i else tget .good s.m.ras.flash i) ∧
      t.ras.flashPages = if die = 0 then s.m.mem.retired else s.m.ras.flashPages
    (n = 0 → Does (.repairMapUpdate die) s written) ∧
    (tget 0 s.m.ras.mapDue die - 1 + 1000000000 ≤ s.m.now → Does (.repairMapRetry die true) s written ∧
      Does (.repairMapRetry die false) s (fun t => t = { s.m with ras := t.ras } ∧ tget 0 t.ras.mapFails die = n + 1 ∧ t.ras.flash = s.m.ras.flash ∧
        (n = 59 → Logged 0x40 3 t)))) ∧
  (∀ (fn : Fn) (ch : Nat) (s : State) (c : Cmd) (m1 m2 : Mach), Sent 0x0901 fn ch c s.m m1 → Framed 24 4 [(0, 4), (8, 8), (16, 8)] c →
    m1.vwrite (spaceOf fn) (c.f 8 8) ((fitRecs (c.f 16 8) (m1.logFor fn (c.f 0 4))).flatMap RasRec.bytes) = .ok m2 →
    Does (.rasLogRead fn ch) s (fun t => Answered fn ch c 0 0 (leBytes 4 (fitRecs (c.f 16 8) (m1.logFor fn (c.f 0 4))).length) m2 t ∧ OnlyChans m2 t)) ∧
  (∀ (m : Mach) (first : Nat), m.ras.oldest ≤ first → m.logFor (.pf 0) first = (m.ras.ring.filter (fun r => decide (first ≤ r.seq))).reverse) ∧
  (∀ (m : Mach) (first : Nat), first < m.ras.oldest → ∃ r rest, m.logFor (.pf 0) first = r :: rest ∧ r.code = 0x1FF ∧ r.sev = 4 ∧
    rest = (m.ras.ring.filter (fun r => decide (first ≤ r.seq))).reverse) ∧
  (∀ (ch : Nat) (s : State) (c : Cmd) (m1 : Mach), Sent 0x0902 (.pf 0) ch c s.m m1 → Framed 4 0 [(0, 4)] c →
    Does (.rasLogClear (.pf 0) ch) s (fun t => Answered (.pf 0) ch c 0 0 [] m1 t ∧ OnlyChans { m1 with ras := t.ras } t ∧
      t.ras = { m1.ras with ring := m1.ras.ring.filter (fun r => decide (c.f 0 4 < r.seq)), oldest := t.ras.oldest })) ∧
  ∀ (ch : Nat) (s : State) (c : Cmd) (m1 m2 : Mach) (r : CrashRec), Sent 0x0903 (.pf 0) ch c s.m m1 → Framed 16 0 [(0, 2), (8, 8)] c →
    m1.moon.crashes.find? (fun r => r.index == c.f 0 2) = some r → m1.vwrite 65 (c.f 8 8) r.bytes = .ok m2 →
    Does (.rasCrashRead (.pf 0) ch) s (fun t => Answered (.pf 0) ch c 0 0 [] m2 t ∧ OnlyChans m2 t)

/-- O39: the Tide's tick and drift, bridge failures, the telemetry windows and cluster gating (R47, R48, R51, R59, R72 to R74, R456,
R457). Choices and readings of the model: logs 43, 46, 53, 118. -/
def Obligations.TideAndTelemetry : Prop :=
  (∀ s : State, s.m.clk.locked = true →
    Does .tideTick s (fun t => (∀ d, t.tideOf d = if d < 6 then s.m.tideOf d + 1 else s.m.tideOf d) ∧
      t = { s.m with clk := { s.m.clk with tide := t.clk.tide }, parts := t.parts, cres := t.cres } ∧
      ∀ p, t.part p = { s.m.part p with acct := (t.part p).acct } ∧
        ∀ i, tget 0 (t.part p).acct i = tget 0 (s.m.part p).acct i +
          if i = 0 ∧ p ≠ 0 then s.m.busyClusters.countP (fun c => (s.m.clu c).owner == p) else 0)) ∧
  (∀ (die : Nat) (s : State), die < 6 → die ≠ 4 → s.m.powered = true → s.m.clk.locked = true → s.m.start.warmAt = 0 → s.m.up = true →
    Does (.tideDrift die) s (FatalError 3 s.m)) ∧
  (∀ (bridge : Nat) (s : State), bridge < 8 → s.m.powered = true → Does (.dieBridgeRetryFail bridge) s (FatalError 1 s.m)) ∧
  (∀ (half injected : Nat) (path : List Nat) (loaded : Bool) (s : State), half < 8 → (∀ h ∈ path, h < 8) → s.m.up = true →
    let bounded := loaded = false ∧ ∀ h ∈ half :: path, 4 ≤ (s.m.half h).op ∧ (s.m.half h).tj ≤ 95
    let bound := if ∀ h ∈ path, h / 2 = half / 2 then 120 else 400
    (bounded → injected + bound + 2 < s.m.tideOf (half / 2) →
      Does (.lcPacketEjection half injected ⟨path, loaded⟩) s (fun t => t = { s.m with clk := { s.m.clk with lcLate := t.clk.lcLate } } ∧
        ∀ h, tget 0 t.clk.lcLate h = if h = half then (tget 0 s.m.clk.lcLate h + 1) % 2 ^ 48 else tget 0 s.m.clk.lcLate h)) ∧
    (¬ bounded → Does (.lcPacketEjection half injected ⟨path, loaded⟩) s (fun t => t = s.m))) ∧
  (∀ (cluster : Nat) (n : BitVec 24) (first : Byte) (others : List Byte) (s : State), cluster < 64 → s.m.up = true → s.m.now % 10000 = 0 → s.m.moon.restart = 0 →
    let x := s.m.clu cluster
    let op := (s.m.half (halfOfCluster cluster)).op
    let mixed := s.m.opMoved (halfOfCluster cluster)
    let valid := !x.gated && decide (x.poweredAt + 10000 ≤ s.m.now)
    let tj := hottest first others
    Does (.steprateWindowEnd cluster n first others) s (fun t =>
      t = { s.m with clusters := t.clusters, parts := t.parts, ras := t.ras } ∧ (∀ c, c ≠ cluster → t.clu c = s.m.clu c) ∧
      t.clu cluster = { x with
        steps := x.steps + (if x.gated then 0 else n.toNat), stepsTide := s.m.now,
        rate := { steps := if x.gated then 0 else n, tj := tj, op := BitVec.ofNat 3 op, mixed := mixed, valid := valid } } ∧
      (valid = true → mixed = false → deviates op tj.toNat n.toNat = true → Logged 0x31 4 t) ∧
      (valid = false ∨ mixed = true ∨ deviates op tj.toNat n.toNat = false → t.ras = s.m.ras))) ∧
  (∀ (cluster : Nat) (s : State), cluster < 64 → s.m.up = true → (s.m.clu cluster).gated = false → (s.m.blocksOfCluster cluster) = [] →
    (∀ l, l < 16 → (s.m.core (16 * cluster + l)).halted = false) → (s.m.clu cluster).idleSince + 100000 ≤ s.m.now →
    (s.m.part (s.m.clu cluster).owner).sb.running = false →
    Does (.clusterGate cluster) s (fun t => t = { s.m with clusters := t.clusters } ∧ (∀ c, c ≠ cluster → t.clu c = s.m.clu c) ∧
      t.clu cluster = { s.m.clu cluster with gated := true, rate := { (s.m.clu cluster).rate with steps := 0, valid := false } })) ∧
  ∀ (cluster k : Nat) (s : State), cluster < 64 → s.m.up = true → (s.m.clu cluster).gated = true → s.m.start.d3hot = false →
    (s.m.krn k).more cluster = true → s.m.mayLaunch (s.m.krn k) = true →
    Does (.clusterUngate cluster) s (fun t => t = { s.m with clusters := t.clusters, cores := t.cores, krns := t.krns } ∧
      (t.clu cluster).gated = false ∧ (t.clu cluster).idleSince = s.m.now ∧ (t.clu cluster).poweredAt = s.m.now ∧ (t.clu cluster).bank0 = 0 ∧ (t.clu cluster).bank1 = 0 ∧
      (∀ c, c ≠ cluster → t.clu c = s.m.clu c) ∧ (∀ c, t.core c = if c / 16 = cluster then (s.m.core c).quiesce else s.m.core c))

/-- O40: key updates, debug levels, lifecycle moves, the random source and the test port (R24, R502 to R511, R520). Choices and readings
of the model: logs 9, 102 to 104. -/
def Obligations.SecurityStates : Prop :=
  (∀ s : State, s.m.powered = true → s.m.sec.trngOk = true → s.m.moon.restart = 0 →
    Does .trngHealthFailure s (fun t => t = { s.m with sec := { s.m.sec with trngOk := false }, ras := t.ras } ∧ Logged 0x34 2 t)) ∧
  (∀ s : State, s.m.sec.trngOk = false → (∀ p, p < 65 → ∀ k, (s.m.part p).flr ≠ .quiet k true) →
    Does .trueRandomSourceRecovery s (fun t => t = { s.m with sec := { s.m.sec with trngOk := true } })) ∧
  (∀ (ch : Nat) (s : State) (c : Cmd) (m1 m2 : Mach) (p r : List Byte), Sent 0x0A01 (.pf 0) ch c s.m m1 → Framed 12 0 [(0, 8), (8, 4)] c →
    m1.sec.life = .deployed → c.f 8 4 = 7668 → m1.vread 65 (c.f 0 8) 7668 .read = .ok p m2 → packageShape p = true → m1.sec.recovery = false →
    let slot := fun (x : Sec) (i : Nat) => if i = 1 then x.vaultA else x.vaultB
    let best := m1.sec.best
    best ≠ 0 →
    (fieldAt p 16 16 ≠ m1.sec.serial.toNat ∨ fieldAt p 8 8 ≤ (slot m1.sec best).gen ∨ signedBy m1.sec.owner (p.take 256) (p.drop 256) = false →
      Does (.secKeyUpdate (.pf 0) ch) s (fun t => Answered (.pf 0) ch c 4 0 [] m2 t ∧ OnlyChans m2 t)) ∧
    (fieldAt p 16 16 = m1.sec.serial.toNat → (slot m1.sec best).gen < fieldAt p 8 8 → signedBy m1.sec.owner (p.take 256) (p.drop 256) = true →
      Config.openKeyPackage (p.take 256) = some r →
      Does (.secKeyUpdate (.pf 0) ch) s (fun t => Answered (.pf 0) ch c 0 0 [] m2 t ∧ OnlyChans { m2 with sec := t.sec } t ∧
        slot t.sec best = slot m1.sec best ∧ (slot t.sec (3 - best)).gen = fieldAt p 8 8 ∧ (slot t.sec (3 - best)).valid = true ∧
        (slot t.sec (3 - best)).fabric = if (fieldAt p 6 2).testBit 0 then BitVec.ofNat 256 (fieldAt r 0 32) else (slot m1.sec best).fabric))) ∧
  (∀ (ch : Nat) (s : State) (c : Cmd) (m1 m2 : Mach) (tok : List Byte), Sent 0x0A02 (.pf 0) ch c s.m m1 → Framed 13 0 [(0, 8), (8, 4), (12, 1)] c →
    m1.flrRuns = false → m1.sec.life ≠ .deployed → m1.sec.level = .none → c.f 8 4 = 4819 → (c.f 12 1 = 1 ∨ c.f 12 1 = 2) →
    m1.vread 65 (c.f 0 8) 4819 .read = .ok tok m2 → (m1.fnSt 0).d3hot = false →
    (m1.tokenOk (c.f 12 1) m1.sec.life.debugSigner tok = false →
      Does (.secDbgUnlock (.pf 0) ch) s (fun t => Answered (.pf 0) ch c 4 0 [] m2 t ∧
        OnlyChans { m2 with sec := { m1.sec with nonce := t.sec.nonce }, free := m2.free + 1 } t)) ∧
    (m1.tokenOk (c.f 12 1) m1.sec.life.debugSigner tok = true →
      Does (.secDbgUnlock (.pf 0) ch) s (fun t => Answered (.pf 0) ch c 0 0 [] m2 t ∧
        t.sec.level = (if c.f 12 1 = 1 then .observe else .invasive) ∧ t.sec.life = m1.sec.life ∧
        t.sec.expiry = if fieldAt tok 32 8 = 0 then 0 else m1.now + 1000 * fieldAt tok 32 8))) ∧
  (∀ (ch : Nat) (s : State) (c : Cmd) (m1 : Mach), Sent 0x0A03 (.pf 0) ch c s.m m1 → Framed 0 0 [] c → m1.sec.level ≠ .none → m1.start.warmAt = 0 →
    m1.pins.thermtrip = true → m1.start.phase = .ready →
    Does (.secDbgLock (.pf 0) ch) s (fun t => Answered (.pf 0) ch c 0 0 [] m1 t ∧ t.sec.level = .none ∧ t.sec.life = m1.sec.life ∧
      (∀ k, (t.core k).halted = false) ∧
      t.start.warmAt = if m1.sec.level = .invasive ∧ m1.sec.life = .deployed then m1.now + 1000001 else 0)) ∧
  (∀ s : State, s.m.sec.level ≠ .none → s.m.sec.expiry ≠ 0 → s.m.sec.expiry ≤ s.m.now →
    Does .debugExpiry s (fun t => t.sec.level = .none ∧ t.sec.expiry = 0 ∧ t.sec.life = s.m.sec.life ∧ ∀ k, (t.core k).halted = false)) ∧
  (∀ (ch : Nat) (s : State) (c : Cmd) (m1 m2 : Mach) (tok : List Byte) (target : Lifecycle) (who : Signer), Sent 0x0A04 (.pf 0) ch c s.m m1 →
    Framed 20 0 [(0, 1), (8, 8), (16, 4)] c → m1.flrRuns = false → lifeOf (c.f 0 1) = some target → (m1.fnSt 0).d3hot = false →
    (moveSigner m1.sec.life target = none → Does (.secLifecycle (.pf 0) ch) s (fun t => Answered (.pf 0) ch c 4 0 [] m1 t ∧ t.sec.life = m1.sec.life)) ∧
    (moveSigner m1.sec.life target = some who → c.f 16 4 = (if who = .owner then 7508 else 4819) → m1.vread 65 (c.f 8 8) (c.f 16 4) .read = .ok tok m2 →
      m1.tokenOk 3 who tok = true → fieldAt tok 5 1 = target.code → (target = .deployed ∨ zeroAt tok 40 48 = true) →
      Does (.secLifecycle (.pf 0) ch) s (fun t => Answered (.pf 0) ch c 0 0 [] m2 t ∧ t.sec.life = target))) ∧
  ∀ (op : TapOp) (s : State), Does (.testAccessPortInstruction op) s (fun t =>
    (s.m.sec.level = .none → (∀ ir, op ≠ .mandatory ir) → t = s.m) ∧ (s.m.sec.level ≠ .invasive → t.cores = s.m.cores ∧ t.groups = s.m.groups) ∧
    t.sec = s.m.sec ∧ t.mem = s.m.mem ∧
    (∀ core, op = .halt core → s.m.sec.level = .invasive → core < 1024 → s.m.coreLive core = true → (t.core core).halted = true) ∧
    (∀ core, op = .release core → s.m.sec.level = .invasive → core < 1024 → (t.core core).halted = false) ∧
    (∀ core ctr, op = .counter core ctr → s.m.sec.level ≠ .none → core < 1024 → ctr < 64 →
      t.out.head? = some (.tap (tget 0 (s.m.core core).ctr ctr).toNat)) ∧
    (∀ g reg lane, op = .readReg g (.v reg lane) → s.m.sec.level = .invasive → g < 49152 → reg < 256 → lane < 32 →
      t.out.head? = some (.tap (tget 0 (s.m.grp g).v (32 * reg + lane)).toNat)) ∧
    ∀ g r w, op = .writeReg g r w → s.m.sec.level = .invasive → g < 49152 → (∀ h, h ≠ g → t.grp h = s.m.grp h) ∧
      readDbg (t.grp g) r = match r with | .p q => if q % 8 = 0 then BitVec.allOnes 32 else w | _ => w)

namespace Sys2Proof.Claims

/-- Of partition table entry `p` alone, `f` changes it. -/
def OnlyPart (p : Nat) (f : Part → Part) (m t : Mach) : Prop := ∀ q, t.part q = if q = p then f (m.part q) else m.part q

/-- The same after a command has been taken, whose channel may leave the partition's list of captured commands (R373). -/
def OnlyPartOf (p : Nat) (f : Part → Part) (m t : Mach) : Prop :=
  ∀ q, { t.part q with captured := (m.part q).captured } = if q = p then f (m.part q) else m.part q

/-- What MEM.MAP adds to a space's mappings: the range that its parameters name. -/
def newRange (c : Cmd) : MapRange :=
  { va := c.f 0 8, len := c.f 16 8, target := c.f 24 4 % 4, tgt := c.f 8 8, access := c.f 24 4 / 4 % 4, ownerOrd := c.f 24 4 / 16 % 2 == 1,
    large := c.f 24 4 / 32 % 2 == 1, stopped := false, aperture := 0 }

/-- The command of a channel waits for shoot-down `id` of a range, and no address of the range translates any more (R224). -/
def ShootBegun (fn : Fn) (ch : Nat) (c : Cmd) (va len : Nat) (kind : ShootKind) (m t : Mach) : Prop :=
  (t.chan (chanKey fn ch)).cur = some (c, .shoot m.nextId) ∧ (t.chan (chanKey fn ch)).held = (m.chan (chanKey fn ch)).held ∧
    OnlyChans { m with parts := t.parts, mem := t.mem, nextId := m.nextId + 1 } t ∧ (∀ a, va ≤ a → a < va + len → t.mapOf (spaceOf fn) a = none) ∧
    (∀ p, p ≠ spaceOf fn → (t.part p).maps = (m.part p).maps) ∧
    (∀ a r acc, a < va ∨ va + len ≤ a → a < 2 ^ 52 → m.mapOf (spaceOf fn) a = some r → r.target ≠ 2 →
      t.translate (spaceOf fn) acc a = m.translate (spaceOf fn) acc a) ∧
    t.mem = { m.mem with raTodo := t.mem.raTodo, shoots := t.mem.shoots } ∧
    ∃ waits, t.mem.shoots = m.mem.shoots ++
        [{ id := m.nextId, space := spaceOf fn, va := va, len := len, kind := kind, waits := waits,
           fetches := m.fetchesOf (spaceOf fn) (inRanges (m.hbmRanges (spaceOf fn) va len)) }] ∧
      ∀ o ∈ m.ops, o.part = spaceOf fn → o.space ≠ .localMem → (∃ l ∈ o.lanes, l.done = false ∧ va ≤ l.addr ∧ l.addr < va + len) → o.id ∈ waits

end Sys2Proof.Claims

/-- O41: MEM.MAP, MEM.UNMAP, MEM.PROTECT and MEM.FLUSH: answers, mappings and shoot-downs begun (R220, R221, R224, Table 13.4). -/
def Obligations.PagesMapped : Prop :=
  ∀ (fn : Fn) (ch : Nat) (s : State) (c : Cmd) (m1 : Mach),
    let space := spaceOf fn
    (Sent 0x0301 fn ch c s.m m1 → Framed 28 0 [(0, 8), (8, 8), (16, 8), (24, 4)] c →
      let r := newRange c
      let pages := m1.allotPages space r.tgt r.len
      (∀ off, m1.mapInvalid space r.va r.tgt r.len (c.f 24 4) = some off →
        Does (.memMap fn ch) s (fun t => Answered fn ch c 3 off [] m1 t ∧ OnlyChans m1 t)) ∧
      (m1.mapInvalid space r.va r.tgt r.len (c.f 24 4) = none →
        (r.target ≠ 0 → 4096 ≤ tableRanges (m1.part space).maps →
          Does (.memMap fn ch) s (fun t => Answered fn ch c 5 6 [] m1 t ∧ OnlyChans m1 t)) ∧
        (r.target ≠ 0 → tableRanges (m1.part space).maps < 4096 →
          Does (.memMap fn ch) s (fun t => Answered fn ch c 0 0 [] m1 t ∧ OnlyChans { m1 with parts := t.parts } t ∧
            OnlyPartOf space (fun q => { q with maps := q.maps ++ [r] }) m1 t ∧ ∀ i, i < r.len → t.mapOf space (r.va + i) = some r)) ∧
        (r.target = 0 → (∃ g ∈ pages, (m1.unit (g / 16384)).scrub = true) →
          Does (.memMap fn ch) s (fun t => Answered fn ch c 1 0 [] m1 t ∧ OnlyChans m1 t)) ∧
        ∀ m2, r.target = 0 → (∀ g ∈ pages, (m1.unit (g / 16384)).scrub = false) →
          m1.recallPages (pages.filter (fun g => tget false m1.mem.pageOrd g != r.ownerOrd)) = .done () m2 →
          Does (.memMap fn ch) s (fun t => Answered fn ch c 0 0 [] m2 t ∧ OnlyChans { m2 with parts := t.parts, mem := t.mem } t ∧
            t.mem = { m2.mem with pageOrd := t.mem.pageOrd } ∧ (∀ g, tget false t.mem.pageOrd g = if g ∈ pages then r.ownerOrd else tget false m2.mem.pageOrd g) ∧
            OnlyPartOf space (fun q => { q with maps := q.maps ++ [r] }) m2 t))) ∧
    (Sent 0x0302 fn ch c s.m m1 → Framed 16 0 [(0, 8), (8, 8)] c →
      (∀ off, m1.rangeInvalid space (c.f 0 8) (c.f 8 8) = some off →
        Does (.memUnmap fn ch) s (fun t => Answered fn ch c 3 off [] m1 t ∧ OnlyChans m1 t)) ∧
      (m1.rangeInvalid space (c.f 0 8) (c.f 8 8) = none → tableRanges (editMaps (m1.part space).maps (c.f 0 8) (c.f 8 8) (fun _ => none)) ≤ 4096 →
        Does (.memUnmap fn ch) s (ShootBegun fn ch c (c.f 0 8) (c.f 8 8) (.unmap fn ch) m1))) ∧
    (Sent 0x0303 fn ch c s.m m1 → Framed 20 0 [(0, 8), (8, 8), (16, 4)] c →
      (2 < c.f 16 4 → Does (.memProtect fn ch) s (fun t => Answered fn ch c 3 16 [] m1 t ∧ OnlyChans m1 t)) ∧
      (c.f 16 4 ≤ 2 → m1.rangeInvalid space (c.f 0 8) (c.f 8 8) = none →
        tableRanges (editMaps (m1.part space).maps (c.f 0 8) (c.f 8 8) some) ≤ 4096 →
        Does (.memProtect fn ch) s (ShootBegun fn ch c (c.f 0 8) (c.f 8 8) (.protect fn ch (c.f 16 4)) m1))) ∧
    (Sent 0x0304 fn ch c s.m m1 → Framed 16 0 [(0, 8), (8, 8)] c →
      (c.f 0 8 < 2 ^ 52 → c.f 0 8 + c.f 8 8 ≤ 2 ^ 52 → m1.mappedFor space .read (c.f 0 8) (c.f 8 8) = false →
        Does (.memFlush fn ch) s (fun t => Answered fn ch c 3 0 [] m1 t ∧ OnlyChans m1 t)) ∧
      ∀ m2, c.f 0 8 < 2 ^ 52 → c.f 0 8 + c.f 8 8 ≤ 2 ^ 52 → m1.mappedFor space .read (c.f 0 8) (c.f 8 8) = true →
        m1.vflush space (c.f 0 8) (c.f 8 8) .read = .ok m2 → Does (.memFlush fn ch) s (fun t => Answered fn ch c 0 0 [] m2 t ∧ OnlyChans m2 t))

/-- O42: shoot-downs, MEM.HOSTPOOL, address translation services and unit scrubs (R223, R224, R302, R362, R381). Choices and readings of
the model: logs 16, 2. -/
def Obligations.PagesReleased : Prop :=
  (∀ (s : State) (x : Shoot), s.m.mem.shoots.find? (fun y => y.id == x.id) = some x → (∀ o ∈ s.m.ops, o.id ∈ x.waits → ∀ l ∈ o.lanes, l.done = true) →
    (∀ r ∈ s.m.mem.reqs, r.kind = .rds true → (r.rlc, r.line) ∉ x.fetches) →
    Does (.shootDown x.id) s (fun t =>
      (∀ a, x.va ≤ a → a < x.va + x.len → match x.kind with
        | .protect _ _ acc => (∃ r ∈ (s.m.part x.space).maps, r.va ≤ a ∧ a < r.va + r.len) → ∃ r, t.mapOf x.space a = some r ∧ r.access = acc
        | _ => t.mapOf x.space a = none) ∧
      (∀ p, p ≠ x.space → (t.part p).maps = (s.m.part p).maps) ∧ (∀ y ∈ t.mem.shoots, y.id ≠ x.id) ∧
      (0 < x.space → x.space < 65 → ∀ i ∈ s.m.coresOf x.space, (t.core i).l1 = []) ∧
      (∀ key c, s.m.waiting (fun d => d == .shoot x.id) = [(key, c)] →
        (t.chan key).held = (s.m.chan key).held ++ [reply c 0 0 []] ∧ (t.chan key).cur = none ∧ ∀ k, k ≠ key → t.chan k = s.m.chan k))) ∧
  (∀ (s : State) (x : Shoot), s.m.mem.shoots.find? (fun y => y.id == x.id) = some x →
    (∃ o ∈ s.m.ops, o.id ∈ x.waits ∧ ∃ l ∈ o.lanes, l.done = false) ∨ (∃ r ∈ s.m.mem.reqs, r.kind = .rds true ∧ (r.rlc, r.line) ∈ x.fetches) →
    Does (.shootDown x.id) s (fun t => t = s.m)) ∧
  (∀ (ch : Nat) (s : State) (c : Cmd) (m1 : Mach), Sent 0x0305 (.pf 0) ch c s.m m1 → Framed 2 0 [(0, 2)] c →
    let want := c.f 0 2
    (m1.poolUnits = [] → want ≤ m1.freeUnits.length →
      Does (.memHostpool (.pf 0) ch) s (fun t => Answered (.pf 0) ch c 0 0 [] m1 t ∧
        t = { m1 with mem := { m1.mem with units := t.mem.units },
                      host := { m1.host with chans := t.host.chans, pool := want }, moon := { m1.moon with wdog := t.moon.wdog } } ∧
        ∀ u, t.unit u = if u ∈ m1.freeUnits.take want then ⟨.hostPool, false, false⟩ else m1.unit u)) ∧
    (m1.poolUnits.length + m1.freeUnits.length < want →
      Does (.memHostpool (.pf 0) ch) s (fun t => Answered (.pf 0) ch c 5 2 [] m1 t ∧ OnlyChans m1 t)) ∧
    (want < m1.poolUnits.length → m1.host.hdm0.covers (want * 2 ^ 30) || m1.host.hdm1.covers (want * 2 ^ 30) →
      Does (.memHostpool (.pf 0) ch) s (fun t => Answered (.pf 0) ch c 1 0 [] m1 t ∧ OnlyChans m1 t)) ∧
    (want < m1.poolUnits.length → m1.host.hdm0.covers (want * 2 ^ 30) = false → m1.host.hdm1.covers (want * 2 ^ 30) = false →
      Does (.memHostpool (.pf 0) ch) s (fun t => Answered (.pf 0) ch c 0 0 [] m1 t ∧
        t = { m1 with mem := { m1.mem with units := t.mem.units },
                      host := { m1.host with chans := t.host.chans, pool := want }, moon := { m1.moon with wdog := t.moon.wdog } } ∧
        ∀ u, t.unit u = if u ∈ m1.poolUnits.drop want then ⟨.free, true, false⟩ else m1.unit u))) ∧
  (∀ (fn : Fn) (page : Nat) (s : State), fnOk fn = true →
    let space := spaceOf fn
    let key := atcKey (s.m.atcDie space) space page
    (∀ answer : Option Nat, (space, page) ∈ s.m.mem.atsWait →
      Does (.atsTranslationComplete fn page answer) s (fun t => t = { s.m with mem := { s.m.mem with atc := t.mem.atc, atsWait := t.mem.atsWait } } ∧
        (space, page) ∉ t.mem.atsWait ∧ tfind t.mem.atc key = some (match answer with | some v => v + 1 | none => 0))) ∧
    (s.m.mem.atsInv = [] → (∀ l p, fn = .vf l p → (s.m.part p).link = l) →
      (∀ o ∈ s.m.ops, o.part = space → ∀ l ∈ o.lanes, l.done = false → ∀ ha, l.tgt = .host ha → tfind s.m.mem.atc key ≠ some (ha / 65536 + 1)) →
      Does (.atsInvalidation fn page) s (fun t => t = { s.m with out := .atsInvDone (fnKey fn) page :: s.m.out, mem := { s.m.mem with atc := t.mem.atc } } ∧
        ∀ k, tfind t.mem.atc k = if k = key then none else tfind s.m.mem.atc k)) ∧
    (∀ o l ha, s.m.mem.atsInv = [] → o ∈ s.m.ops → o.part = space → l ∈ o.lanes → l.done = false → l.tgt = .host ha →
      tfind s.m.mem.atc key = some (ha / 65536 + 1) →
      Does (.atsInvalidation fn page) s (fun t =>
        t = { s.m with mem := { s.m.mem with atc := t.mem.atc, atsInv := [(space, page, ha / 65536 + 1)] } } ∧
        ∀ k, tfind t.mem.atc k = if k = key then none else tfind s.m.mem.atc k)) ∧
    (32 ≤ s.m.mem.atsInv.countP (fun e => e.1 == space) → Does (.atsInvalidation fn page) s (fun t => t = s.m))) ∧
  (∀ (unit : Nat) (s : State), unit < 288 → s.m.up = true → s.m.scrubUnit = some unit → s.m.mem.txns = [] → s.m.mem.msgs = [] →
    s.m.mem.homeQ = [] →
    (∀ l, l / 2 ^ 24 = unit → s.m.hostHolds l = false) →
    let x := s.m.unit unit
    Does (.unitScrubComplete unit) s (fun t =>
      (∀ a, tget 0 t.mem.hbm a = if a / 2 ^ 30 = unit then 0 else tget 0 s.m.mem.hbm a) ∧
      (∀ l, tget false t.mem.hbmPoison l = if l / 2 ^ 24 = unit then false else tget false s.m.mem.hbmPoison l) ∧
      (∀ l, l / 2 ^ 24 = unit → tfind t.mem.llc l = none ∧ t.dirOf l = none ∧ ∀ h, h < 8 → t.rlcLine h l = none) ∧
      (∀ u, u ≠ unit → t.unit u = s.m.unit u) ∧ (x.use ≠ .free → t.unit unit = { x with scrub := false }) ∧
      (x.use = .free → x.failed = true → t.unit unit = ⟨.retired, false, false⟩) ∧
      (x.use = .free → x.failed = false → (∀ g ∈ s.m.mem.retired, g / 16384 ≠ unit) → (∀ g ∈ s.m.mem.retireWhenFree, g / 16384 ≠ unit) →
        t.unit unit = ⟨.free, false, false⟩))) ∧
  ∀ (unit : Nat) (s : State), unit < 288 → s.m.up = true → (s.m.unit unit).scrub = true → s.m.moon.restart = 0 →
    let x := s.m.unit unit
    Does (.scrubWriteFail unit) s (fun t => t.mem = { s.m.mem with units := t.mem.units } ∧ Logged 0x26 2 t ∧
      ((∀ p, x.use ≠ .part p) → t = { s.m with mem := t.mem, ras := t.ras }) ∧
      t.ras.unitsRetired = (if s.m.ras.unitsRetired + 1 < 65535 then s.m.ras.unitsRetired + 1 else 65535) ∧
      ∀ u, t.unit u = if u = unit then (if x.use = .free then ⟨.retired, false, false⟩ else { x with scrub := false, failed := true }) else s.m.unit u)

namespace Sys2Proof.Claims

/-- Offsets of a physical function's BAR0 at which no bit can be written. -/
def readOnlyPf (off : Nat) : Prop :=
  off < 0x10000 ∨ (0x20000 ≤ off ∧ off < 0x20200) ∨ (0x20208 ≤ off ∧ off < 0x24000) ∨ (0x24200 ≤ off ∧ off < 0x40200) ∨
    (0x40208 ≤ off ∧ off < 0x60010) ∨ (0x60020 ≤ off ∧ off < 0x60100) ∨ (0x60108 ≤ off ∧ off < 0x80200) ∨ (0x80240 ≤ off ∧ off < 0x3FF0000) ∨ 0x3FF8000 ≤ off

/-- Only function `key`'s configuration, by `f`, and what is sent out change. -/
def OnlyFn (key : Nat) (f : FnState → FnState) (sent : List Output) (m t : Mach) : Prop :=
  t = { m with host := { m.host with fns := t.host.fns }, out := sent ++ m.out } ∧ ∀ k, t.fnSt k = if k = key then f (m.fnSt k) else m.fnSt k

/-- Function `key` logs an error in its AER, with the severity that its registers select (R308), and `sent` goes out after that. -/
def OnlyAer (key code : Nat) (sent : List Output) (m t : Mach) : Prop :=
  OnlyFn key (fun f => { f with aer := f.aer ||| (1#4 <<< (code - 1)), aerAdvisory := f.aerAdvisory || code == 1 })
    (sent ++ [.aer key code (code != 1 && (m.fnSt key).aerSev.getLsbD (code - 1))]) m t

/-- Nothing but what is sent out changes. -/
def OnlyOut (sent : List Output) (m t : Mach) : Prop := t = { m with out := sent ++ m.out }

end Sys2Proof.Claims

/-- O43: writes to BAR0 registers, W1C clears, MSI-X tables, and the injection register (R10, R299, R300, R548, R577 to R581). Choices and
readings of the model: logs 94, 95, 2. -/
def Obligations.RegisterAccesses : Prop :=
  (∀ (fn : Fn) (off size : Nat) (v : DWord) (s : State), fnOk fn = true → s.m.barGate fn = .open_ →
    ((size ≠ 4 ∧ size ≠ 8) ∨ off % 4 ≠ 0 ∨ inBlock fn off = false →
      (s.m.behind fn = false → Does (.registerWrite fn off size v) s (OnlyAer (fnKey fn) 0 [] s.m)) ∧
      Does (.bar0UnsupportedAccess fn off size true) s (OnlyAer (fnKey fn) 0 [] s.m)) ∧
    (inBlock fn off = false → Does (.bar0UnsupportedAccess fn off size false) s (OnlyAer (fnKey fn) 0 [.ur (fnKey fn)] s.m)) ∧
    (inBlock fn off = true → 0 < size → off + size ≤ 0x10000 ∨ 0x18000 ≤ off →
      Does (.bar0UnsupportedAccess fn off size false) s (fun t => ∃ b, OnlyOut [.readData (fnKey fn) b] s.m t ∧
        b.length = 4 * ((off + size + 3) / 4 - off / 4) ∧
        ∀ i, i < b.length / 4 → fieldAt b (4 * i) 4 = s.m.readReg fn (off / 4 * 4 + 4 * i) / 2 ^ (8 * ((off / 4 * 4 + 4 * i) % 8)) % 2 ^ 32)) ∧
    (s.m.behind fn = true → Does (.registerWrite fn off size v) s (Queued fn off size v s.m)) ∧
    (∀ l, fn = .pf l → inBlock fn off = true → readOnlyPf off → (size = 4 ∧ off % 4 = 0) ∨ (size = 8 ∧ off % 8 = 0) → s.m.behind fn = false →
      Does (.registerWrite fn off size v) s (fun t => t = s.m))) ∧
  (∀ (fn : Fn) (off size : Nat) (s : State), fnOk fn = true → s.m.barGate fn = .ur →
    (inBlock fn off = true → Does (.bar0UnsupportedAccess fn off size false) s (OnlyOut [.ur (fnKey fn)] s.m) ∧
      Does (.bar0UnsupportedAccess fn off size true) s (fun t => t = s.m)) ∧
    (inBlock fn off = false → Does (.bar0UnsupportedAccess fn off size false) s (OnlyAer (fnKey fn) 0 [.ur (fnKey fn)] s.m) ∧
      Does (.bar0UnsupportedAccess fn off size true) s (OnlyAer (fnKey fn) 0 [] s.m))) ∧
  (∀ (l i w : Nat) (v : DWord) (s : State), l < 4 → s.m.barGate (.pf l) = .open_ → s.m.behind (.pf l) = false → i < 64 → w < 4 → (s.m.fnSt l).pba = [] →
    (s.m.fnSt l).tdisp ≠ .locked → (s.m.fnSt l).tdisp ≠ .run →
    Does (.registerWrite (.pf l) (0x3FF0000 + 16 * i + 4 * w) 4 v) s (fun t => t = { s.m with host := { s.m.host with fns := t.host.fns } } ∧
      (∀ k, t.fnSt k = if k = l then { s.m.fnSt k with table := (t.fnSt k).table } else s.m.fnSt k) ∧
      ∀ j u, u < 4 → msixWord (tget msixNone (t.fnSt l).table j) u =
        if j = i ∧ u = w then (if w = 3 then v.toNat % 2 else v.toNat % 2 ^ 32) else msixWord (tget msixNone (s.m.fnSt l).table j) u)) ∧
  (∀ (l p : Nat) (v : DWord) (s : State), fnOk (.vf l p) = true → s.m.barGate (.vf l p) = .open_ → s.m.behind (.vf l p) = false →
    (∀ (hi : Bool), Does (.registerWrite (.vf l p) (if hi then 0x3010C else 0x30108) 4 v) s (fun t => t = { s.m with parts := t.parts } ∧
      OnlyPart p (fun q => { q with thrVal := if hi then BitVec.ofNat 64 (v.toNat % 2 ^ 32 * 2 ^ 32 + q.thrVal.toNat % 2 ^ 32)
                                              else BitVec.ofNat 64 (q.thrVal.toNat / 2 ^ 32 * 2 ^ 32 + v.toNat % 2 ^ 32) }) s.m t)) ∧
    Does (.registerWrite (.vf l p) 0x30108 8 v) s (fun t => t = { s.m with parts := t.parts } ∧ OnlyPart p (fun q => { q with thrVal := v }) s.m t) ∧
    Does (.w1cClear (.vf l p) 0x40000 v) s (fun t => t = { s.m with parts := t.parts } ∧
      OnlyPart p (fun q => { q with irqCause := q.irqCause &&& ~~~(v.truncate 5) }) s.m t) ∧
    Does (.w1cClear (.vf l p) 0x20020 v) s (fun t => t = { s.m with parts := t.parts } ∧
      OnlyPart p (fun q => { q with sb := { q.sb with qdErr := q.sb.qdErr && !v.getLsbD 0 } }) s.m t)) ∧
  (∀ (p : Nat) (v : DWord) (s : State), 1 ≤ p → p ≤ 64 → s.m.barGate (.vf (s.m.part p).link p) = .open_ →
    s.m.behind (.vf (s.m.part p).link p) = false →
    Does (.acctThreshCtlWrite p v) s (fun t => t = { s.m with parts := t.parts } ∧
      OnlyPart p (fun q => { q with thrSel := v.truncate 4, thrArmed := q.thrArmed || v.getLsbD 8 }) s.m t)) ∧
  ∀ (v : DWord) (s : State), s.m.barGate (.pf 0) = .open_ → s.m.behind (.pf 0) = false →
    (∀ h, h < 8 → Does (.w1cClear (.pf 0) (0x80200 + 8 * h) v) s (fun t => t = { s.m with clk := { s.m.clk with lcLate := t.clk.lcLate } } ∧
      ∀ k, tget 0 t.clk.lcLate k = if k = h then (BitVec.ofNat 64 (tget 0 s.m.clk.lcLate k) &&& ~~~v).toNat else tget 0 s.m.clk.lcLate k)) ∧
    Does (.w1cClear (.pf 0) 0x20200 v) s (fun t => t = { s.m with host := { s.m.host with resetDone := s.m.host.resetDone &&& ~~~v } }) ∧
    (∀ p, 1 ≤ p → p ≤ 64 → Does (.partLinkWrite p v) s (fun t => t = { s.m with parts := t.parts } ∧
      OnlyPart p (fun q => { q with domain := v.truncate 20, ingress := v.getLsbD 20 }) s.m t)) ∧
    Does (.pwrOpMaxWrite v) s (fun t => t = { s.m with power := { s.m.power with opMax := t.power.opMax } } ∧
      ∀ h, tget 7 t.power.opMax h = if h < 8 then v.toNat / 2 ^ (4 * h) % 8 else tget 7 s.m.power.opMax h) ∧
    Does (.rasAlertMaskWrite v) s (fun t => t = { s.m with ras := { s.m.ras with mask := v.truncate 5 } }) ∧
    Does (.rasAlertPendClear v) s (fun t => t = { s.m with ras := { s.m.ras with pend := s.m.ras.pend &&& ~~~(v.truncate 5) } }) ∧
    (s.m.sec.level ≠ .invasive → Does (.rasInjectGo v) s (fun t => t = s.m)) ∧
    let line := v.toNat / 64 % 2 ^ 42
    let kind := v.toNat / 2 ^ 48 % 4
    (s.m.sec.level = .invasive → line < hbmLines →
      (kind = 1 ∨ kind = 2 → Does (.rasInjectGo v) s (fun t => t = { s.m with mem := { s.m.mem with hbmErr := t.mem.hbmErr }, ras :=
          { s.m.ras with injLine := BitVec.ofNat 42 line, injKind := BitVec.ofNat 2 kind, injGo := false } } ∧
        ∀ l, tget 0 t.mem.hbmErr l = if l = line then kind else tget 0 s.m.mem.hbmErr l)) ∧
      (kind = 3 → Does (.rasInjectGo v) s (fun t => t = { s.m with mem := { s.m.mem with injectWrite := line + 1 }, ras :=
          { s.m.ras with injLine := BitVec.ofNat 42 line, injKind := 3, injGo := true } })))

namespace Sys2Proof.Claims

/-- Only upstream link `l`, by `f`, and what is sent out change. -/
def OnlyHLink (l : Nat) (f : HLink → HLink) (sent : List Output) (m t : Mach) : Prop :=
  t = { m with host := { m.host with links := t.host.links }, out := sent ++ m.out } ∧ ∀ k, t.hlink k = if k = l then f (m.hlink k) else m.hlink k

/-- Account `i` of partition `p` has risen by `n`; a physical function has no accounts. -/
def Charged (p i n : Nat) (m t : Mach) : Prop := tget 0 (t.part p).acct i = tget 0 (m.part p).acct i + (if p = 0 then 0 else n)

/-- A configuration request reaches a function (R312, R315). -/
def CfgReached (fn : Fn) (m : Mach) : Prop :=
  fnOk fn = true ∧ m.linkExists (fnLink fn) = true ∧ (m.hlink (fnLink fn)).up = true ∧ (m.hlink (fnLink fn)).cfgReady = true ∧ m.present fn = true

/-- What a hot reset of upstream link `l` leaves (R314, R569), the device not in D3hot. -/
def LinkReset (l : Nat) (m t : Mach) : Prop :=
  (∀ k, t.hlink k = if k = l then { m.hlink k with up := false, downAt := 0, cxl := false, vfEnable := false, numVfs := 0, session := false, spdm := false,
                                                   doe := 0, ide := [], cxlIde := .off, power := .l0 } else m.hlink k) ∧
  (∀ e ∈ t.host.posted, fnLink e.fn ≠ l) ∧
  t.fnSt l = (m.fnSt l).configReset ∧ (∀ c, c < 8 → t.chan (8 * l + c) = Chan.reset) ∧
  (∀ p, 1 ≤ p → p ≤ 64 → (t.part p).st = if (m.part p).link = l ∧ (m.part p).st ≠ .absent then .resetting else (m.part p).st) ∧
  (l = 0 → t.host.hdm0.committed = false ∧ t.host.hdm1.committed = false ∧ ∀ k, 2 ^ 46 ≤ k → tfind t.mem.llc k = none)

end Sys2Proof.Claims

/-- O44: BAR2 reads and writes, configuration requests, resizing, VF enabling and HDM decoders (R297 to R303, R315, R316). Choices and
readings of the model: logs 96, 97, 98. -/
def Obligations.HostTraffic : Prop :=
  (∀ (fn : Fn) (off n : Nat) (s : State), fnOk fn = true → n ≠ 0 → off + n ≤ (s.m.fnSt (fnKey fn)).bar2 * 2 ^ 30 →
    s.m.host.posted = [] →
    let key := fnKey fn
    let p := spacePart (spaceOf fn)
    (s.m.barGate fn = .ur ∨ s.m.barGate fn = .zero →
      (∀ bad, Does (.bar2Read fn off n bad) s (OnlyOut [.ur key] s.m)) ∧ Does (.bar2ReadNoSnoop fn off n) s (OnlyOut [.ur key] s.m)) ∧
    (s.m.barGate fn = .open_ → s.m.barPieces (spaceOf fn) off n .read = none →
      (∀ bad, Does (.bar2Read fn off n bad) s (OnlyAer key 0 [.ur key] s.m)) ∧
      Does (.bar2ReadNoSnoop fn off n) s (OnlyAer key 0 [.ur key] s.m)) ∧
    (∀ l m1 bad, s.m.barGate fn = .open_ → s.m.barPieces (spaceOf fn) off n .read = some l → readPieces false p l s.m = .waits m1 →
      Does (.bar2Read fn off n bad) s (fun t => t = { m1 with host := { m1.host with posted := [⟨fn, .read2 off n false bad⟩] } })) ∧
    ∀ l b m1, s.m.barGate fn = .open_ → s.m.barPieces (spaceOf fn) off n .read = some l →
      (readPieces false p l s.m = .done (b, false) m1 → Does (.bar2Read fn off n false) s (fun t =>
        t = { m1 with parts := t.parts, out := .readData key b :: m1.out } ∧ Charged p 6 n m1 t)) ∧
      (readPieces false p l s.m = .done (b, false) m1 → Does (.bar2Read fn off n true) s (fun t =>
        t.mem = m1.mem ∧ t.out.head? = some (.readPoisoned key b) ∧ .aer key 2 ((m1.fnSt key).aerSev.getLsbD 1) ∈ t.out)) ∧
      (∀ bad, readPieces false p l s.m = .done (b, true) m1 → Does (.bar2Read fn off n bad) s (fun t =>
        OnlyAer key 2 [.readPoisoned key b] m1 { t with parts := m1.parts })) ∧
      ∀ po, readPieces (!s.m.hostCached (fnLink fn)) p l s.m = .done (b, po) m1 → Does (.bar2ReadNoSnoop fn off n) s (fun t =>
        t.mem = m1.mem ∧ t.out.head? = some (if po then .readPoisoned key b else .readData key b))) ∧
  (∀ (fn : Fn) (off : Nat) (d : List Byte) (s : State), fnOk fn = true → d ≠ [] → off + d.length ≤ (s.m.fnSt (fnKey fn)).bar2 * 2 ^ 30 →
    s.m.host.posted = [] →
    let p := spacePart (spaceOf fn)
    (s.m.barGate fn ≠ .open_ → Does (.bar2Write fn off d) s (fun t => t = s.m)) ∧
    (s.m.barGate fn = .open_ → s.m.barPieces (spaceOf fn) off d.length .write = none → Does (.bar2Write fn off d) s (OnlyAer (fnKey fn) 0 [] s.m)) ∧
    (∀ l m1, s.m.barGate fn = .open_ → s.m.barPieces (spaceOf fn) off d.length .write = some l → l.findSome? (fun x => s.m.putWaits none x.1 x.2.1) = some m1 →
      Does (.bar2Write fn off d) s (fun t => t = { m1 with host := { m1.host with posted := [⟨fn, .write2 off d⟩] } })) ∧
    ∀ l m1, s.m.barGate fn = .open_ → s.m.barPieces (spaceOf fn) off d.length .write = some l →
      (∀ x ∈ l, s.m.putWaits none x.1 x.2.1 = none) → writePieces p d l s.m = .done () m1 →
      Does (.bar2Write fn off d) s (fun t => t = { m1 with parts := t.parts } ∧ Charged p 7 d.length m1 t)) ∧
  (∀ (fn : Fn) (s : State), fnOk fn = true → s.m.linkExists (fnLink fn) = true → (s.m.hlink (fnLink fn)).up = true →
    ∀ req, ((s.m.hlink (fnLink fn)).cfgReady = false → Does (.configRequest fn req) s (OnlyOut [.retry (fnLink fn)] s.m)) ∧
      ((s.m.hlink (fnLink fn)).cfgReady = true → s.m.present fn = false → Does (.configRequest fn req) s (OnlyOut [.ur (fnKey fn)] s.m))) ∧
  (∀ (fn : Fn) (on : Bool) (s : State), CfgReached fn s.m →
    let key := fnKey fn
    (∀ v, Does (.configRequest fn (.aerSeverity v)) s (OnlyFn key (fun f => { f with aerSev := v }) [.config key 0] s.m) ∧
      Does (.configRequest fn (.clearAer v)) s (OnlyFn key (fun f => { f with aer := f.aer &&& ~~~v, aerAdvisory := f.aerAdvisory && !v.getLsbD 0 }) [.config key 0] s.m)) ∧
    Does (.configRequest fn .readReadiness) s (OnlyOut [.config key 600] s.m) ∧
    ((s.m.fnSt key).tdisp ≠ .locked → (s.m.fnSt key).tdisp ≠ .run →
      Does (.configRequest fn (.atsEnable on)) s (OnlyFn key (fun f => { f with atsEn := on }) [.config key 0] s.m)) ∧
    (fn = .pf 0 → Does (.configRequest fn .readCxlRange) s (OnlyOut [.config key (s.m.host.pool * 2 ^ 30)] s.m)) ∧
    (∀ l, fn = .pf l → Does (.configRequest fn .readVfs) s (OnlyOut [.config key (64 + 2 ^ 16 * (s.m.hlink l).numVfs + 2 ^ 32 + 2 ^ 48)] s.m)) ∧
    ((s.m.fnSt key).pba = [] →
      Does (.configRequest fn (.memorySpace on)) s (OnlyFn key (fun f => { f with mse := on, bar2 := if on then f.bar2 else f.bar2New }) [.config key 0] s.m) ∧
      Does (.configRequest fn (.msixEnable on)) s (OnlyFn key (fun f => { f with msixEn := on }) [.config key 0] s.m) ∧
      Does (.configRequest fn (.msixFunctionMask on)) s (OnlyFn key (fun f => { f with msixMask := on }) [.config key 0] s.m) ∧
      (fn ≠ .pf 0 → Does (.configRequest fn (.powerState on)) s (OnlyFn key (fun f => { f with d3hot := on }) [.config key 0] s.m))) ∧
    ∀ v e, (s.m.fnSt key).pba = [(v, true)] → (s.m.fnSt key).msixMask = false → (s.m.fnSt key).d3hot = false →
      e = tget msixNone (s.m.fnSt key).table v → e.masked = false →
      (key < 4 ∨ (s.m.fnSt key).mse = true →
        Does (.configRequest fn (.msixEnable true)) s (OnlyFn key (fun f => { f with msixEn := true, pba := [] }) [.config key 0, .msix key v e.addr e.data] s.m)) ∧
      ((s.m.fnSt key).msixEn = true → Does (.configRequest fn (.memorySpace true)) s
        (OnlyFn key (fun f => { f with mse := true, pba := [] }) [.config key 0, .msix key v e.addr e.data] s.m))) ∧
  (∀ (fn : Fn) (size : Nat) (s : State), CfgReached fn s.m → isPow2 size = true → size ≤ (match fn with | .pf _ => 512 | .vf _ _ => 256) →
    Does (.bar2Resize fn size) s (OnlyFn (fnKey fn) (fun f => if f.tdisp = .locked ∨ f.tdisp = .run then { f with tdisp := .error }
      else { f with bar2 := if f.mse then f.bar2 else size, bar2New := size }) [] s.m)) ∧
  (∀ (link num : Nat) (on : Bool) (s : State), link < 4 → CfgReached (.pf link) s.m → num ≤ 64 →
    Does (.vfEnableChange link on num) s (fun t => t = { s.m with host := { s.m.host with links := t.host.links, fns := t.host.fns }, out := t.out } ∧
      (∀ k, t.hlink k = if k = link then { s.m.hlink k with vfEnable := on, numVfs := num } else s.m.hlink k) ∧
      (∀ p, 1 ≤ p → p ≤ 64 → t.fnSt (4 + 64 * link + p) = if on = true ∧ p ≤ num then { s.m.fnSt (4 + 64 * link + p) with kept := false }
        else if s.m.bound link p = true ∧ s.m.present (.vf link p) = true then { s.m.fnSt (4 + 64 * link + p) with kept := true } else FnState.reset) ∧
      ((∃ p, 1 ≤ p ∧ p ≤ 64 ∧ s.m.bound link p = true ∧ s.m.present (.vf link p) = true ∧ ¬ (on = true ∧ p ≤ num)) →
        t.out = .aer link 0 ((s.m.fnSt link).aerSev.getLsbD 0) :: s.m.out) ∧
      ((∀ p, 1 ≤ p → p ≤ 64 → s.m.bound link p = false ∨ (on = true ∧ p ≤ num)) → t.out = s.m.out))) ∧
  ∀ (dec base size pool ways : Nat) (s : State), dec < 2 → CfgReached (.pf 0) s.m → (s.m.hlink 0).cxl = true → (s.m.host.hdm dec).committed = false →
    let o := s.m.host.hdm (1 - dec)
    let set := fun (d : HdmDecoder) => Does (.hdmDecoderCommit dec base size pool ways) s (fun t =>
      t = { s.m with host := { s.m.host with hdm0 := t.host.hdm0, hdm1 := t.host.hdm1 } } ∧ t.host.hdm dec = d ∧ t.host.hdm (1 - dec) = o)
    (ways = 1 → base % 2 ^ 28 = 0 → size % 2 ^ 28 = 0 → pool % 2 ^ 28 = 0 → size ≠ 0 → pool + size ≤ s.m.host.pool * 2 ^ 30 →
      (o.committed = true → (base + size ≤ o.base ∨ o.base + o.size ≤ base) ∧ (pool + size ≤ o.pool ∨ o.pool + o.size ≤ pool)) →
      set ⟨true, false, base, size, pool⟩) ∧
    (ways ≠ 1 ∨ base % 2 ^ 28 ≠ 0 ∨ size % 2 ^ 28 ≠ 0 ∨ pool % 2 ^ 28 ≠ 0 ∨ size = 0 ∨ s.m.host.pool * 2 ^ 30 < pool + size →
      set { s.m.host.hdm dec with error := true })

/-- O45: host links up and down, hot reset and grace, readiness, D3hot and D0 (R312 to R314, R317, R512, R514). Choices and readings of
the model: logs 98, 99, 112, 2. -/
def Obligations.HostLinkEvents : Prop :=
  (∀ (link rate width : Nat) (cxl : Bool) (s : State), link < 4 → s.m.linkExists link = true → (s.m.hlink link).up = false → (s.m.hlink link).perst = false →
    s.m.clk.locked = true → 300000 ≤ s.m.now → s.m.start.phase ≠ .held → trained link rate width = true →
    let ready := match s.m.start.phase with | .run n => decide (7 ≤ n) | .held => false | _ => true
    (cxl = false ∨ (link = 0 ∧ 64 ≤ rate) →
      Does (.hostLinkUp link rate width cxl) s (fun t => t = { s.m with host := { s.m.host with links := t.host.links, fns := t.host.fns }, out := t.out } ∧
        ∀ k, t.hlink k = if k = link then { s.m.hlink k with up := true, rate := rate, width := width, cxl := cxl, downAt := 0, power := .l0, cfgReady := (s.m.hlink k).cfgReady || ready, drs := (s.m.hlink k).drs || (ready && !(s.m.hlink k).cfgReady) } else s.m.hlink k)) ∧
    (cxl = true → link ≠ 0 ∨ rate < 64 → Does (.hostLinkUp link rate width cxl) s (fun t => t = s.m))) ∧
  (∀ (link : Nat) (s : State), link < 4 →
    ((s.m.hlink link).up = true → Does (.hostLinkDown link) s (fun t =>
      OnlyHLink link (fun h => { h with up := false, downAt := s.m.now + 1 }) [] s.m { t with start := s.m.start } ∧
      t.start = { s.m.start with phase := t.start.phase } ∧ (s.m.start.phase ≠ .run 6 → t.start.phase = s.m.start.phase) ∧
      (s.m.start.phase = .run 6 → (∀ i, i < 4 → i ≠ link → (s.m.hlink i).up = true → (s.m.hlink i).cfgReady = true) → t.start.phase = .run 7) ∧
      ((∃ i, i < 4 ∧ i ≠ link ∧ (s.m.hlink i).up = true ∧ (s.m.hlink i).cfgReady = false) → t.start.phase = s.m.start.phase))) ∧
    ((s.m.hlink link).up = true → s.m.start.d3hot = false → Does (.hostLinkHotReset link) s (LinkReset link s.m)) ∧
    ((s.m.hlink link).up = false → (s.m.hlink link).downAt ≠ 0 → (s.m.hlink link).downAt - 1 + 10000000 ≤ s.m.now → s.m.start.d3hot = false →
      Does (.hostLinkDownGraceExpiry link) s (LinkReset link s.m)) ∧
    ((s.m.hlink link).up = true ∨ s.m.now < (s.m.hlink link).downAt - 1 + 10000000 → Does (.hostLinkDownGraceExpiry link) s (fun t => t = s.m))) ∧
  (∀ (link : Nat) (s : State), link < 4 → s.m.linkExists link = true → (s.m.hlink link).up = true → (s.m.hlink link).cfgReady = false → s.m.cfgPhase = true →
    Does (.deviceReadinessStatus link) s (fun t => OnlyHLink link (fun h => { h with cfgReady := true, drs := true }) [.drs link] s.m { t with start := s.m.start } ∧
      t.start = { s.m.start with phase := t.start.phase } ∧
      (s.m.start.phase ≠ .run 6 → t.start.phase = s.m.start.phase) ∧
      (s.m.start.phase = .run 6 → (∀ i, i < 4 → i ≠ link → (s.m.hlink i).up = true → (s.m.hlink i).cfgReady = true) → t.start.phase = .run 7) ∧
      ((∃ i, i < 4 ∧ i ≠ link ∧ (s.m.hlink i).up = true ∧ (s.m.hlink i).cfgReady = false) → t.start.phase = s.m.start.phase))) ∧
  (∀ s : State, s.m.up = true → (s.m.hlink 0).up = true → s.m.start.d3hot = false → s.m.flrRuns = false →
    Does .d3hotEntry s (fun t => t.start = { s.m.start with d3hot := true, d3At := s.m.now } ∧ t.fnSt 0 = { s.m.fnSt 0 with d3hot := true } ∧
      t = { s.m with start := t.start, host := { s.m.host with fns := t.host.fns }, mem := { s.m.mem with raTodo := t.mem.raTodo, reqs := t.mem.reqs }, parts := t.parts } ∧
      ∀ p, if 1 ≤ p ∧ p ≤ 64 ∧ (s.m.part p).st = .running ∧ (s.m.part p).freezing = 0 ∧ s.m.hasHalted p = false then
          t.part p = { s.m.part p with freezing := s.m.now + 1, d3Froze := true, boundary := (t.part p).boundary, acct := (t.part p).acct } ∧
            (t.part p).boundary = if (s.m.part p).sb.running then (s.m.part p).boundary else s.m.now
        else t.part p = s.m.part p)) ∧
  (∀ (p : Nat) (s : State), 1 ≤ p → p ≤ 64 → s.m.start.d3hot = true → (s.m.part p).d3Froze = true → (s.m.part p).freezing ≠ 0 → (s.m.part p).st = .running →
    ((s.m.part p).freezing - 1 + 1000000000 ≤ s.m.now →
      Does (.d3hotFreezeTimeout p) s (fun t => (t.part p).st = .resetting ∧ (t.part p).flr = .quiesce s.m.now ∧ ∀ q, q ≠ p → t.part q = s.m.part q)) ∧
    (s.m.now < (s.m.part p).freezing - 1 + 1000000000 → Does (.d3hotFreezeTimeout p) s (fun t => t = s.m))) ∧
  ∀ s : State, s.m.up = true → (s.m.hlink 0).up = true → (s.m.fnSt 0).d3hot = true →
    Does .d0Entry s (fun t => t.start.d3hot = false ∧ t.start.warmOnD0 = false ∧ (t.fnSt 0).d3hot = false ∧
      (∀ p, 1 ≤ p → p ≤ 64 → (s.m.part p).st ≠ .absent → (s.m.part p).d3Froze = true →
        (t.part p).d3Froze = false ∧ (t.part p).freezing = 0 ∧ (t.part p).st = if (s.m.part p).st = .frozen then .running else (s.m.part p).st) ∧
      t.start.warmAt = if s.m.start.warmOnD0 = true ∧ s.m.start.warmAt = 0 ∧ s.m.pins.thermtrip = true then s.m.now + 1 else s.m.start.warmAt)

/-- O46: TDISP states, IDE streams, and the SPDM and DOE answers (R309 to R311, R496). Choices and readings of the model: logs 12, 2. -/
def Obligations.InterfaceSecurity : Prop :=
  (∀ (p : Nat) (s : State), 1 ≤ p → p ≤ 64 → (s.m.part p).st ≠ .absent →
    let key := s.m.vfKey p
    let f := s.m.fnSt key
    let link := (s.m.part p).link
    let set := fun (x : Tdisp) (t : Mach) => OnlyFn key (fun f => { f with tdisp := x }) [] s.m t
    (f.tdisp = .unlocked → (s.m.hlink link).session = true → Does (.tdispConfigLocked p) s (set .locked)) ∧
    ((s.m.hlink link).session = false ∨ f.tdisp ≠ .unlocked → Does (.tdispConfigLocked p) s (fun t => t = s.m)) ∧
    (∀ stream, f.tdisp = .locked → (s.m.hlink link).session = true → (tget ⟨0, false⟩ (s.m.hlink link).ide stream).secure = true →
      Does (.tdispRun p stream) s (OnlyFn key (fun f => { f with tdisp := .run, stream := stream + 1 }) [] s.m)) ∧
    (∀ stream, f.tdisp ≠ .locked ∨ (tget ⟨0, false⟩ (s.m.hlink link).ide stream).secure = false → Does (.tdispRun p stream) s (fun t => t = s.m)) ∧
    (f.tdisp = .locked ∨ f.tdisp = .run → Does (.tdispLockedConfigChange p) s (set .error)) ∧
    (f.tdisp ≠ .unlocked → Does (.tdispUnlock p) s (OnlyFn key (fun f => { f with tdisp := .unlocked, stream := 0 }) [] s.m)) ∧
    (f.tdisp = .error → s.m.barGate (.vf link p) ≠ .open_) ∧
    (f.tdisp = .run → f.via ≠ f.stream → s.m.barGate (.vf link p) ≠ .open_)) ∧
  (∀ (link stream : Nat) (s : State), streamOk link stream = true →
    (∀ k, (s.m.hlink link).up = true → (s.m.hlink link).session = true → (stream = 9 → (s.m.hlink link).cxl = true) →
      (stream = 0 → link ≠ 0 → ∀ i, 1 ≤ i → i ≤ 3 → i ≠ link → (tget ⟨0, false⟩ (s.m.hlink i).ide 0).secure = false) →
      Does (.ideKm link stream k) s (fun t => OnlyHLink link (fun h => { h with ide := (t.hlink link).ide }) [] s.m t ∧
        ∀ i, tget ⟨0, false⟩ (t.hlink link).ide i = if i = stream then ⟨k, true⟩ else tget ⟨0, false⟩ (s.m.hlink link).ide i)) ∧
    ((s.m.hlink link).session = false ∨ (stream = 9 ∧ (s.m.hlink link).cxl = false) ∨
        (stream = 0 ∧ ∃ i, 1 ≤ i ∧ i ≤ 3 ∧ link ≠ 0 ∧ i ≠ link ∧ (tget ⟨0, false⟩ (s.m.hlink i).ide 0).secure = true) → ∀ k, Does (.ideKm link stream k) s (fun t => t = s.m)) ∧
    ((tget ⟨0, false⟩ (s.m.hlink link).ide stream).secure = true →
      Does (.ideCheckFailed link stream) s (fun t =>
        OnlyHLink link (fun h => { h with ide := (t.hlink link).ide }) [.aer link 4 ((s.m.fnSt link).aerSev.getLsbD 3)] s.m
          { t with host := { t.host with fns := s.m.host.fns } } ∧
        (∀ k, t.fnSt k = { s.m.fnSt k with aer := if k = link then (s.m.fnSt k).aer ||| 8#4 else (s.m.fnSt k).aer }) ∧
        ∀ i, tget ⟨0, false⟩ (t.hlink link).ide i =
          if i = stream then { tget ⟨0, false⟩ (s.m.hlink link).ide i with secure := false } else tget ⟨0, false⟩ (s.m.hlink link).ide i))) ∧
  ∀ (link : Nat) (s : State), link < 4 → s.m.cfgOpen (.pf link) = true → s.m.moonServes = true →
    let blank := s.m.sec.life = .blank
    (∀ v, 0x13 ≤ v → Does (.getVersion link v) s (OnlyHLink link (fun h => { h with spdm := true }) [.spdm link spdmVersion [0x13]] s.m)) ∧
    (∀ v, v < 0x13 → Does (.getVersion link v) s (OnlyOut [.spdm link spdmError spdmMismatch] s.m)) ∧
    (blank → Does (.getCertificate link) s (OnlyOut [.spdm link spdmError spdmUnspecified] s.m) ∧
      Does (.getMeasurements link) s (OnlyOut [.spdm link spdmError spdmUnspecified] s.m) ∧
      Does (.spdmKeyExchange link) s (OnlyOut [.spdm link spdmError spdmUnspecified] s.m)) ∧
    (¬ blank → Does (.getCertificate link) s (OnlyOut [.spdm link spdmCert (Config.certificate 1)] s.m) ∧
      (∃ blocks, Does (.getMeasurements link) s (OnlyOut [.spdm link spdmMeas (blocks ++ Config.sign 96 blocks)] s.m) ∧ blocks.length = 392 ∧
        ∀ i, i < 8 → slice blocks (49 * i) 49 = leBytes 1 (i + 1) ++ hashBytes (tget 0 s.m.sec.meas (i + 1))) ∧
      ((s.m.hlink link).spdm = true → Does (.spdmKeyExchange link) s (fun t => ∃ b, OnlyHLink link (fun h => { h with session := true }) [.spdm link spdmKeyRsp b] s.m t)) ∧
      ((s.m.hlink link).spdm = false → Does (.spdmKeyExchange link) s (OnlyOut [.spdm link spdmError spdmUnspecified] s.m))) ∧
    (∀ e, (s.m.hlink link).doe < (if link = 0 then 4 else 3) → (doeProtocols link)[(s.m.hlink link).doe]? = some e →
      let next := if (s.m.hlink link).doe + 1 < (if link = 0 then 4 else 3) then (s.m.hlink link).doe + 1 else 0
      Does (.doeDiscovery link) s (OnlyHLink link (fun h => { h with doe := next }) [.doe link (leBytes 2 e.1 ++ leBytes 1 e.2 ++ leBytes 1 next)] s.m)) ∧
    (link = 0 → Does (.cdatRead link) s (fun t => ∃ b, OnlyOut [.doe link b] s.m t)) ∧ (link ≠ 0 → Does (.cdatRead link) s (fun t => t = s.m))

namespace Sys2Proof.Claims

/-- A number names a partition that exists and is not resetting (R345). -/
def Named (p : Nat) (m : Mach) : Prop := 1 ≤ p ∧ p ≤ 64 ∧ (m.part p).st ≠ .absent ∧ (m.part p).st ≠ .resetting

/-- A function-level reset of partition `p` has begun (R357). -/
def FlrBegun (p : Nat) (m t : Mach) : Prop :=
  (t.part p).st = .resetting ∧ (t.part p).flr = .quiesce m.now ∧ (t.part p).buckets = [] ∧ (t.part p).irqCause = 0 ∧ (t.part p).freezing = 0 ∧
    (t.fnSt (m.vfKey p)).pba = [] ∧ (∀ v, (tget msixNone (t.fnSt (m.vfKey p)).table v).masked = true) ∧ ∀ q, q ≠ p → t.part q = m.part q

/-- The waiting command that matches `d` alone is answered. -/
def WaitAnswered (d : Defer) (status : Nat) (result : List Byte) (m t : Mach) : Prop :=
  ∀ key c, m.waiting (fun x => x == d) = [(key, c)] →
    (t.chan key).held = (m.chan key).held ++ [reply c status 0 result] ∧ (t.chan key).cur = none ∧ ∀ k, k ≠ key → t.chan k = m.chan k

end Sys2Proof.Claims

/-- O47: PART.CREATE, PART.DESTROY and PART.QUERY (R348 to R352, Table 13.4). Choices and readings of the model: log 16. -/
def Obligations.PartitionsMade : Prop :=
  (∀ (ch : Nat) (s : State) (c : Cmd) (m1 : Mach), Sent 0x0201 (.pf 0) ch c s.m m1 →
    Framed 28 0 [(0, 1), (1, 1), (2, 2), (4, 2), (6, 2), (8, 8), (16, 2), (20, 2), (22, 2), (24, 2), (26, 2)] c →
    let r := createReq c
    let p := r.part
    let mask : DWord := BitVec.ofNat 64 r.mask
    let answer := fun st d => Does (.partCreate (.pf 0) ch) s (fun t => Answered (.pf 0) ch c st d [] m1 t ∧ OnlyChans m1 t)
    (∀ off, r.invalid = some off → answer 3 off) ∧
    (r.invalid = none → (m1.part p).st = .resetting → answer 1 0) ∧
    (r.invalid = none → (m1.part p).st ≠ .absent → (m1.part p).st ≠ .resetting → answer 3 0xFFFE) ∧
    (r.invalid = none → (m1.part p).st = .absent → m1.linkExists r.link = false → answer 3 0xFFFE) ∧
    (r.invalid = none → (m1.part p).st = .absent → m1.linkExists r.link = true →
      (∀ d, m1.lacks r = some d → answer 5 d) ∧ (m1.lacks r = none → m1.sec.trngOk = false → answer 9 0) ∧
      (m1.lacks r = none → m1.sec.trngOk = true → Does (.partCreate (.pf 0) ch) s (fun t => Answered (.pf 0) ch c 0 0 [] m1 t ∧
        t.part p = { Part.reset with
          st := .running, link := r.link, ways := BitVec.ofNat 16 r.ways, granules := r.granules, clusters := mask, msix := r.msix,
          shHbmRd := r.hbmRd, shHbmWr := r.hbmWr, shLink := r.shLink, shHost := r.shHost, gen := (m1.part p).gen + 1, keyed := true,
          keyId := m1.free, buckets := (t.part p).buckets } ∧
        (∀ q, q ≠ p → t.part q = m1.part q) ∧
        (∀ u, t.unit u = if u ∈ m1.freeUnits.take r.units then ⟨.part p, false, false⟩ else m1.unit u) ∧
        (∀ n, n < 64 → mask.getLsbD n = true →
          t.clu n = { m1.clu n with tlb := [], bank0 := 0, bank1 := 0, owner := p, idleSince := m1.now } ∧ ∀ l, l < 16 → t.core (16 * n + l) = (m1.core (16 * n + l)).quiesce) ∧
        (∀ n, n < 64 → mask.getLsbD n = false → t.clu n = m1.clu n ∧ ∀ l, l < 16 → t.core (16 * n + l) = m1.core (16 * n + l)) ∧
        (∀ i, i < 8 → t.chan (8 * (4 + 64 * r.link + p) + i) = Chan.reset) ∧ (t.fnSt (4 + 64 * r.link + p)).table = [])))) ∧
  (∀ (ch : Nat) (s : State) (c : Cmd) (m1 : Mach), Sent 0x0202 (.pf 0) ch c s.m m1 → Framed 1 0 [(0, 1)] c →
    let p := c.f 0 1
    let answer := fun st d => Does (.partDestroy (.pf 0) ch) s (fun t => Answered (.pf 0) ch c st d [] m1 t ∧ OnlyChans m1 t)
    (p = 0 ∨ 64 < p ∨ (m1.part p).st = .absent → answer 3 0) ∧
    (1 ≤ p → p ≤ 64 → (m1.part p).st = .resetting → answer 1 0) ∧
    (Named p m1 → m1.locked p = true → answer 4 0) ∧
    (Named p m1 → m1.locked p = false → Does (.partDestroy (.pf 0) ch) s (fun t =>
      FlrBegun p m1 t ∧ (t.part p).doomed = true ∧ (t.chan ch).cur = some (c, .destroy p)))) ∧
  ∀ (fn : Fn) (ch : Nat) (s : State) (c : Cmd) (m1 : Mach), Sent 0x0203 fn ch c s.m m1 → Framed 1 22 [(0, 1)] c →
    let p := match fn with | .vf _ p => p | .pf _ => c.f 0 1
    (p = 0 ∨ 64 < p → Does (.partQuery fn ch) s (fun t => Answered fn ch c 3 0 [] m1 t ∧ OnlyChans m1 t)) ∧
    (1 ≤ p → p ≤ 64 → Does (.partQuery fn ch) s (fun t => Answered fn ch c 0 0 (m1.partInfo p) m1 t ∧ OnlyChans m1 t))

/-- O48: the stages of a function-level reset: begun, quiet, complete, and its limits (R357 to R361, R520). Choices and readings of the
model: logs 79, 2. -/
def Obligations.FunctionLevelResets : Prop :=
  ∀ (p : Nat) (s : State), 1 ≤ p → p ≤ 64 →
    let q := s.m.part p
    (s.m.up = true → q.st ≠ .absent → q.st ≠ .resetting → Does (.initiateFunctionLevelReset p) s (FlrBegun p s.m)) ∧
    (s.m.up = true → q.st = .resetting → Does (.initiateFunctionLevelReset p) s (fun t => t = s.m)) ∧
    (∀ t0, q.flr = .quiesce t0 → t0 + 200000 ≤ s.m.now → Does (.flrQuiesceLimit p) s (fun t =>
      t = { s.m with groups := t.groups, blocks := t.blocks, cores := t.cores, krns := t.krns, free := t.free } ∧
      (∀ c, (s.m.core c).tq = [] → t.core c = s.m.core c) ∧ (∀ k, t.krn k = { s.m.krn k with leftTide := (t.krn k).leftTide }) ∧
      (∀ b, t.blk b = if (s.m.blk b).live = true ∧ s.m.krnPart (s.m.blk b).krn = p then Block.reset else s.m.blk b))) ∧
    (∀ t0, q.flr = .quiesce t0 → s.m.now < t0 + 200000 → Does (.flrQuiesceLimit p) s (fun t => t = s.m)) ∧
    (∀ t0, q.flr = .quiesce t0 → (∃ b, (s.m.blk b).live = true ∧ s.m.krnPart (s.m.blk b).krn = p) → Does (.flrClustersQuiet p) s (fun t => t = s.m)) ∧
    (∀ t0, q.flr = .quiesce t0 → s.m.blocksOfPart p = [] → s.m.moonServes = true → s.m.storesInFlight p = false →
      Does (.flrClustersQuiet p) s (fun t =>
        (∀ k, (t.krn k).live = true → (t.krn k).part ≠ p) ∧ (∀ o ∈ t.ops, o.part ≠ p) ∧
        (∀ i ∈ s.m.coresOf p, t.core i = (s.m.core i).quiesce) ∧ (∀ i, i < 8 → t.chan (8 * s.m.vfKey p + i) = Chan.reset) ∧
        (t.part p).maps = [] ∧ (t.part p).kgis = [] ∧ (t.part p).seqs = [] ∧ (t.part p).ends = [] ∧ (t.part p).st = q.st ∧
        (∀ r ∈ (t.part 65).maps, r.aperture ≠ p + 1) ∧
        (∀ u, (s.m.unit u).use = .part p → (s.m.unit u).failed = false → (t.unit u) = { s.m.unit u with scrub := true }) ∧
        (∀ u, (s.m.unit u).use ≠ .part p → t.unit u = s.m.unit u) ∧
        (t.part p).flr = .quiet t0 (!s.m.sec.trngOk) ∧ (t.part p).keyed = s.m.sec.trngOk)) ∧
    (∀ t0, q.flr = .quiet t0 true → Does (.flrComplete p) s (fun t => t = s.m)) ∧
    (∀ t0, q.flr = .quiet t0 false → s.m.moonServes = true →
      (q.doomed = false → Does (.flrComplete p) s (fun t =>
        t = { s.m with parts := t.parts, host := { s.m.host with resetDone := s.m.host.resetDone ||| (1#64 <<< (p - 1)), fns := t.host.fns }, out := t.out } ∧
        OnlyPart p (fun q => { q with st := .running, flr := .none, buckets := [] }) s.m t ∧
        ((s.m.hlink 0).up = true → (s.m.fnSt 0).msixEn = true → (s.m.fnSt 0).msixMask = false → (s.m.fnSt 0).d3hot = false →
          ∀ e, e = tget msixNone (s.m.fnSt 0).table 1 → e.masked = false → t.out = .msix 0 1 e.addr e.data :: s.m.out))) ∧
      (q.doomed = true → Does (.flrComplete p) s (fun t => t.part p = { Part.reset with gen := q.gen } ∧
        (∀ n ∈ s.m.clustersOf p, (t.clu n).owner = 0) ∧ (∀ u, (s.m.unit u).use = .part p → (s.m.unit u).scrub = true → t.unit u = { s.m.unit u with use := .free }) ∧
        WaitAnswered (.destroy p) 0 [] s.m t))) ∧
    ((∃ t0, (q.flr = .quiesce t0 ∨ q.flr = .quiet t0 false) ∧ s.m.flrLimit t0 < s.m.now) → Does (.flrTimeout p) s (FatalError 6 s.m)) ∧
    (∀ t0, q.flr = .quiesce t0 → s.m.now ≤ s.m.flrLimit t0 → Does (.flrTimeout p) s (fun t => t = s.m)) ∧
    (∀ t0, s.m.moon.restart = 0 → s.m.moon.ended = [] → s.m.flrLimit t0 = t0 + 10000000) ∧
    (∀ t0 a b, s.m.moon.restart = 0 → s.m.moon.ended = [(a, b)] → t0 < b → s.m.flrLimit t0 = t0 + 10000000 + Nat.min 50000000 (b - a)) ∧
    (∀ t0, s.m.moon.restart ≠ 0 → s.m.moon.ended = [] →
      s.m.flrLimit t0 = t0 + 10000000 + Nat.min 50000000 (s.m.now - (s.m.moon.restart - 1)))

/-- O49: freeze, save, restore, thaw, the write log and the apertures (R362 to R374, R381 to R383). Choices and readings of the model:
logs 17, 2. -/
def Obligations.Migration : Prop :=
  (∀ (ch : Nat) (s : State) (c : Cmd) (m1 : Mach) (p : Nat), p = c.f 0 1 → Named p m1 →
    let q := m1.part p
    let fn := Fn.pf 0
    (Sent 0x0204 fn ch c s.m m1 → Framed 1 8 [(0, 1)] c →
      (q.st = .frozen → Does (.partFreeze fn ch) s (fun t => Answered fn ch c 3 0 [] m1 t ∧ OnlyChans m1 t)) ∧
      (q.st = .running → q.freezing = 0 → Does (.partFreeze fn ch) s (fun t => (t.chan ch).cur = some (c, .freeze p) ∧
        t.part p = { q with freezing := m1.now + 1, d3Froze := false, boundary := if q.sb.running then q.boundary else m1.now, acct := (t.part p).acct } ∧
        ∀ o, o ≠ p → t.part o = m1.part o)) ∧
      (q.st = .running → q.freezing ≠ 0 → Does (.partFreeze fn ch) s (fun t => (t.chan ch).cur = some (c, .freeze p) ∧ t.part p = q))) ∧
    (Sent 0x0205 fn ch c s.m m1 → Framed 24 8 [(0, 1), (8, 8), (16, 8)] c →
      (q.st ≠ .frozen → Does (.partSave fn ch) s (fun t => Answered fn ch c 3 0 [] m1 t ∧ OnlyChans m1 t)) ∧
      (q.st = .frozen → (∀ x ∈ m1.mem.shoots, x.space ≠ p) →
        (m1.vault = none → Does (.partSave fn ch) s (fun t => Answered fn ch c 4 0 [] m1 t ∧ OnlyChans m1 t)) ∧
        ∀ v, m1.vault = some v →
          let len := 80 + (Config.sectionsOf (m1.snapshot p)).2.length
          (c.f 16 8 < len → Does (.partSave fn ch) s (fun t => Answered fn ch c 2 0 (leBytes 8 len) m1 t ∧ OnlyChans m1 t)) ∧
          (len ≤ c.f 16 8 → ∃ b, b.length = len ∧ fieldAt b 0 4 = 0x424D5048 ∧ fieldAt b 4 2 = 0x0100 ∧ fieldAt b 8 8 = len ∧
            fieldAt b 20 4 = (countBits q.clusters + 128 * q.granules) % 2 ^ 32 ∧ fieldAt b 24 8 = q.boundary % 2 ^ 64 ∧ fieldAt b 48 8 = q.clusters.toNat ∧
            ∀ m2, m1.bumpFree.vwrite 65 (c.f 8 8) b = .ok m2 →
              Does (.partSave fn ch) s (fun t => Answered fn ch c 0 0 (leBytes 8 len) m2 t ∧ OnlyChans m2 t)))) ∧
    (Sent 0x0206 fn ch c s.m m1 → Framed 24 0 [(0, 1), (8, 8), (16, 8)] c →
      (m1.locked p = true → Does (.partRestore fn ch) s (fun t => Answered fn ch c 4 0 [] m1 t ∧ OnlyChans m1 t)) ∧
      (m1.locked p = false → m1.krnsOfPart p ≠ [] → Does (.partRestore fn ch) s (fun t => Answered fn ch c 3 0 [] m1 t ∧ OnlyChans m1 t)) ∧
      (m1.locked p = false → m1.krnsOfPart p = [] → c.f 16 8 < 80 ∨ 2 ^ 52 < c.f 16 8 → Does (.partRestore fn ch) s (fun t => Answered fn ch c 3 16 [] m1 t ∧ OnlyChans m1 t)) ∧
      ∀ b m2, m1.locked p = false → m1.krnsOfPart p = [] → 80 ≤ c.f 16 8 → c.f 16 8 ≤ 2 ^ 52 → m1.vread 65 (c.f 8 8) (c.f 16 8) .read = .ok b m2 →
        let len := fieldAt b 8 8
        let opened := fun key => Config.gcmOpen key (slice (b.take 64) 36 12) (b.take 64) (slice b 64 (len - 64))
        (fieldAt b 0 4 ≠ 0x424D5048 → Does (.partRestore fn ch) s (fun t => Answered fn ch c 3 0 [] m2 t ∧ OnlyChans m2 t)) ∧
        (fieldAt b 0 4 = 0x424D5048 → fieldAt b 4 2 = 0x0100 → 80 ≤ len → len ≤ b.length →
          (m2.vault = none → Does (.partRestore fn ch) s (fun t => Answered fn ch c 4 0 [] m2 t ∧ OnlyChans m2 t)) ∧
          ∀ v, m2.vault = some v →
            (opened v.mig = none → opened v.migPrev = none →
              Does (.partRestore fn ch) s (fun t => Answered fn ch c 4 0 [] m2 t ∧ OnlyChans m2 t)) ∧
            ∀ body z, opened v.mig = some body ∨ (opened v.mig = none ∧ opened v.migPrev = some body) → Config.snapshotOf body = some z →
              let fits := fieldAt b 20 4 = countBits q.clusters + 128 * q.granules ∧ fieldAt b 32 2 = (m2.unitsOf p).length ∧ fieldAt b 34 2 = q.msix
              (¬ fits → Does (.partRestore fn ch) s (fun t => Answered fn ch c 3 0 [] m2 t ∧ OnlyChans m2 t)) ∧
              let ordered := z.maps.any (fun r => r.target == 0 && r.ownerOrd)
              (fits → ordered = true → m2.aperturesOf p ≠ [] → Does (.partRestore fn ch) s (fun t => Answered fn ch c 3 0 [] m2 t ∧ OnlyChans m2 t)) ∧
              ∀ m3, fits → ordered = false ∨ m2.aperturesOf p = [] → m2.recallPages (m2.pagesToBe p z true ++ m2.pagesToBe p z false) = .done () m3 →
                Does (.partRestore fn ch) s (fun t => Answered fn ch c 0 0 [] m3 t ∧ (t.part p).st = .frozen ∧ (t.part p).seqs = z.seqs ∧
                (t.part p).kgis = z.kgis ∧ (t.part p).maps = z.maps ∧ (t.part p).irqCause = z.irqCause ∧ (t.part p).clusters = q.clusters ∧
                (t.part p).gen = q.gen ∧ (t.fnSt (m2.vfKey p)).table = z.table ∧ ∀ o, o ≠ p → t.part o = m3.part o))) ∧
    (Sent 0x0207 fn ch c s.m m1 → Framed 1 0 [(0, 1)] c →
      (q.st ≠ .frozen → Does (.partThaw fn ch) s (fun t => Answered fn ch c 3 0 [] m1 t ∧ OnlyChans m1 t)) ∧
      (q.st = .frozen → m1.waiting (fun _ => true) = [] → Does (.partThaw fn ch) s (fun t => Answered fn ch c 0 0 [] m1 t ∧ (t.part p).st = .running ∧
        (t.part p).freezing = 0 ∧ (t.part p).sb.predValid = false ∧
        (t.part p).captured = (List.range 8).flatMap (fun i =>
          let x := m1.chan (8 * m1.vfKey p + i)
          if x.enable then List.replicate x.complete i else []) ∧
        ∀ k ∈ q.restored, q.srcMask ≠ q.clusters → (m1.krn k).next < (m1.krn k).total ∨ (m1.krn k).replay ≠ [] → (t.krn k).live = false))) ∧
    (Sent 0x0208 fn ch c s.m m1 → Framed 1 0 [(0, 1)] c →
      Does (.partLogStart fn ch) s (fun t => Answered fn ch c 0 0 [] m1 t ∧ OnlyChans { m1 with parts := t.parts } t ∧
        OnlyPart p (fun q => { q with logOn := true, log := [] }) m1 t)) ∧
    (Sent 0x020A fn ch c s.m m1 → Framed 1 0 [(0, 1)] c →
      Does (.partLogStop fn ch) s (fun t => Answered fn ch c 0 0 [] m1 t ∧ OnlyChans { m1 with parts := t.parts } t ∧
        OnlyPart p (fun q => { q with logOn := false }) m1 t)) ∧
    (Sent 0x0209 fn ch c s.m m1 → Framed 32 0 [(0, 1), (8, 8), (16, 8), (24, 8)] c →
      let first := c.f 8 8
      let count := c.f 16 8
      let all := 16384 * (m1.unitsOf p).length
      (first % 64 ≠ 0 ∨ all < first → Does (.partLogRead fn ch) s (fun t => Answered fn ch c 3 8 [] m1 t ∧ OnlyChans m1 t)) ∧
      ∀ m2, first % 64 = 0 → count % 64 = 0 → first + count ≤ all → m1.vwrite 65 (c.f 24 8) (logBitmap q.log first count) = .ok m2 →
        Does (.partLogRead fn ch) s (fun t => Answered fn ch c 0 0 [] m2 t ∧ OnlyChans { m2 with parts := t.parts } t ∧
          (∀ g, tget false (t.part p).log g = if first ≤ g ∧ g < first + count then false else tget false (m2.part p).log g) ∧
          ∀ i, i < count → (nth 0 (logBitmap q.log first count) (i / 8)).getLsbD (i % 8) = tget false q.log (first + i))) ∧
    (Sent 0x020B fn ch c s.m m1 → Framed 16 0 [(0, 1), (1, 1), (8, 8)] c →
      let va := c.f 8 8
      let len := (m1.unitsOf p).length * 2 ^ 30
      let mine := m1.aperturesOf p
      (c.f 1 1 = 0 → va % 2 ^ 21 = 0 → va + len ≤ 2 ^ 52 →
        (m1.locked p = true → Does (.partApertureMap fn ch) s (fun t => Answered fn ch c 4 0 [] m1 t ∧ OnlyChans m1 t)) ∧
        (m1.locked p = false → (∃ u ∈ m1.unitsOf p, (m1.unit u).scrub = true) →
          Does (.partApertureMap fn ch) s (fun t => Answered fn ch c 1 0 [] m1 t ∧ OnlyChans m1 t)) ∧
        ∀ m2, m1.locked p = false → (∀ u ∈ m1.unitsOf p, (m1.unit u).scrub = false) → (∀ r ∈ (m1.part 65).maps, overlap r.va r.len va len = false) →
          (∀ r ∈ q.maps, r.target = 0 → r.ownerOrd = false) →
          m1.recallPages ((m1.allotPages p 0 len).filter (fun g => tget false m1.mem.pageOrd g)) = .done () m2 →
          Does (.partApertureMap fn ch) s (fun t => Answered fn ch c 0 0 [] m2 t ∧ (∀ g ∈ m1.allotPages p 0 len, tget false t.mem.pageOrd g = false) ∧
            OnlyPart 65 (fun x => { x with maps := x.maps ++ [{ va := va, len := len, target := 0, tgt := 0, access := 1, ownerOrd := false, large := true, stopped := false, aperture := p + 1 }] }) m2 t)) ∧
      (c.f 1 1 = 1 → m1.locked p = false →
        ((∀ r ∈ mine, r.va = va → r.stopped = true) → Does (.partApertureUnmap fn ch) s (fun t => Answered fn ch c 3 8 [] m1 t ∧ OnlyChans m1 t)) ∧
        ∀ r, mine.find? (fun r => r.va == va && !r.stopped) = some r →
          Does (.partApertureUnmap fn ch) s (ShootBegun fn ch c r.va r.len (.aperture fn ch) m1)))) ∧
  ∀ (p : Nat) (s : State), 1 ≤ p → p ≤ 64 → (s.m.part p).st = .running → (s.m.part p).freezing ≠ 0 →
    let q := s.m.part p
    (q.sb.running = false → s.m.blocksOfPart p = [] → Does (.partFreezeComplete p) s (fun t =>
      OnlyPart p (fun q => { q with st := .frozen, freezing := 0 }) s.m t ∧ OnlyChans { s.m with parts := t.parts } t ∧
      WaitAnswered (.freeze p) 0 (leBytes 8 q.boundary) s.m t)) ∧
    (q.sb.running = true ∨ s.m.blocksOfPart p ≠ [] → Does (.partFreezeComplete p) s (fun t => t = s.m)) ∧
    (q.d3Froze = false → q.freezing - 1 + 1000000000 ≤ s.m.now → Does (.partFreezeTimeout p) s (fun t =>
      OnlyPart p (fun q => { q with freezing := 0 }) s.m t ∧ OnlyChans { s.m with parts := t.parts } t ∧ WaitAnswered (.freeze p) 10 [] s.m t)) ∧
    (s.m.now < q.freezing - 1 + 1000000000 → Does (.partFreezeTimeout p) s (fun t => t = s.m))

namespace Sys2Proof.Claims

/-- Only half `h`'s power state, by `f`, changes. -/
def OnlyHalf (h : Nat) (f : Half → Half) (m t : Mach) : Prop :=
  t = { m with power := { m.power with halves := t.power.halves } } ∧ ∀ k, t.half k = if k = h then f (m.half k) else m.half k

/-- The fast OP limit of a source has been engaged on a half (R454): limit `o`, or OP0 where THROT_N or an excursion is engaged. -/
def Engaged (o : Nat) (src : FastSrc) (h : Nat) (m t : Mach) : Prop :=
  let x := m.half h
  let bits := x.fastSrc ||| (match src with | .throt => 1 | .excursion => 2 | .restart => 4)
  let top := if bits.getLsbD 0 = true ∨ bits.getLsbD 1 = true then 0 else 2
  if src = .restart ∧ x.set ≤ o ∧ x.op ≤ o then t.half h = x
  else
    t.half h = { x with fastSrc := bits, fast := top + 1, paced := decide (top < x.set) || (x.changing != 0 && decide (top < x.old)), op := if x.dead then x.op else Nat.min x.op top } ∧
      (∀ c ∈ t.power.vout, c.half = h → c.hw = false → c.op ≤ top) ∧ (top < x.set → x.dead = false → ⟨h, top, true, 0⟩ ∈ t.power.vout)

/-- A source of the fast OP limit has been released on every half (R468). -/
def Released (bit : BitVec 3) (m t : Mach) : Prop :=
  ∀ h, h < 8 → let x := m.half h
    let bits := x.fastSrc &&& ~~~bit
    t.half h = { x with fastSrc := bits, fast := if bits.getLsbD 0 = true ∨ bits.getLsbD 1 = true then 1 else if bits.getLsbD 2 = true then 3 else 0, paced := x.paced && decide (bits ≠ 0) }

end Sys2Proof.Claims

/-- O50: caps, modes and shares, the control period, OP changes, fast limits, droops and thermal limits (R37, R40, R444 to R469). Choices
and readings of the model: logs 100, 2. -/
def Obligations.PowerControl : Prop :=
  (∀ (ch : Nat) (s : State) (c : Cmd) (m1 : Mach),
    (Sent 0x0701 (.pf 0) ch c s.m m1 → Framed 2 0 [(0, 2)] c →
      (c.f 0 2 < 600 ∨ 1500 < c.f 0 2 → Does (.pwrCap (.pf 0) ch) s (fun t => Answered (.pf 0) ch c 3 0 [] m1 t ∧ OnlyChans m1 t)) ∧
      (600 ≤ c.f 0 2 → c.f 0 2 ≤ 1500 → Does (.pwrCap (.pf 0) ch) s (fun t => Answered (.pf 0) ch c 0 0 [] m1 t ∧
        OnlyChans { m1 with power := { m1.power with capNext := c.f 0 2 } } t))) ∧
    (Sent 0x0702 (.pf 0) ch c s.m m1 → Framed 1 0 [(0, 1)] c →
      (1 < c.f 0 1 → Does (.pwrMode (.pf 0) ch) s (fun t => Answered (.pf 0) ch c 3 0 [] m1 t ∧ OnlyChans m1 t)) ∧
      (c.f 0 1 ≤ 1 → Does (.pwrMode (.pf 0) ch) s (fun t => Answered (.pf 0) ch c 0 0 [] m1 t ∧
        OnlyChans { m1 with power := { m1.power with learnerNext := decide (c.f 0 1 = 1) } } t))) ∧
    (Sent 0x0703 (.pf 0) ch c s.m m1 → Framed 10 0 [(0, 8), (8, 2)] c →
      (c.f 8 2 = 0 ∨ 72 < c.f 8 2 → Does (.pwrShare (.pf 0) ch) s (fun t => Answered (.pf 0) ch c 3 8 [] m1 t ∧ OnlyChans m1 t)) ∧
      ∀ d m2, 1 ≤ c.f 8 2 → c.f 8 2 ≤ 72 → m1.vread 65 (c.f 0 8) (4 * c.f 8 2) .read = .ok d m2 →
        let target := fun i => fieldAt d (4 * i) 1
        let value := fun i => fieldAt d (4 * i + 2) 2
        let good := fun i => (target i < 8 ∨ (0x41 ≤ target i ∧ target i ≤ 0x80 ∧ value i ≠ 0)) ∧ fieldAt d (4 * i + 1) 1 = 0
        ((∀ i, i < c.f 8 2 → good i) → (∀ i j, i < j → j < c.f 8 2 → target i ≠ target j) →
          Does (.pwrShare (.pf 0) ch) s (fun t => Answered (.pf 0) ch c 0 0 [] m2 t ∧
            OnlyChans { m2 with power := { m2.power with sharesNext := t.power.sharesNext } } t ∧
            (∀ i, i < c.f 8 2 → tget 0 t.power.sharesNext (target i) = value i) ∧
            ∀ k, (∀ i, i < c.f 8 2 → target i ≠ k) → tget 0 t.power.sharesNext k = 0)) ∧
        ((∃ i, i < c.f 8 2 ∧ ¬ good i) ∨ (∃ i j, i < j ∧ j < c.f 8 2 ∧ target i = target j) →
          Does (.pwrShare (.pf 0) ch) s (fun t => Answered (.pf 0) ch c 3 0 [] m2 t ∧ OnlyChans m2 t)))) ∧
  (∀ (l ch : Nat) (s : State) (c : Cmd) (m1 : Mach), Sent 0x0704 (.pf l) ch c s.m m1 → Framed 0 16 [] c →
    Does (.pwrQuery (.pf l) ch) s (fun t => OnlyChans m1 t ∧ ∃ r, Answered (.pf l) ch c 0 0 r m1 t ∧ r.length = 16 ∧
      fieldAt r 0 2 = m1.power.cap % 65536 ∧ fieldAt r 2 1 = m1.power.learner.toNat ∧ (∀ h, h < 8 → fieldAt r (4 + h) 1 = (m1.half h).op % 256) ∧
      fieldAt r 12 4 = m1.power.board % 2 ^ 32)) ∧
  (∀ (sense : PowerSense) (s : State), s.m.up = true → s.m.moonServes = true →
    (s.m.power.periodAt = 0 ∨ s.m.power.periodAt - 1 + 100000 ≤ s.m.now →
      Does (.controlPeriod sense) s (fun t =>
        t = { s.m with power := t.power, parts := t.parts, ras := t.ras, free := t.free, moon := { s.m.moon with wdog := s.m.now } } ∧
        t.power.cap = s.m.power.capNext ∧ t.power.learner = s.m.power.learnerNext ∧ t.power.shares = s.m.power.sharesNext ∧
        t.power.periodAt = s.m.now + 1 ∧ t.power.hist = (t.power.board :: s.m.power.hist).take 100 ∧
        (∀ h, h < 8 → (t.half h).tj = nth 0 sense.tj h ∧ (t.half h).leak = nth 0 sense.leak h ∧
          (t.half h).thermal = (if 95 ≤ nth 0 sense.tj h then (s.m.half h).thermal - 1 else (s.m.half h).thermal) ∧
          ((s.m.half h).dead = false → (t.half h).op ≤ t.hwLimit h ∧ (t.half h).op ≤ (s.m.half h).op + 1) ∧
          ((s.m.half h).dead = true → (t.half h).op = (s.m.half h).op)) ∧
        (s.m.mirrorFresh = true → s.m.power.stale = false →
          t.power.board = total ((List.range 8).map (fun r => (s.m.cres.railMirror r).power)) +
            (total ((List.range 16).map (fun i => (s.m.cres.railMirror (8 + i)).power)) + 5800) ∧
          ∀ h, h < 8 → (t.half h).power = Nat.min 65535 ((s.m.cres.railMirror h).power / 100)) ∧
        (1800000 < t.power.board → ∀ h, h < 8 → (t.half h).fast = 1 ∧ (t.half h).fastSrc.getLsbD 1 = true))) ∧
    (s.m.power.periodAt ≠ 0 → s.m.now < s.m.power.periodAt - 1 + 100000 → Does (.controlPeriod sense) s (fun t => t = s.m))) ∧
  (∀ (s : State),
    let due := fun h => let x := s.m.half h
      x.changing ≠ 0 ∧ x.dead = false ∧ x.changing - 1 + 10000 * (if x.set < x.old then x.old - x.set else x.set - x.old) ≤ s.m.now ∧ x.statusAt ≤ s.m.now
    (s.m.nextVout = none → Does .voutCommand s (fun t => t = s.m) ∧ ((∀ h, h < 8 → ¬ due h) → Does .controlPortNoAck s (fun t => t = s.m))) ∧
    (∀ h, h < 8 → s.m.nextVout = none → due h → (∀ k, k < h → ¬ due k) → let x := s.m.half h
      (x.statusTries < 3 → Does .controlPortNoAck s (OnlyHalf h (fun x => { x with statusTries := x.statusTries + 1, statusAt := s.m.now + 100000 }) s.m)) ∧
      (3 ≤ x.statusTries → s.m.moon.restart = 0 → Does .controlPortNoAck s (fun t => Logged 0x32 4 t ∧ t.ras.direct.getLsbD 1 = true ∧
        (t.half h).dead = true ∧ (t.half h).op = x.set ∧ (t.half h).changing = 0 ∧ (∀ k, k ≠ h → t.half k = s.m.half k) ∧
        ∀ d ∈ t.power.vout, d.half ≠ h))) ∧
    ∀ c, s.m.nextVout = some c →
      Does .voutCommand s (fun t =>
        t = { s.m with power := { s.m.power with halves := t.power.halves, vout := s.m.power.vout.tail, voutFree := s.m.now + 40000 }, out := .vout c.half (opMv c.op) :: s.m.out } ∧
        ∀ h, t.half h = if h = c.half then { s.m.half h with old := if (s.m.half h).changing = 0 then (s.m.half h).old else (s.m.half h).set, set := c.op, changing := s.m.now + 1, movedAt := s.m.now + 1, statusTries := 0, statusAt := 0 } else s.m.half h) ∧
      (c.tries < 3 → Does .controlPortNoAck s (fun t => t = { s.m with power := { s.m.power with
        vout := { c with tries := c.tries + 1 } :: s.m.power.vout.tail, voutFree := s.m.now + 100000 } })) ∧
      (3 ≤ c.tries → s.m.moon.restart = 0 → Does .controlPortNoAck s (fun t => Logged 0x32 4 t ∧ t.ras.direct.getLsbD 1 = true ∧
        (t.half c.half).dead = true ∧ (t.half c.half).op = (s.m.half c.half).set ∧ (∀ h, h ≠ c.half → t.half h = s.m.half h) ∧
        (∀ d ∈ t.power.vout, d.half ≠ c.half)))) ∧
  (∀ (s : State) (halves : Byte) (src : FastSrc), s.m.powered = true →
    let o : BitVec 3 := match src with | .restart => 2 | _ => 0
    (match src with | .throt => s.m.pins.throt = false | .excursion => 1800000 < s.m.power.board | .restart => s.m.moon.restart ≠ 0) →
    Does (.fastOpLimit o halves src) s (fun t => t = { s.m with power := { s.m.power with halves := t.power.halves, vout := t.power.vout } } ∧
      ∀ h, h < 8 → if halves.getLsbD h then Engaged o.toNat src h s.m t else t.half h = s.m.half h)) ∧
  (∀ s : State, s.m.pins.throt = true → s.m.powered = true →
    Does .throtNFall s (fun t => t = { s.m with power := { s.m.power with halves := t.power.halves, vout := t.power.vout }, pins := { s.m.pins with throt := false } } ∧
      ∀ h, h < 8 → Engaged 0 .throt h s.m t)) ∧
  (∀ s : State, s.m.pins.throt = false →
    Does .throtNRise s (fun t => t = { s.m with power := { s.m.power with halves := t.power.halves }, pins := { s.m.pins with throt := true } } ∧ Released 1 s.m t)) ∧
  (∀ (h : Nat) (s : State), h < 8 →
    let x := s.m.half h
    let sp := opMv (if x.changing = 0 then x.set else Nat.min x.old x.set)
    (x.changing ≠ 0 → x.changing - 1 + 10000 * (if x.set < x.old then x.old - x.set else x.set - x.old) ≤ s.m.now → x.statusAt ≤ s.m.now →
      Does (.opChangeComplete h) s (OnlyHalf h (fun x => { x with changing := 0, movedAt := s.m.now + 1, old := x.set, paced := x.paced && decide (x.fast - 1 < x.set) }) s.m)) ∧
    (s.m.now < x.changing - 1 + 10000 * (if x.set < x.old then x.old - x.set else x.set - x.old) ∨ s.m.now < x.statusAt → Does (.opChangeComplete h) s (fun t => t = s.m)) ∧
    (∀ mv : BitVec 16, s.m.powered = true →
      (94 * sp ≤ 100 * mv.toNat → Does (.droopWarning h mv) s (fun t => t = s.m)) ∧
      (100 * mv.toNat < 94 * sp → x.below = false → x.hold = 0 → Does (.droopWarning h mv) s (OnlyHalf h (fun x =>
        { x with below := true, halved := true, fellAt := s.m.now, dMin := mv.toNat, dCount := Nat.min 65535 (x.dCount + 1), hold := x.op - 1 + 1 }) s.m))) ∧
    (x.below = true → x.fellAt + 1000 ≤ s.m.now → s.m.moon.restart = 0 →
      Does (.droopHalvingEnd h) s (fun t => Logged 0x30 4 t ∧
        OnlyHalf h (fun x => { x with below := false, halved := false, recovered := s.m.now - 1000, dDur := Nat.min 65535 (s.m.now - 1000 - x.fellAt) })
          { s.m with ras := t.ras, power := { s.m.power with droops := s.m.power.droops ++ [(h, x.dMin, s.m.now - 1000 - x.fellAt, x.fellAt)] } } t)) ∧
    (x.hold ≠ 0 → x.below = false → x.recovered + 1000000 ≤ s.m.now → Does (.droopHoldEnd h) s (OnlyHalf h (fun x => { x with hold := 0 }) s.m)) ∧
    (s.m.now < x.recovered + 1000000 → Does (.droopHoldEnd h) s (fun t => t = s.m)) ∧
    (s.m.powered = true → Does (.droopReset h) s (fun t => FatalError 4 s.m t ∧
      (∀ b, (t.blk b).live = true → clusterOf (blockCore b) / 16 ≠ h / 2) ∧ ∀ c, c / 256 = h / 2 → t.core c = (s.m.core c).quiesce)) ∧
    (x.tj ≤ 92 → x.thermal < 7 → x.thermalAt + 1000000 ≤ s.m.now →
      Does (.thermalLimitRise h) s (OnlyHalf h (fun x => { x with thermal := x.thermal + 1, thermalAt := s.m.now }) s.m)) ∧
    (92 < x.tj ∨ 7 ≤ x.thermal ∨ s.m.now < x.thermalAt + 1000000 → Does (.thermalLimitRise h) s (fun t => t = s.m))) ∧
  (∀ (stack temp : Nat) (s : State), stack < 8 → s.m.powered = true →
    Does (.hbmThermalLimit stack temp) s (fun t => t = { s.m with mem := { s.m.mem with stackHalf := t.mem.stackHalf } } ∧
      ∀ i, i < 8 → t.mem.stackHalf.getLsbD i = if i = stack ∧ 95 ≤ temp then true else if i = stack ∧ temp ≤ 90 then false else s.m.mem.stackHalf.getLsbD i)) ∧
  (∀ s : State, s.m.powered = true → s.m.pins.thermtrip = true →
    Does .thermtrip s (fun t => t = { s.m with pins := { s.m.pins with thermtrip := false }, power := { s.m.power with tripped := true }, ras := t.ras, out := t.out, host := { s.m.host with fns := t.host.fns } } ∧
      (∃ r, t.ras.ring.head? = some r ∧ t.ras.fatals.head? = some r ∧ r.code = 0x40 ∧ r.sev = 3 ∧ r.detail = leBytes 20 8) ∧
      (∀ f ∈ s.m.functions, .aer f 3 ((s.m.fnSt f).aerSev.getLsbD 2) ∈ t.out) ∧ t.mayIssue = false)) ∧
  (∀ s : State, s.m.up = true → s.m.power.estimateAt + 100000 ≤ s.m.now →
    Does .energyEstimateUpdate s (fun t => t = { s.m with power := { s.m.power with estimateAt := s.m.now }, parts := t.parts, free := s.m.free + 1 } ∧
      ∃ raw : Nat → Nat,
        let whole := total (s.m.existing.map raw) + raw 0
        let measured := total ((List.range 24).map (fun r => (s.m.cres.railMirror r).power)) / 10
        let scaled := s.m.power.stale = false ∧ s.m.mirrorFresh = true ∧ whole ≠ 0
        ∀ p, if 1 ≤ p ∧ p ≤ 64 ∧ (s.m.part p).st ≠ .absent then
            t.part p = { s.m.part p with acct := (t.part p).acct } ∧ ∀ i, (i ≠ 10 → tget 0 (t.part p).acct i = tget 0 (s.m.part p).acct i) ∧
              (i = 10 → (scaled → tget 0 (t.part p).acct i = tget 0 (s.m.part p).acct i + raw p * measured / whole) ∧
                (¬ scaled → tget 0 (t.part p).acct i = tget 0 (s.m.part p).acct i + raw p))
          else t.part p = s.m.part p)) ∧
  ∀ s : State, s.m.up = true → s.m.moonServes = true → s.m.power.stale = false →
    (s.m.mirrorFresh = true → Does .mirrorStale s (fun t => t = s.m)) ∧
    (s.m.mirrorFresh = false → Does .mirrorStale s (fun t => t = { s.m with power := { s.m.power with stale := true }, ras := t.ras } ∧
      ∃ r, t.ras.ring.head? = some r ∧ (r.code, r.sev) = Config.rasCode 4))

namespace Sys2Proof.Claims

/-- Only Crescent, by `f`, changes. -/
def OnlyCres (f : Crescent → Crescent) (m t : Mach) : Prop := t = { m with cres := f m.cres }

/-- Crescent's state with a new record at the head of an audit trail that is not full (R480). -/
def trailed (code detail : Nat) (c : Crescent) : Crescent :=
  { c with live := { c.live with trail := { time := c.time, seq := c.live.seq, code := code, events := c.live.events, detail := detail } :: c.live.trail } }

/-- The energy of every rail in the interval so far. -/
def railSum (c : Crescent) : Nat := total (c.energies.map (·.2))

/-- A new interval has begun, every rail at zero energy, and the device's reading and the readings of all partitions with a generation
are those of the counters (R477, R481, R482). -/
def IntervalClosed (sum : Nat) (m t : Mach) : Prop :=
  (∀ r, (t.rail r).energy = 0 ∧ (t.rail r).faulted = false) ∧ t.cres.closeAt = m.cres.time ∧ t.cres.sampled = false ∧
    t.cres.live.interval = m.cres.live.interval + 1 ∧ t.cres.live.total = m.cres.live.total + sum ∧
    (∃ r, tfind t.cres.readings 0 = some r ∧ r.interval = m.cres.live.interval + 1 ∧ r.cum = t.cres.live.total / 1000 ∧ r.last = sum / 1000 ∧
      r.unattributed = t.cres.live.unattributed / 1000 ∧ m.cres.live.seq ≤ r.seq ∧ r.seq < t.cres.live.seq) ∧
    (∀ p ∈ tkeys t.cres.live.gens, p ≠ 0 → ∃ r, tfind t.cres.readings p = some r ∧ r.part = p ∧ r.interval = m.cres.live.interval + 1 ∧
      r.cum = tget 0 t.cres.live.cum p / 1000 ∧ r.seq < t.cres.live.seq ∧
      (m.cres.metering = true → 1 ≤ p → p ≤ 64 → (m.part p).st ≠ .absent → tget 0 t.cres.live.gens p = (m.part p).gen → tget 0 (t.part p).acct 9 = r.cum)) ∧
    (m.cres.metering = false → t.parts = m.parts) ∧
    ∀ p i, i ≠ 9 → tget 0 (t.part p).acct i = tget 0 (m.part p).acct i

end Sys2Proof.Claims

/-- O51: Crescent's supply, samples, ledgers, intervals, audit trail and the METER commands (R471 to R489). Choices and readings of the
model: logs 9, 14, 50, 2. -/
def Obligations.Metering : Prop :=
  (∀ s : State,
    (s.m.pins.vstby = false → Does .vstbyCrRise s (fun t =>
      t = { s.m with pins := { s.m.pins with vstby := true }, cres := { s.m.cres with st := .starting s.m.cres.time } })) ∧
    (∀ committed, s.m.pins.vstby = true → Does (.vstbyCrFall committed) s (fun t =>
      t = { s.m with pins := { s.m.pins with vstby := false }, cres := t.cres } ∧ t.cres.st = .absent ∧ t.cres.good = false ∧ t.cres.lost = true ∧
      t.cres.nv = (if committed then s.m.cres.live else s.m.cres.nv) ∧ (committed = false → t.cres.failedCommit = true))) ∧
    (∀ since l e, s.m.cres.st = .starting since → s.m.cres.nv.trail.length < 1000 →
      Does (.crescentStart ⟨l, e⟩) s (fun t => t = { s.m with cres := t.cres } ∧ t.cres.st = .ready ∧ t.cres.time = 0 ∧ t.cres.lost = false ∧
        t.cres.live = { s.m.cres.nv with trail := t.cres.live.trail } ∧
        ((∀ r, r < 24 → nth false l r = true) → t.cres.good = e ∧
          t.cres.live.trail = (if s.m.cres.lost then [{ time := 0, seq := s.m.cres.nv.seq, code := 4, events := s.m.cres.nv.events, detail := 0 }] else []) ++ s.m.cres.nv.trail) ∧
        (∀ r, r < 24 → nth false l r = false → t.cres.good = false ∧ ∃ x ∈ t.cres.live.trail, x.code = 6 ∧ x.detail = r))) ∧
    (s.m.cres.st = .ready →
      (s.m.cres.commitAt + 3600000000 ≤ s.m.cres.time → Does .crescentHourlyCommit s (OnlyCres (fun c => { c with nv := c.live, commitAt := c.time }) s.m)) ∧
      (s.m.cres.time < s.m.cres.commitAt + 3600000000 → Does .crescentHourlyCommit s (fun t => t = s.m)) ∧
      (s.m.cres.live.trail.length < 1024 →
        Does .oscillatorFault s (OnlyCres (fun c => { trailed 7 0 c with good := false }) s.m) ∧
        (∀ w, s.m.cres.time = 0 ∨ s.m.cres.checkAt + 86400000000 ≤ s.m.cres.time → Does (.checksumRecompute w) s (OnlyCres (fun c =>
          if w = c.checksum then { c with checkAt := c.time } else { trailed 3 w.toNat c with checkAt := c.time, good := false }) s.m)) ∧
        ∀ pkg, (Config.metrologyVerifies pkg = true → Does (.metrologyChangePackage pkg) s (fun t => t = { s.m with cres := t.cres } ∧
            t.cres.live.events = s.m.cres.live.events + 1 ∧ (t.cres.fwId, t.cres.checksum) = Config.metrologyIdent pkg ∧
            ∃ r, t.cres.live.trail = r :: s.m.cres.live.trail ∧ r.code = 1 ∧ r.events = s.m.cres.live.events + 1)) ∧
          (Config.metrologyVerifies pkg = false → Does (.metrologyChangePackage pkg) s (OnlyCres (trailed 2 0) s.m))) ∧
      (1024 ≤ s.m.cres.live.trail.length → (∀ x ∈ s.m.cres.live.trail, x.code = 1 ∨ x.code = 2) →
        ∀ pkg, Does (.metrologyChangePackage pkg) s (fun t => t = s.m)) ∧
      (∀ reads, Does (.crescentSample reads) s (fun t => t = { s.m with cres := t.cres } ∧ t.cres.time = s.m.cres.time + 100 ∧ t.cres.sampled = true ∧
        t.cres.live = s.m.cres.live ∧ (s.m.start.phase = .held → t.cres.mirrorAt = s.m.cres.mirrorAt ∧ t.cres.mirror = s.m.cres.mirror) ∧
        (s.m.start.phase ≠ .held → t.cres.mirrorAt = s.m.now ∧
          ∀ r, r < 24 → t.cres.railMirror r = { power := (t.rail r).power % 2 ^ 32, sample := (t.rail r).sample, stale := (t.rail r).stale }) ∧
        ∀ r, r < 24 → let x := s.m.rail r
          (nth none reads r = none → t.rail r = x) ∧
          ∀ w : Word, nth none reads r = some w →
            let diff := (w.toNat + 2 ^ 32 - (x.last - 1)) % 2 ^ 32
            let gap := s.m.cres.time + 100 - x.validAt
            t.rail r = { x with last := w.toNat + 1, validAt := s.m.cres.time + 100, sample := x.sample + 1, stale := false, energy := x.energy + (if x.last = 0 ∨ 2 ^ 32 * 10000 ≤ x.power * gap then 0 else diff * 10000), power := (t.rail r).power } ∧
            (x.last ≠ 0 → x.power * gap < 2 ^ 32 * 10000 → gap ≠ 0 → (t.rail r).power = diff * 10000 / gap))) ∧
      (∀ r, r < 24 → (s.m.rail r).stale = false →
        ((s.m.rail r).validAt + 1000 ≤ s.m.cres.time → s.m.cres.live.trail.length < 1024 → Does (.railStale r) s (fun t =>
          t = { s.m with cres := t.cres } ∧ (∀ k, t.rail k = if k = r then { s.m.rail k with stale := true, logged := true, faulted := true } else s.m.rail k) ∧
          t.cres.live = if (s.m.rail r).logged then s.m.cres.live else (trailed 5 r s.m.cres).live)) ∧
        (s.m.cres.time < (s.m.rail r).validAt + 1000 → Does (.railStale r) s (fun t => t = s.m))) ∧
      (s.m.start.phase = .ready → s.m.now % 10000000 = 0 → s.m.cres.ledgerAt < s.m.now →
        Does .ledgerRecord s (fun t => t = { s.m with cres := t.cres, power := { s.m.power with droops := [] } } ∧ t.cres.ledgerNo = s.m.cres.ledgerNo + 1 ∧
          t.cres.ledgerAt = s.m.now ∧ t.cres.engine = [] ∧
          ∃ l, t.cres.ledger = (if Config.ledgerIntact s.m.cres.ledgerNo then s.m.cres.ledger ++ [l] else s.m.cres.ledger) ∧ l.number = s.m.cres.ledgerNo ∧ l.start = s.m.cres.ledgerAt ∧ l.stop = s.m.now ∧
            l.droops = s.m.power.droops.take 64 ∧ l.owners.length = 64 ∧
            ∀ c, c < 64 → nth (0, 0, 0) l.owners c = ((s.m.clu c).owner, if (s.m.clu c).owner = 0 then 0 else (s.m.part (s.m.clu c).owner).gen, tget 0 s.m.cres.engine c))) ∧
      (∀ l rest, s.m.cres.ledger = l :: rest → s.m.cres.good = true → s.m.cres.sampled = true →
        Does .intervalClose s (fun t => t = { s.m with cres := t.cres, parts := t.parts } ∧ t.cres.ledger = rest ∧ IntervalClosed (railSum s.m.cres) s.m t ∧
          t.cres.live.unattributed = s.m.cres.live.unattributed + (s.m.cres.shares l).2)) ∧
      (s.m.cres.sampled = false → Does .intervalClose s (fun t => t = s.m)) ∧
      (s.m.cres.good = true → s.m.cres.ledger = [] → s.m.cres.closeAt + 12000 ≤ s.m.cres.time →
        Does .ledgerMissing s (fun t => t = { s.m with cres := t.cres, parts := t.parts, free := s.m.free + 1 } ∧ IntervalClosed (railSum s.m.cres) s.m t ∧
          t.cres.live.unattributed = s.m.cres.live.unattributed + railSum s.m.cres ∧
          ∀ r, tfind t.cres.readings 0 = some r → r.flags / 2 % 2 = 1)) ∧
      (s.m.cres.time < s.m.cres.closeAt + 12000 → Does .ledgerMissing s (fun t => t = s.m)))) ∧
  (∀ (l : Ledger) (r e : Nat), (∀ o ∈ l.owners, o.2.2 ≤ l.stop - l.start) → total ((l.attribute r e).1.map (·.2)) + (l.attribute r e).2 = e) ∧
  ∀ (fn : Fn) (ch : Nat) (s : State) (c : Cmd) (m1 : Mach),
    (Sent 0x0801 fn ch c s.m m1 → Framed 24 4 [(0, 1), (8, 8), (16, 8)] c →
      let p := match fn with | .vf _ p => p | .pf _ => c.f 0 1
      (m1.meterOk = false → Does (.meterRead fn ch) s (fun t => Answered fn ch c 5 7 [] m1 t ∧ OnlyChans m1 t)) ∧
      (m1.meterOk = true → 1 ≤ p → p ≤ 64 → (m1.part p).st = .resetting → Does (.meterRead fn ch) s (fun t => Answered fn ch c 1 0 [] m1 t ∧ OnlyChans m1 t)) ∧
      ((m1.part p).st ≠ .resetting → m1.meterOk = true → p ≠ 0xFF → tfind m1.cres.readings p = none → Does (.meterRead fn ch) s (fun t => Answered fn ch c 3 0 [] m1 t ∧ OnlyChans m1 t)) ∧
      ∀ r, (m1.part p).st ≠ .resetting → m1.meterOk = true → p ≠ 0xFF → tfind m1.cres.readings p = some r → ∃ b, b.length = 224 ∧ fieldAt b 0 4 = 0x314D5243 ∧ fieldAt b 7 1 = r.part % 256 ∧
        fieldAt b 8 8 = r.seq % 2 ^ 64 ∧ fieldAt b 32 8 = r.interval % 2 ^ 64 ∧ fieldAt b 56 8 = r.cum % 2 ^ 64 ∧ fieldAt b 84 4 = r.flags % 2 ^ 32 ∧
        (c.f 16 8 < 224 → Does (.meterRead fn ch) s (fun t => Answered fn ch c 2 0 [] m1 t ∧ OnlyChans m1 t)) ∧
        ∀ m2, 224 ≤ c.f 16 8 → m1.vwrite (spaceOf fn) (c.f 8 8) b = .ok m2 →
          Does (.meterRead fn ch) s (fun t => Answered fn ch c 0 0 (leBytes 4 224) m2 t ∧ OnlyChans m2 t)) ∧
    (Sent 0x0802 fn ch c s.m m1 → fn = .pf 0 → Framed 16 4 [(0, 8), (8, 8)] c → m1.meterOk = true → ∃ b, fieldAt b 0 4 = 0x31415243 ∧
      fieldAt b 4 4 = m1.cres.live.events % 2 ^ 32 ∧ b.length = 128 + 32 * m1.cres.live.trail.length ∧
      (∀ i r, m1.cres.live.trail.reverse[i]? = some r → slice b (32 + 32 * i) 32 = r.bytes) ∧
      ∀ m2, b.length ≤ c.f 8 8 → m1.vwrite 65 (c.f 0 8) b = .ok m2 →
        Does (.meterAudit fn ch) s (fun t => Answered fn ch c 0 0 (leBytes 4 b.length) m2 t ∧ OnlyChans m2 t)) ∧
    ∀ l, Sent 0x0803 fn ch c s.m m1 → fn = .pf l → Framed 0 16 [] c →
      (m1.meterOk = false → Does (.meterIdent fn ch) s (fun t => Answered fn ch c 5 7 [] m1 t ∧ OnlyChans m1 t)) ∧
      (m1.meterOk = true → Does (.meterIdent fn ch) s (fun t => OnlyChans m1 t ∧
        Answered fn ch c 0 0 (leBytes 8 m1.cres.fwId.toNat ++ leBytes 4 m1.cres.checksum.toNat ++ leBytes 4 m1.cres.live.events) m1 t))

namespace Sys2Proof.Claims

/-- The frames of one operation, each with its row and the operation's code (Table 16.2). -/
def frameRow (e : (Nat → Frame → Instr) × Nat) : Prop :=
  e ∈ ([(.ylpPut, 1), (.ylpMput, 2), (.ylpGet, 3), (.ylpBget, 4), (.ylpAtom, 5), (.ylpRed, 6), (.ylpEvt, 7), (.ylpMbox, 8), (.ylpCmp, 9)] :
    List ((Nat → Frame → Instr) × Nat))

/-- The frame bears a row's operation and is addressed to the device: to its ID, or, for an MPUT, to a group. -/
def ForUs (op : Nat) (f : Frame) (m : Mach) : Prop := f.op.toNat = op ∧ f.mc = decide (op = 2) ∧ (op = 2 ∨ f.dst.toNat = m.links.devId)

/-- A frame goes out on a link: it bears the next counter of its retry state, and the bytes and the datagram follow (R422, R429, R498). -/
def framedOn (m : Mach) (l : Nat) (f : Frame) (p : Peer) : Output :=
  let sent := { f with epoch := p.count.txEpoch, count := p.count.txCount }
  .frame l sent (m.wire l sent) (m.datagram l sent (m.wire l sent))

/-- A frame arrives in order and intact on link `link`, or as the oldest frame that the device sent to itself (`link` 12). -/
def Arrives (link : Nat) (f : Frame) (m : Mach) : Prop :=
  (link = 12 ∧ ∃ rest, (m.peer loopKey).buf = f :: rest) ∨
    (link < 12 ∧ (m.ylink link).st = .up ∧ f.crcOk = true ∧ f.gcmOk = true ∧ (m.peer (m.senderKey link f)).fresh f = true ∧
      f.seq = (m.peer (m.senderKey link f)).rxSeq)

/-- The frame has taken effect, `m2`, and is acknowledged. -/
def Accepted (link : Nat) (f : Frame) (m m2 t : Mach) : Prop :=
  let k := if link = 12 then loopKey else m.senderKey link f
  t = { m2 with links := { m2.links with peers := t.links.peers }, out := (if link = 12 then [] else [.ack k f.seq false]) ++ m2.out } ∧
    ∀ j, t.peer j = if j ≠ k then m2.peer j else if link = 12 then { m2.peer j with buf := (m2.peer j).buf.tail } else (m2.peer j).accept f

/-- The frame, its effect being `m1`, is answered by a CMP with a status and lines; with no room for the answer it is not taken yet, and an
answer without a route is dropped (R427, R433). -/
def Replied (link : Nat) (f : Frame) (status : Nat) (lines : List (LineData × TailState)) (m m1 t : Mach) : Prop :=
  match m1.egress (m1.answerTo f status lines) (m1.chargeable f.dstPart.toNat) false with
  | .sent m2 => Accepted link f m m2 t
  | .noRoute => Accepted link f m m1 t
  | .full => t = m

/-- A request frame passes checks 1 and 2 of Table 16.4. -/
def Admitted (f : Frame) (m : Mach) : Prop :=
  let q := m.part f.dstPart.toNat
  1 ≤ f.dstPart.toNat ∧ f.dstPart.toNat ≤ 64 ∧ q.st = .running ∧ m.capturedNow f.dstPart.toNat = none ∧ q.ingress = true ∧ q.domain = f.domain

/-- Launch `k` has been aborted with REMOTE_FAULT: it and its blocks have gone, and the newest record carries the remote status (R433). -/
def RemoteAborted (k status : Nat) (m t : Mach) : Prop :=
  (t.krn k).live = false ∧ (∀ b, (t.blk b).live = true → (t.blk b).krn ≠ k) ∧
    ∃ r, t.ras.ring.head? = some r ∧ r.code = 0x20 ∧ r.sev = 2 ∧ r.part = (m.krn k).part ∧ r.krn = (m.krn k).num ∧ r.fault = 7 ∧ r.status = status

/-- The payload of an OK frame counts for its partition (R440). -/
def counted (link : Nat) (f : Frame) (m : Mach) : Mach := m.chargeRx f.dstPart.toNat link (64 * f.lines.length)

end Sys2Proof.Claims

/-- O52: what each arriving frame of the scale-out protocol does and how it is answered (R419, R423, R427, R428, R432 to R436). Choices
and readings of the model: logs 31, 67 to 69. -/
def Obligations.FramesServed : Prop :=
  (∀ e, frameRow e → ∀ (link : Nat) (f : Frame) (s : State), link < 12 → ForUs e.2 f s.m →
    let k := s.m.senderKey link f
    let rx := (s.m.peer k).rxSeq
    ((s.m.ylink link).st ≠ .up → Does (e.1 link f) s (fun t => t = s.m)) ∧
    ((s.m.ylink link).st = .up → f.crcOk = false → Does (e.1 link f) s (OnlyOut [.ack k (rx - 1) true] s.m)) ∧
    ((s.m.ylink link).st = .up → f.crcOk = true → f.gcmOk = true → (s.m.peer k).fresh f = true → f.seq ≠ rx → Does (e.1 link f) s (OnlyOut [.ack k (rx - 1) true] s.m)) ∧
    ((s.m.ylink link).st = .up → f.crcOk = true → f.gcmOk = false ∨ (s.m.peer k).fresh f = false → Does (e.1 link f) s (fun t =>
      t = { s.m with links := { s.m.links with peers := t.links.peers }, out := .ack k (rx - 1) true :: s.m.out } ∧
      ∀ j, t.peer j = if j = k then { s.m.peer j with gcm := (s.m.peer j).gcm + 1 } else s.m.peer j))) ∧
  (∀ e, frameRow e → e.2 ≠ 2 → e.2 ≠ 9 → ∀ (link : Nat) (f : Frame) (s : State), ForUs e.2 f s.m → Arrives link f s.m →
    let q := s.m.part f.dstPart.toNat
    (f.dstPart = 0 ∨ 64 < f.dstPart.toNat ∨ q.st = .absent ∨ q.st = .resetting ∨ q.ingress = false ∨ q.domain ≠ f.domain →
      Does (e.1 link f) s (Replied link f 4 [] s.m s.m)) ∧
    (1 ≤ f.dstPart.toNat → f.dstPart.toNat ≤ 64 → q.st = .frozen ∨ (q.st = .running ∧ s.m.capturedNow f.dstPart.toNat ≠ none) → q.ingress = true → q.domain = f.domain →
      Does (e.1 link f) s (Replied link f 1 [] s.m s.m))) ∧
  (∀ (link : Nat) (f : Frame) (s : State), ForUs 1 f s.m → Arrives link f s.m → Admitted f s.m →
    ((∃ i, i < f.lines.length ∧ s.m.frameLine f .write i = .fault) → Does (.ylpPut link f) s (Replied link f 3 [] s.m s.m)) ∧
    (∀ d tl pa m1, f.lines = [(d, tl)] → s.m.frameLine f .write 0 = .ok (.hbm pa) → s.m.writeWaits (pa / 64) = some m1 → Does (.ylpPut link f) s (fun t => t = m1)) ∧
    ∀ d tl pa m1, f.lines = [(d, tl)] → s.m.frameLine f .write 0 = .ok (.hbm pa) → s.m.writeWaits (pa / 64) = none →
      s.m.cohWriteFrom (pa / 64) f.dstPart.toNat 0 d (maskOf f.first.toNat (f.last.toNat + 1 - f.first.toNat)) (tl != .good) true 7 = .done () m1 →
      Does (.ylpPut link f) s (Replied link f 0 [] s.m (counted link f m1))) ∧
  (∀ (link : Nat) (f : Frame) (s : State), Arrives link f s.m → Admitted f s.m →
    let p := f.dstPart.toNat
    let bytes := fun (d : LineData) => [(placeBytes f.first.toNat (slice (lineBytes d) f.first.toNat (f.last.toNat + 1 - f.first.toNat)), TailState.good)]
    (s.m.frameLine f .read 0 = .fault →
      (ForUs 3 f s.m → Does (.ylpGet link f) s (Replied link f 3 [] s.m s.m)) ∧ (ForUs 4 f s.m → Does (.ylpBget link f) s (Replied link f 3 [] s.m s.m))) ∧
    ∀ pa, s.m.frameLine f .read 0 = .ok (.hbm pa) →
      (∀ d po m1, ForUs 3 f s.m → s.m.cohRead (pa / 64) p true = .done (d, po) m1 →
        Does (.ylpGet link f) s (if po then Replied link f 7 [(d, .poison)] s.m (m1.deferred 0x11 (pa / 64) p 0) else Replied link f 0 (bytes d) s.m (counted link f m1))) ∧
      (ForUs 4 f s.m → let r := s.m.hbmRead (pa / 64) p
        Does (.ylpBget link f) s (if r.1.2 then Replied link f 7 [(r.1.1, .poison)] s.m (r.2.deferred 0x11 (pa / 64) p 0)
          else Replied link f 0 (bytes r.1.1) s.m (counted link f r.2)))) ∧
  (∀ (link : Nat) (f : Frame) (s : State) (d : LineData) (tl : TailState), Arrives link f s.m → Admitted f s.m → f.lines = [(d, tl)] →
    let n := 2 ^ f.size.toNat
    (f.size ≠ 2 ∧ f.size ≠ 3 ∨ 10 < f.aop.toNat →
      (ForUs 5 f s.m → Does (.ylpAtom link f) s (Replied link f 3 [] s.m s.m)) ∧ (ForUs 6 f s.m → Does (.ylpRed link f) s (Replied link f 3 [] s.m s.m))) ∧
    ∀ op pa v m1, (f.size = 2 ∨ f.size = 3) → aopOf f.aop.toNat = some op → s.m.frameLine f .write 0 = .ok (.hbm pa) →
      s.m.cohAtom (pa / 64) f.dstPart.toNat op (faddN n) (f.addr.toNat % 64 / n * n) n (fieldAt (lineBytes d) 0 n) (fieldAt (lineBytes d) 8 n) (tl != .good) = .done (.old v) m1 →
      (ForUs 5 f s.m → Does (.ylpAtom link f) s (Replied link f 0 [(lineOf (leBytes 64 v), .good)] s.m (counted link f m1))) ∧
      (ForUs 6 f s.m → Does (.ylpRed link f) s (Replied link f 0 [] s.m (counted link f m1)))) ∧
  (∀ (link : Nat) (f : Frame) (s : State), ForUs 7 f s.m → Arrives link f s.m → Admitted f s.m →
    let core := f.addr.toNat % 2 ^ 21 / 256
    let e := f.addr.toNat % 256 / 8
    let takes := fun k => (s.m.krn k).live = true ∧ (s.m.krn k).part = f.dstPart.toNat ∧ (s.m.krn k).ctrKind e = 3 ∧ (s.m.bankOf k (clusterOf core)).isSome = true
    (∀ k, takes k → (∀ j, j ≠ k → takes j → (s.m.krn k).accepted < (s.m.krn j).accepted) →
      Does (.ylpEvt link f) s (Replied link f 0 [] s.m (counted link f (s.m.incCtr k core e (frameValue f 2))))) ∧
    ((∀ k, ¬ takes k) → Does (.ylpEvt link f) s (Replied link f 0 [] s.m (counted link f (s.m.notice f.dstPart.toNat 0 0))))) ∧
  (∀ (link : Nat) (f : Frame) (s : State), ForUs 8 f s.m → Arrives link f s.m → Admitted f s.m →
    let o := f.addr.toNat % 4096
    let key := 8 * s.m.vfKey f.dstPart.toNat + f.addr.toNat % 2 ^ 21 / 4096 % 8
    let c := s.m.chan key
    let serve := fun st m1 => Does (.ylpMbox link f) s (Replied link f st [] s.m m1)
    (o ≠ 0x100 → o ≠ 0x10 → serve 3 s.m) ∧
    (o = 0x100 → c.mode = true ∨ c.enable = false → serve 0 (counted link f (s.m.logAer (s.m.vfKey f.dstPart.toNat) 0))) ∧
    (o = 0x10 → c.mode = false ∨ c.enable = false → serve 0 (counted link f (s.m.logAer (s.m.vfKey f.dstPart.toNat) 0))) ∧
    (o = 0x100 → c.mode = false → c.enable = true → 16 ≤ c.inq.length → serve 2 s.m) ∧
    (o = 0x100 → c.mode = false → c.enable = true → c.inq.length < 16 → serve 0 (counted link f (s.m.acceptWord key (BitVec.ofNat 32 (frameValue f 4))))) ∧
    (o = 0x10 → c.mode = true → c.enable = true → 8 ≤ c.dbq.length → serve 2 s.m) ∧
    (o = 0x10 → c.mode = true → c.enable = true → c.dbq.length < 8 → serve 0 (counted link f (s.m.acceptDoorbell key (64 * (frameValue f 8 / 64)))))) ∧
  (∀ (link : Nat) (f : Frame) (s : State), ForUs 9 f s.m → Arrives link f s.m →
    let found := s.m.links.remotes.find? (fun r => r.tag == f.tag.toNat && r.frame.dst == f.src)
    (found = none → Does (.ylpCmp link f) s (Accepted link f s.m s.m)) ∧
    ∀ r, found = some r →
      let m1 := s.m.chargeRx (s.m.chargeable r.part) link (64 * f.lines.length)
      let gone := fun (x : Mach) => { x with links := { x.links with remotes := x.links.remotes.filter (fun y => y.tag != r.tag) } }
      (r.gone = true → Does (.ylpCmp link f) s (Accepted link f s.m (gone s.m))) ∧ (r.gone = false →
      (f.status = 0 → r.who = .none → Does (.ylpCmp link f) s (Accepted link f s.m (gone m1))) ∧
      (∀ id o, f.status = 0 → r.who = .mem id → s.m.ops.find? (fun o => o.id == id) = some o →
        Does (.ylpCmp link f) s (Accepted link f s.m ((gone m1).finishLanes o r f))) ∧
      (∀ id pos, f.status = 0 → r.who = .copy id pos → f.lines = [] → r.frame.op = 1 ∨ r.frame.op = 2 → Does (.ylpCmp link f) s (Accepted link f s.m (gone m1))) ∧
      (∀ id pos d m2, f.status = 0 → r.who = .copy id pos → r.frame.op = 3 ∨ r.frame.op = 4 → f.lines = [(d, .good)] →
        m1.copyScatter id pos (slice (lineBytes d) r.frame.first.toNat (r.frame.last.toNat + 1 - r.frame.first.toNat)) = .ok m2 →
        Does (.ylpCmp link f) s (Accepted link f s.m (gone m2))) ∧
      (∀ id pos, f.status = 7 → r.who = .copy id pos →
        Does (.ylpCmp link f) s (Accepted link f s.m ((gone m1).modCopy id (fun o => { o with status := some (7, 0) })))) ∧
      (∀ id o l ls, f.status = 7 → r.who = .mem id → s.m.ops.find? (fun o => o.id == id) = some o → lanesOfFrame o r.frame = l :: ls →
        Does (.ylpCmp link f) s (Accepted link f s.m ((gone m1).faultOp o 6 l))) ∧
      (f.status = 1 ∨ f.status = 2 → Does (.ylpCmp link f) s (Accepted link f s.m { m1 with links := { m1.links with
        remotes := m1.links.remotes.map (fun y => if y.tag == r.tag then
          { y with holding := true, busyAt := if y.busyAt = 0 then s.m.now + 1 else y.busyAt, flown := y.flown + (s.m.now - y.sentAt), sentAt := s.m.now } else y) } })) ∧
      (f.status.toNat = 3 ∨ f.status.toNat = 4 ∨ f.status.toNat = 10 → CanAbort r.krn s.m → Does (.ylpCmp link f) s (fun t =>
        RemoteAborted r.krn f.status.toNat s.m t ∧ ∀ y ∈ t.links.remotes, y.tag ≠ r.tag)))) ∧
  (∀ (link : Nat) (f : Frame) (s : State), link < 12 → ForUs 2 f s.m → Arrives link f s.m →
    let route := s.m.routeOf true f.dst.toNat
    let on := (s.m.upLinks route).filter (fun l => l != link)
    let next := { f with hops := f.hops - 1 }
    (route.isLocal = false → on = [] → Does (.ylpMput link f) s (Accepted link f s.m s.m)) ∧
    (route.isLocal = false → on ≠ [] → f.hops = 1 → Does (.ylpMput link f) s (Accepted link f s.m (s.m.countDrop link))) ∧
    (route.isLocal = false → on ≠ [] → f.hops ≠ 1 → (∀ l ∈ on, s.m.hasRoom l next = true) →
      Does (.ylpMput link f) s (Accepted link f s.m (on.foldl (fun m l => m.transmit l next) s.m))) ∧
    (route.isLocal = true → on = [] → f.src.toNat = s.m.links.devId → Does (.ylpMput link f) s (Accepted link f s.m s.m)) ∧
    (route.isLocal = true → on = [] → f.src.toNat ≠ s.m.links.devId → s.m.turnedAway f ≠ none →
      Does (.ylpMput link f) s (Accepted link f s.m (s.m.linkEvent 10 link f.dstPart.toNat))) ∧
    ∀ m1, route.isLocal = true → f.src.toNat ≠ s.m.links.devId → Admitted f s.m → s.m.servePut f = .answer 0 [] m1 → let m2 := counted link f m1
      (m2.upLinks (m2.routeOf true f.dst.toNat)).filter (fun l => l != link) = [] → Does (.ylpMput link f) s (Accepted link f s.m m2)) ∧
  ∀ (link : Nat) (f : Frame) (s : State), link < 12 → Arrives link f s.m →
    (11 ≤ f.op.toNat → Does (.ylpTransit link f) s (Accepted link f s.m (s.m.countDrop link))) ∧
    (f.mc = false → f.dst.toNat ≠ s.m.links.devId → 1 ≤ f.op.toNat → f.op.toNat ≤ 9 →
      (f.hops.toNat ≤ 1 → Does (.ylpTransit link f) s (Accepted link f s.m (s.m.countDrop link))) ∧
      ∀ l, 1 < f.hops.toNat → let next := { f with hops := f.hops - 1 }
        s.m.upLinks (s.m.routeOf false f.dst.toNat) = [l] → s.m.hasRoom l next = true →
        Does (.ylpTransit link f) s (fun t => ∃ m2, Accepted link f s.m m2 t ∧
          m2 = { s.m with links := { s.m.links with peers := m2.links.peers, links := m2.links.links, flows := m2.links.flows }, out := m2.out } ∧
          let k := s.m.peerKeyOf l next
          let held := { next with seq := (s.m.peer k).txSeq, vc := if (s.m.routeOf false f.dst.toNat).dateline then f.vc ||| 1 else f.vc }
          (m2.peer k).buf = (s.m.peer k).buf ++ [held] ∧ ((s.m.ylink l).st ≠ .up → m2.out = s.m.out) ∧
          ((s.m.ylink l).st = .up → m2.out = framedOn s.m l held (s.m.peer k) :: s.m.out)))

namespace Sys2Proof.Claims

/-- The rows of LINK.CONFIG by the mode each sets. -/
def linkRow (e : (Fn → Nat → Instr) × Nat) : Prop :=
  e ∈ ([(.linkConfigOff, 0), (.linkConfigYlpDirect, 1), (.linkConfigYlpUdp, 2)] : List ((Fn → Nat → Instr) × Nat))

/-- A retry state after `n` more frames have been sent: only its counters advance. -/
def countedBy : Nat → Peer → Peer
  | 0, p => p
  | n + 1, p => countedBy n p.count

/-- The frames of retry state `k` have been sent again, in order (R423). -/
def Resent (k : Nat) (m t : Mach) : Prop :=
  let p := m.peer k
  (∃ sent : List Output, t = { m with links := { m.links with peers := t.links.peers, links := t.links.links }, parts := t.parts, out := sent.reverse ++ m.out } ∧
      sent.length = p.buf.length ∧ ∀ i f, p.buf[i]? = some f → sent[i]? = some (framedOn m p.link f (countedBy i p))) ∧
    (∀ q, t.part q = { m.part q with buckets := (t.part q).buckets }) ∧
    (∀ j, j ≠ k → t.peer j = m.peer j) ∧ t.peer k = { countedBy p.buf.length p with tries := p.tries + 1, lastTx := m.now } ∧
    ∀ l, t.ylink l = if l = p.link then { m.ylink l with retries := (m.ylink l).retries + 1, sent := (m.ylink l).sent + total (p.buf.map frameLen) } else m.ylink l

/-- The device follows the best Announce among its links that carry frames: the lowest grandmaster, then the fewest hops; itself where none is lower
(R441, R443). -/
def Elected (t : Mach) : Prop :=
  let y := t.links
  let heard := fun l => tget 0 y.heard l
  let candidate := fun l => l < 12 ∧ (t.ylink l).carries = true ∧ heard l ≠ 0
  ((∀ l, candidate l → y.devId ≤ (heard l - 1) / 64) → y.gm = y.devId ∧ y.hops = 0 ∧ y.parent = 0 ∧ y.locked = false) ∧
  ((∃ l, candidate l ∧ (heard l - 1) / 64 < y.devId) → ∃ l, candidate l ∧ y.parent = l + 1 ∧ y.gm = (heard l - 1) / 64 ∧
    y.hops = Nat.min 31 ((heard l - 1) % 64 + 1) ∧ ∀ j, candidate j → heard l ≤ heard j)

/-- A link has gone down, no frame waiting in any retry state: the Announces it brought count no longer, the lock with a parent there is
lost, and with no link left the device follows itself (R436, R443). -/
def Downed (l : Nat) (m t : Mach) : Prop :=
  t = { m with links := { m.links with links := t.links.links, heard := t.links.heard, peers := t.links.peers, locked := t.links.locked, within := t.links.within,
                                       gm := t.links.gm, hops := t.links.hops, parent := t.links.parent, offset := t.links.offset } } ∧
    ((∃ k, k < 12 ∧ (t.ylink k).carries = true) → (t.links.gm, t.links.hops, t.links.parent, t.links.offset) = (m.links.gm, m.links.hops, m.links.parent, m.links.offset) ∧
      t.links.locked = (m.links.locked && m.links.parent != l + 1) ∧ t.links.within = (if m.links.parent = l + 1 then 0 else m.links.within)) ∧
    ((∀ k, k < 12 → (t.ylink k).carries = false) → Elected t ∧ t.links.offset = 0) ∧
    (∀ k, k ≠ l → k < 12 ∨ (m.peer k).link ≠ l ∨ k = loopKey → t.peer k = m.peer k) ∧
    (∀ k, t.ylink k = if k = l then { m.ylink k with st := .down, degrading := false } else m.ylink k) ∧
    (∀ k, tget 0 t.links.heard k = if k = l then 0 else tget 0 m.links.heard k) ∧ t.peer l = Peer.reset

end Sys2Proof.Claims

/-- O53: link configuration, routes, status, retries, failures, degradation and fabric time (R418, R423, R424, R429 to R431, R433, R436,
R437, R441 to R443). Choices and readings of the model: logs 70 to 74, 2. -/
def Obligations.ScaleOutLinks : Prop :=
  (∀ e, linkRow e → ∀ (ch : Nat) (s : State) (c : Cmd) (m1 : Mach), Sent 0x0C01 (.pf 0) ch c s.m m1 → Framed 8 0 [(0, 1), (1, 1), (2, 2), (4, 4)] c →
    c.f 1 1 = e.2 →
    let l := c.f 0 1
    let id := c.f 4 4
    let answer := fun off => Does (e.1 (.pf 0) ch) s (fun t => Answered (.pf 0) ch c 3 off [] m1 t ∧ OnlyChans m1 t)
    let others := ∃ k, k < 12 ∧ k ≠ l ∧ (m1.ylink k).mode ≠ 0 ∧ m1.links.devId ≠ id
    (12 ≤ l → answer 0) ∧ (l < 12 → 2 ^ 17 ≤ id ∨ others → answer 4) ∧
    (l < 12 → id < 2 ^ 17 → ¬ others → (m1.ylink l).st = .down ∨ (∀ k, (m1.peer k).buf = []) →
      Does (e.1 (.pf 0) ch) s (fun t => Answered (.pf 0) ch c 0 0 [] m1 t ∧ OnlyChans { m1 with links := t.links } t ∧
        (t.ylink l).st = (if e.2 = 0 then .down else .training) ∧ (t.ylink l).mode = e.2 ∧ (t.ylink l).port = (if c.f 2 2 = 0 then 47931 else c.f 2 2) ∧
        (t.ylink l).lanes = 4 ∧ (t.ylink l).bad = 0 ∧ (t.ylink l).since = m1.now ∧ (∀ k, k ≠ l → t.ylink k = m1.ylink k) ∧
        (t.ylink l).pfx = (if e.2 ≠ 2 then (m1.ylink l).pfx else if m1.sec.loaded = 2 then m1.sec.vaultB.pfx else if m1.sec.loaded = 1 then m1.sec.vaultA.pfx else 0) ∧
        (t.ylink l).fabric = (if m1.sec.loaded = 2 then m1.sec.vaultB.fabric else if m1.sec.loaded = 1 then m1.sec.vaultA.fabric else 0) ∧ (e.2 ≠ 0 → Elected t) ∧
        t.links.devId = (if e.2 = 0 then m1.links.devId else id) ∧ tfind t.links.recs l = some (e.2, c.f 2 2, id)))) ∧
  (∀ (ch : Nat) (s : State) (c : Cmd) (m1 : Mach), Sent 0x0C01 (.pf 0) ch c s.m m1 → Framed 8 0 [(0, 1), (1, 1), (2, 2), (4, 4)] c → 3 ≤ c.f 1 1 → c.f 0 1 < 12 →
    Does (.linkConfigYlpUdp (.pf 0) ch) s (fun t => Answered (.pf 0) ch c 3 1 [] m1 t ∧ OnlyChans m1 t)) ∧
  (∀ (ch : Nat) (s : State) (c : Cmd) (m1 : Mach), Sent 0x0C02 (.pf 0) ch c s.m m1 → Framed 16 0 [(0, 4), (4, 4), (8, 8)] c →
    let group := decide (2 ^ 31 ≤ c.f 0 4)
    let id := c.f 0 4 % 2 ^ 31
    let n := c.f 4 4
    ((if group then 4096 else 131072) < id + n → Does (.linkRouteSet (.pf 0) ch) s (fun t => Answered (.pf 0) ch c 3 0 [] m1 t ∧ OnlyChans m1 t)) ∧
    (id + n ≤ (if group then 4096 else 131072) →
      (m1.vread 65 (c.f 8 8) (32 * n) .read = .fault → Does (.linkRouteSet (.pf 0) ch) s (fun t => Answered (.pf 0) ch c 3 8 [] m1 t ∧ OnlyChans m1 t)) ∧
      ∀ m2, m1.vread 65 (c.f 8 8) (32 * n) .read = .poisoned m2 → Does (.linkRouteSet (.pf 0) ch) s (fun t => Answered (.pf 0) ch c 7 0 [] m2 t ∧ OnlyChans m2 t)) ∧
    ∀ b m2, id + n ≤ (if group then 4096 else 131072) → m1.vread 65 (c.f 8 8) (32 * n) .read = .ok b m2 →
      Does (.linkRouteSet (.pf 0) ch) s (fun t => Answered (.pf 0) ch c 0 0 [] m2 t ∧ OnlyChans { m2 with links := t.links } t ∧
        let put := fun (x y : Tbl Route) => ∀ k, tget route0 y k = if id ≤ k ∧ k < id + n then routeEntry (slice b (32 * (k - id)) 32) else tget route0 x k
        (group = true → put m2.links.group t.links.group ∧ put m2.links.recGrp t.links.recGrp ∧ t.links.unicast = m2.links.unicast) ∧
        (group = false → put m2.links.unicast t.links.unicast ∧ put m2.links.recUni t.links.recUni ∧ t.links.group = m2.links.group))) ∧
  (∀ (l ch : Nat) (s : State) (c : Cmd) (m1 : Mach), Sent 0x0C03 (.pf l) ch c s.m m1 → Framed 1 16 [(0, 1)] c →
    (12 ≤ c.f 0 1 → Does (.linkStatus (.pf l) ch) s (fun t => Answered (.pf l) ch c 3 0 [] m1 t ∧ OnlyChans m1 t)) ∧
    (c.f 0 1 < 12 → Does (.linkStatus (.pf l) ch) s (fun t => OnlyChans m1 t ∧ ∃ r, Answered (.pf l) ch c 0 0 r m1 t ∧ r.length = 16 ∧
      fieldAt r 0 1 = (match (m1.ylink (c.f 0 1)).st with | .down => 0 | .training => 1 | .up => 2) ∧ fieldAt r 1 1 = (m1.ylink (c.f 0 1)).lanes % 256 ∧
      fieldAt r 4 4 = (m1.ylink (c.f 0 1)).retries % 2 ^ 32 ∧ fieldAt r 8 8 = (m1.ylink (c.f 0 1)).sent % 2 ^ 64))) ∧
  (∀ (tag : Nat) (s : State) (r : Remote), s.m.links.remotes.find? (fun x => x.tag == tag) = some r →
    let gone := fun (t : Mach) => RemoteAborted r.krn 10 s.m t ∧ ∀ y ∈ t.links.remotes, y.tag ≠ tag
    (r.busyAt ≠ 0 → r.busyAt - 1 + 1000000000 ≤ s.m.now → CanAbort r.krn s.m → Does (.remoteBusyLimit tag) s gone) ∧
    (s.m.now < r.busyAt - 1 + 1000000000 → Does (.remoteBusyLimit tag) s (fun t => t = s.m)) ∧
    (r.holding = false → 10000000 ≤ r.flown + (s.m.now - r.sentAt) → CanAbort r.krn s.m → Does (.remoteCmpTimeout tag) s gone) ∧
    (r.holding = true ∨ r.flown + (s.m.now - r.sentAt) < 10000000 → Does (.remoteCmpTimeout tag) s (fun t => t = s.m)) ∧
    (r.gone = true ∨ r.holding = false ∨ s.m.now < r.sentAt + 10000 ∨ r.busyAt - 1 + 1000000000 ≤ s.m.now → Does (.remoteResend tag) s (fun t => t = s.m)) ∧
    (r.gone = false → r.holding = true → r.sentAt + 10000 ≤ s.m.now → s.m.now < r.busyAt - 1 + 1000000000 →
      (s.m.egress r.frame (s.m.chargeable r.part) true = .full → Does (.remoteResend tag) s (fun t => t = s.m)) ∧
      (s.m.egress r.frame (s.m.chargeable r.part) true = .noRoute → CanAbort r.krn s.m → Does (.remoteResend tag) s (fun t =>
        RemoteAborted r.krn 3 s.m t ∧ ∀ y ∈ t.links.remotes, y.tag ≠ tag))) ∧
    ∀ m2, r.gone = false → r.holding = true → r.sentAt + 10000 ≤ s.m.now → s.m.now < r.busyAt - 1 + 1000000000 → s.m.egress r.frame (s.m.chargeable r.part) true = .sent m2 →
      Does (.remoteResend tag) s (fun t => t = { m2 with links := { m2.links with
        remotes := m2.links.remotes.map (fun y => if y.tag == tag then { y with holding := false, sentAt := s.m.now } else y) } })) ∧
  (∀ (k : Nat) (seq : BitVec 12) (s : State), k < 12 + 2 ^ 17 + 4096 →
    let p := s.m.peer k
    (∀ a f rest, p.buf = a ++ f :: rest → (∀ x ∈ a, x.seq ≠ seq) → f.seq = seq →
      let acked := fun (t : Mach) => t = { s.m with links := { s.m.links with peers := t.links.peers } } ∧
        ∀ j, t.peer j = if j = k then { s.m.peer j with buf := rest, tries := 0, lastTx := s.m.now } else s.m.peer j
      Does (.ylpAck k seq false) s acked ∧ Does (.ylpAck k seq true) s (fun t =>
        if rest = [] ∨ (s.m.ylink p.link).st ≠ .up then acked t else ∃ m1, acked m1 ∧ Resent k m1 t)) ∧
    ((∀ x ∈ p.buf, x.seq ≠ seq) → Does (.ylpAck k seq false) s (fun t => t = s.m) ∧
      (p.buf ≠ [] → (s.m.ylink p.link).st = .up → Does (.ylpAck k seq true) s (Resent k s.m))) ∧
    (p.buf ≠ [] → p.lastTx + 4000 ≤ s.m.now → (s.m.ylink p.link).st = .up → Does (.ylpRetryTimeout k) s (Resent k s.m)) ∧
    (p.buf = [] ∨ s.m.now < p.lastTx + 4000 ∨ (s.m.ylink p.link).st ≠ .up → Does (.ylpRetryTimeout k) s (fun t => t = s.m)) ∧
    (p.tries < 64 → p.gcm < 16 → Does (.linkRetryFail k) s (fun t => t = s.m)) ∧
    (12 ≤ k → 64 ≤ p.tries ∨ 16 ≤ p.gcm → p.buf = [] → s.m.moon.restart = 0 → Does (.linkRetryFail k) s (fun t =>
      t = { s.m with links := { s.m.links with peers := t.links.peers }, ras := t.ras } ∧ (∀ j, t.peer j = if j = k then Peer.reset else s.m.peer j) ∧
      ∃ r, t.ras.ring.head? = some r ∧ (r.code, r.sev) = Config.rasCode 2 ∧ r.place = p.link))) ∧
  (∀ (l : Nat) (s : State), l < 12 →
    let quiet := ∀ k, (s.m.peer k).buf = []
    let x := s.m.ylink l
    (x.st ≠ .down → quiet → Does (.linkDown l) s (Downed l s.m)) ∧ (x.st = .down → Does (.linkDown l) s (fun t => t = s.m)) ∧
    (∀ f other, x.st ≠ .down → (s.m.peer l).buf = [f] → (∀ k, k ≠ l → (s.m.peer k).buf = []) → f.mc = false →
      (∃ n ∈ [1, 3, 4, 9], f.op.toNat = n) → (s.m.upLinks (s.m.routeOf false f.dst.toNat)).filter (fun k => k != l) = [other] → (s.m.ylink other).mode ≠ 2 →
      let kept := { f with seq := (s.m.peer other).txSeq, vc := if (s.m.routeOf false f.dst.toNat).dateline then f.vc ||| 1 else f.vc }
      Does (.linkDown l) s (fun t => (t.ylink l).st = .down ∧ (t.peer other).buf = [kept] ∧
        t.out = (if (s.m.ylink other).st = .up then [framedOn s.m other kept (s.m.peer other)] else []) ++ s.m.out)) ∧
    (∀ f r, x.st ≠ .down → (s.m.peer l).buf = [f] → (∀ k, k ≠ l → (s.m.peer k).buf = []) → (∃ n ∈ [5, 6, 7, 8], f.op.toNat = n) →
      f.src.toNat = s.m.links.devId → s.m.links.remotes.find? (fun r => r.tag == f.tag.toNat && r.frame.op == f.op && r.frame.dst == f.dst) = some r →
      CanAbort r.krn s.m → Does (.linkDown l) s (fun t => (t.ylink l).st = .down ∧ RemoteAborted r.krn 10 s.m t)) ∧
    ((64 ≤ (s.m.peer l).tries ∨ 16 ≤ (s.m.peer l).gcm) → quiet → s.m.moon.restart = 0 → Does (.linkRetryFail l) s (fun t =>
      Downed l s.m { t with ras := s.m.ras } ∧ ∃ r, t.ras.ring.head? = some r ∧ (r.code, r.sev) = Config.rasCode 2 ∧ r.place = l)) ∧
    (∀ lane, lane < 4 → x.carries = false ∨ x.inUse lane = false → Does (.linkDegrade l lane) s (fun t => t = s.m)) ∧
    (∀ lane, lane < 4 → x.carries = true → x.inUse lane = true → s.m.moon.restart = 0 →
      let bad := x.bad ||| (1#4 <<< lane)
      let pair := (bad.getLsbD 0 = false ∧ bad.getLsbD 1 = false) ∨ (bad.getLsbD 2 = false ∧ bad.getLsbD 3 = false)
      (pair → Does (.linkDegrade l lane) s (fun t => Logged 0x27 2 t ∧
        ∀ k, t.ylink k = if k = l then { s.m.ylink k with bad := bad, st := .training, degrading := true, lanes := 2, since := s.m.now } else s.m.ylink k)) ∧
      (¬ pair → quiet → Does (.linkDegrade l lane) s (fun t => Logged 0x27 2 t ∧ (t.ylink l).st = .down ∧ ∀ k, k ≠ l → t.ylink k = s.m.ylink k))) ∧
    (x.st = .training → s.m.linksMayTrain = true → x.degrading = false → Does (.linkUp l) s (fun t =>
      t = { s.m with links := { s.m.links with links := t.links.links, peers := t.links.peers } } ∧ t.peer l = Peer.reset ∧
      ∀ k, t.ylink k = if k = l then { s.m.ylink k with st := .up } else s.m.ylink k)) ∧
    (x.st = .training → s.m.linksMayTrain = true → x.degrading = true → quiet → Does (.linkUp l) s (fun t =>
      t = { s.m with links := { s.m.links with links := t.links.links } } ∧
      ∀ k, t.ylink k = if k = l then { s.m.ylink k with st := .up, degrading := false } else s.m.ylink k)) ∧
    (x.st = .training → s.m.linksMayTrain = true → x.degrading = true → (s.m.peer l).buf ≠ [] → (s.m.peer l).link = l → (∀ k, k ≠ l → (s.m.peer k).buf = []) →
      Does (.linkUp l) s (fun t => ∃ m1, m1 = { s.m with links := { s.m.links with links := m1.links.links } } ∧ Resent l m1 t ∧
        ∀ k, m1.ylink k = if k = l then { s.m.ylink k with st := .up, degrading := false } else s.m.ylink k)) ∧
    (x.st ≠ .training ∨ s.m.linksMayTrain = false → Does (.linkUp l) s (fun t => t = s.m)) ∧
    (x.st = .training → x.since + 100000000 ≤ s.m.now → Does (.linkTrainingRetry l) s (fun t =>
      t = { s.m with links := { s.m.links with links := t.links.links } } ∧ ∀ k, t.ylink k = if k = l then { s.m.ylink k with since := s.m.now, fabric := if x.degrading then x.fabric else (s.m.vault.map (·.fabric)).getD 0 } else s.m.ylink k)) ∧
    (x.st ≠ .training ∨ s.m.now < x.since + 100000000 → Does (.linkTrainingRetry l) s (fun t => t = s.m)) ∧
    (∀ src gm hops, x.st = .up → src ≠ s.m.links.devId → Does (.ylpTime l (.announce src gm hops)) s (fun t => Elected t ∧ t.links.devId = s.m.links.devId ∧
      t = { s.m with links := { s.m.links with
        heard := t.links.heard, gm := t.links.gm, hops := t.links.hops, parent := t.links.parent, locked := t.links.locked, within := t.links.within, offset := t.links.offset } } ∧
      ∀ k, tget 0 t.links.heard k = if k = l then 64 * (gm % 2 ^ 17) + hops % 64 + 1 else tget 0 s.m.links.heard k)) ∧
    (∀ src offset, x.st = .up → src ≠ s.m.links.devId →
      (s.m.links.parent ≠ l + 1 → Does (.ylpTime l (.measure src offset)) s (fun t => t = s.m)) ∧
      (s.m.links.parent = l + 1 → Does (.ylpTime l (.measure src offset)) s (fun t =>
        t = { s.m with links := { s.m.links with err := offset, offset := s.m.links.offset + offset, within := t.links.within, locked := t.links.locked } } ∧
        (20 < offset.natAbs → t.links.within = 0 ∧ t.links.locked = false) ∧
        (offset.natAbs ≤ 20 → s.m.links.within = 0 → t.links.within = s.m.now + 1 ∧ t.links.locked = false) ∧
        (offset.natAbs ≤ 20 → s.m.links.within ≠ 0 → t.links.within = s.m.links.within ∧ t.links.locked = decide (s.m.links.within - 1 + 1000000000 ≤ s.m.now))))) ∧
    (∀ msg, x.st ≠ .up → Does (.ylpTime l msg) s (fun t => t = s.m)) ∧
    (x.st = .up → s.m.moon.restart = 0 → s.m.links.parent ≠ l + 1 → ∀ offset, Does (.ylpTime l (.measure s.m.links.devId offset)) s (fun t =>
      t = { s.m with ras := t.ras } ∧ ∃ r, t.ras.ring.head? = some r ∧ (r.code, r.sev) = Config.rasCode 1))) ∧
  (∀ s : State, (s.m.links.parent ≠ 0 → (s.m.ylink (s.m.links.parent - 1)).carries = false → Does .tideParentLinkDown s Elected) ∧
    (s.m.links.parent = 0 ∨ (s.m.ylink (s.m.links.parent - 1)).carries = true → Does .tideParentLinkDown s (fun t => t = s.m))) ∧
  ∀ (die : Nat) (s : State), die < 2 → (∀ k, (s.m.peer k).buf = []) → Does (.linkRefclkLoss die) s (fun t =>
    ∀ k, t.ylink k = if k / 6 = die then { s.m.ylink k with st := .down, degrading := if (s.m.ylink k).st = .down then (s.m.ylink k).degrading else false } else s.m.ylink k)

namespace Sys2Proof.Claims

/-- Of the device only the channels and partition `p`'s table of sequences and step builder change; a captured command that has been taken
leaves its list (R373). -/
def OnlySeqs (p : Nat) (m t : Mach) : Prop :=
  OnlyChans { m with parts := t.parts } t ∧ ∀ q, { t.part q with captured := (m.part q).captured } =
    if q = p then { m.part p with seqs := (t.part p).seqs, sb := (t.part p).sb } else m.part q

/-- Only entry `e` of partition `p`'s sequence table changes, and becomes `x`. -/
def OnlySeq (p e : Nat) (x : SeqEntry) (m t : Mach) : Prop := t.seq p e = x ∧ ∀ p' e', (p', e') ≠ (p, e) → t.seq p' e' = m.seq p' e'

/-- The commands over a configured partition's sequences: constructor, operation code, fields, length (R394). -/
def seqRow (e : (Fn → Nat → Instr) × Nat × List (Nat × Nat) × Nat) : Prop :=
  e ∈ ([(.seqAdmit, 0x0602, [(0, 4), (8, 8)], 16), (.seqToken, 0x0603, [(0, 4), (4, 4)], 8), (.seqPause, 0x0604, [(0, 4)], 4),
    (.seqResume, 0x0605, [(0, 4)], 4), (.seqCancel, 0x0606, [(0, 4)], 4), (.seqStep, 0x0607, [(0, 8), (8, 4)], 12)] :
    List ((Fn → Nat → Instr) × Nat × List (Nat × Nat) × Nat))

/-- The three commands on one entry, and what each does to it and where it waits for the boundary (R392, R403). -/
def editRow (e : (Fn → Nat → Instr) × Nat × (SeqEntry → SeqEntry) × (Nat → Boundary)) : Prop :=
  e ∈ ([(.seqPause, 0x0604, fun x => { x with st := .paused, prev := if x.st = .paused then x.prev else x.st, hold := true }, .pause),
    (.seqResume, 0x0605, fun x => if x.hold = true then { x with hold := false, st := if x.st = .paused ∧ x.draw = false ∧ x.stop = 0 then x.prev else x.st } else x, .resume),
    (.seqCancel, 0x0606, fun x => { x with st := .retiring, stop := if x.stop = 0 then 5 else x.stop, hold := false, draw := false, status := if x.keyValid = false ∧ x.hostMode = false then 12 else 0, detail := 0 }, .cancel)] :
    List ((Fn → Nat → Instr) × Nat × (SeqEntry → SeqEntry) × (Nat → Boundary)))

/-- The fields of a sequence descriptor with the ranges that Table 15.3 gives them, in order, each at its offset. -/
def descFields (d : List Byte) (ctxMax vocab : Nat) : List (Nat × Prop) :=
  let flags := fieldAt d 36 4
  let stop := fun i => fieldAt d (64 + 4 * i) 4
  [ (8, fieldAt d 8 8 % 4 = 0 ∧ fieldAt d 8 8 < 2 ^ 52), (16, 1 ≤ fieldAt d 16 4 ∧ fieldAt d 16 4 + 1 ≤ ctxMax), (20, 1 ≤ fieldAt d 20 4),
    (24, fieldAt d 24 8 % 64 = 0 ∧ fieldAt d 24 8 < 2 ^ 52), (32, 1 ≤ fieldAt d 32 4), (36, flags / 4 % 4 = 0 ∧ flags / 16 ≤ 8),
    (40, fieldAt d 40 4 < 0x7F800000 ∨ fieldAt d 40 4 = 2 ^ 31),
    (44, if flags % 2 = 1 then 1 ≤ fieldAt d 44 4 ∧ fieldAt d 44 4 ≤ 4096 else fieldAt d 44 4 = 0),
    (64, ∀ i, i < 8 → if i < flags / 16 then stop i < vocab else stop i = 0), (96, fieldAt d 96 8 % 8 = 0 ∧ fieldAt d 96 8 < 2 ^ 52),
    (104, fieldAt d 104 4 ≤ 65535), (108, ∀ i, 108 ≤ i → i < 128 → nth 0 d i = 0) ]

/-- Every field of a descriptor is in its range. -/
def DescInRange (d : List Byte) (ctxMax vocab : Nat) : Prop := ∀ e ∈ descFields d ctxMax vocab, e.2

/-- The field at `off` is the first of a descriptor that is out of its range. -/
def FirstOutOfRange (off : Nat) (d : List Byte) (ctxMax vocab : Nat) : Prop :=
  ∃ pre range post, descFields d ctxMax vocab = pre ++ (off, range) :: post ∧ (∀ e ∈ pre, e.2) ∧ ¬ range

/-- The stop reason of an entry that holds `n` tokens, the last of them `token` (R396). -/
def StopIs (x : SeqEntry) (n ctxMax token stop : Nat) : Prop :=
  stop = if token ∈ x.stops then 1 else if n = x.maxNew then 2 else if n = x.outMax then 3 else if ctxMax ≤ x.promptLen + n then 4 else 0

/-- A token is appended to the output area of an entry: its slot, the Tide, then the count (R395). -/
def Appended (p : Nat) (x : SeqEntry) (token : Nat) (m m3 : Mach) : Prop :=
  ∃ a b, m.vwrite p (x.out + 64 + 4 * x.tokens) (leBytes 4 token) = .ok a ∧ a.vwrite p (x.out + 16) (leBytes 8 a.now) = .ok b ∧
    b.vwrite p (x.out + 12) (leBytes 4 (x.tokens + 1)) = .ok m3

/-- No entry of partition `p` waits to be retired or has met a stop condition. -/
def NoneStops (p : Nat) (m : Mach) : Prop := ∀ e ∈ tkeys (m.part p).seqs, (m.seq p e).st ≠ .retiring ∧ (m.seq p e).stop = 0

/-- Element `i` of SEQ.STEP's list may run as position `w` (R405). -/
def Listed (p : Nat) (d : List Byte) (i : Nat) (w : WorkPos) (m : Mach) : Prop :=
  let e := fieldAt d (8 * i) 4
  let n := fieldAt d (8 * i + 4) 2
  let x := m.seq p e
  fieldAt d (8 * i + 6) 2 = 0 ∧ e < 64 * (m.part p).granules ∧
    ((x.st = .decode ∧ n = 0 ∧ w = { entry := e, pos := x.promptLen + x.tokens - 1, count := 1, sample := true }) ∨
     (x.st = .prefill ∨ x.st = .admitted) ∧ 0 < n ∧ x.processed + n ≤ x.promptLen ∧
      w = { entry := e, pos := x.processed, count := n, sample := decide (x.processed + n = x.promptLen) })

/-- A step has begun in partition `p`: its list is held, none of its nodes is launched, and its ADMITTED entries are in PREFILL. -/
def StepBegun (p : Nat) (l : List WorkPos) (m t : Mach) : Prop :=
  (t.part p).sb = { (m.part p).sb with running := true, list := l, launched := [], done := [], failed := false, applied := 0, stamp := (m.part p).sb.stamp + 1, ranStep := true, ranPrefill := (t.part p).sb.ranPrefill, predicted := (t.part p).sb.predicted, predValid := (t.part p).sb.predValid } ∧
    (∀ e, t.seq p e = if ∃ w ∈ l, w.entry = e then { m.seq p e with st := if (m.seq p e).st = .admitted then .prefill else (m.seq p e).st, lastRun := (m.part p).sb.stamp + 1 } else m.seq p e) ∧
    ∀ q, { t.part q with captured := (m.part q).captured } = if q = p then { m.part p with seqs := (t.part p).seqs, sb := (t.part p).sb } else m.part q

/-- The work list of a step in bytes (Table 15.6). -/
def listBytes (p : Nat) (l : List WorkPos) (m : Mach) : List Byte :=
  let b := (m.part p).sb
  let zeros := fun n => List.replicate n (0 : Byte)
  leBytes 8 b.step ++ leBytes 4 l.length ++ leBytes 4 (total (l.map (·.count))) ++ zeros 48 ++ l.flatMap (fun w =>
    let x := m.seq p w.entry
    leBytes 4 w.entry ++ leBytes 4 w.pos ++ leBytes 4 w.count ++ leBytes 4 ((if w.sample then 1 else 0) + (if x.hostMode then 2 else 0)) ++
      leBytes 8 x.desc ++ leBytes 16 x.key.toNat ++ leBytes 4 (w.pos + w.count) ++ leBytes 4 x.temp.toNat ++ zeros 16)

/-- The running step of partition `p` is over: the step number has risen and vector 2 is raised (R404). -/
def StepEnded (p : Nat) (m t : Mach) : Prop :=
  (t.part p).sb = { (m.part p).sb with running := false, list := [], launched := [], done := [], failed := false, applied := 0, step := (m.part p).sb.step + 1, predicted := (t.part p).sb.predicted } ∧
    (t.part p).irqCause.getLsbD 2 = true ∧ (t.part p).boundary = (if (m.part p).freezing = 0 then (m.part p).boundary else m.now) ∧
    ∀ c ∈ m.clustersOf p, (t.clu c).idleSince = m.now

/-- An entry is still being retired, or a write of the step is outstanding: the step does not end yet (R283, R404). -/
def EndWaits (p : Nat) (t : Mach) : Prop := (∃ e ∈ tkeys (t.part p).seqs, (t.seq p e).st = .retiring) ∨ t.stepWrites p = true

/-- An entry of a failed step is FREE, or retires with ABORTED and STOP_REASON 6 (R414, R416). -/
def Lost (x : SeqEntry) : Prop := x.st = .free ∨ (x.st = .retiring ∧ x.stop = 6 ∧ x.status = 9)

end Sys2Proof.Claims

/-- O54: SEQ.CONFIG, ADMIT, TOKEN, PAUSE, RESUME and CANCEL (R392 to R398, R402, R403, R412, R413). Choices and readings of the model:
logs 84 to 86. -/
def Obligations.SequenceCommands : Prop :=
  (∀ (fn : Fn) (p ch : Nat) (s : State) (c : Cmd) (m1 : Mach), Sent 0x0601 fn ch c s.m m1 → p = spaceOf fn → Framed 28 0 [(0, 4), (4, 1), (8, 16), (24, 4)] c →
    let q := m1.part p
    let answer := fun st d => Does (.seqConfig fn ch) s (fun t => Answered fn ch c st d [] m1 t ∧ OnlyChans m1 t)
    ((∀ k ∈ q.kgis, k.handle ≠ c.f 0 4) → answer 3 0) ∧
    ∀ k, q.kgis.find? (fun k => k.handle == c.f 0 4) = some k → c.f 4 1 ≤ 1 → c.f 24 4 ≤ 1 →
      let g := k.graph
      let b := fieldAt g 0 4
      (q.seqs ≠ [] ∨ q.sb.running = true → answer 1 0) ∧
      (q.seqs = [] → q.sb.running = false → (b = 0 ∨ 4096 < b → answer 3 0) ∧ (1 ≤ b → b ≤ 4096 →
        (fieldAt g 4 4 < b + 1 → answer 3 4) ∧ (b + 1 ≤ fieldAt g 4 4 → (fieldAt g 8 4 = 0 → answer 3 8) ∧ (1 ≤ fieldAt g 8 4 →
        (fieldAt g 12 4 = 0 → answer 3 12) ∧ (1 ≤ fieldAt g 12 4 →
        (m1.mappedFor p .write (fieldAt g 16 8) (64 + 64 * b) = false → answer 3 16) ∧
        (m1.mappedFor p .write (fieldAt g 16 8) (64 + 64 * b) = true →
        (m1.mappedFor p .write (fieldAt g 24 8) (4 * fieldAt g 12 4 * b) = false → answer 3 24) ∧
        (m1.mappedFor p .write (fieldAt g 24 8) (4 * fieldAt g 12 4 * b) = true →
        (fieldAt g 34 2 = 0 ∨ 256 < fieldAt g 34 2 ∨ g.length < 64 + 64 * fieldAt g 34 2 → answer 3 34) ∧
        (1 ≤ fieldAt g 34 2 → fieldAt g 34 2 ≤ 256 → 64 + 64 * fieldAt g 34 2 ≤ g.length →
          let node := fun i off n => fieldAt g (64 + 64 * i + off) n
          let bad := fun i => k.kernels.length ≤ node i 0 4 ∨ node i 4 4 ≠ 0 ∨ 2 ^ (m1.clustersOf p).length ≤ node i 8 8 ∨ 8 < node i 28 4 ∨
            (∃ j, j < 8 ∧ j < node i 28 4 ∧ i ≤ node i (32 + 4 * j) 4) ∨ ∃ j, j < 8 ∧ node i 28 4 ≤ j ∧ node i (32 + 4 * j) 4 ≠ 0
          (∀ i, i < fieldAt g 34 2 → bad i → (∀ j, j < i → ¬ bad j) → Does (.seqConfig fn ch) s (fun t =>
            OnlyChans m1 t ∧ ∃ d, d < 64 ∧ Answered fn ch c 3 (64 + 64 * i + d) [] m1 t)) ∧
          ((∀ i, i < fieldAt g 34 2 → ¬ bad i) → Does (.seqConfig fn ch) s (fun t => Answered fn ch c 0 0 [] m1 t ∧ OnlySeqs p m1 t ∧
            (t.part p).seqs = q.seqs ∧ (let x := (t.part p).sb
              x.conf = true ∧ x.step = 0 ∧ x.running = false ∧ x.handle = c.f 0 4 ∧ x.key = BitVec.ofNat 128 (c.f 8 16) ∧
              x.keyValid = decide (c.f 24 4 = 1) ∧ x.hostListed = decide (c.f 4 1 = 1) ∧ x.bMax = b ∧ x.tMax = fieldAt g 4 4 ∧
              x.ctxMax = fieldAt g 8 4 ∧ x.vocab = fieldAt g 12 4 ∧ x.worklist = fieldAt g 16 8 ∧ x.logits = fieldAt g 24 8 ∧
              x.nodes.length = fieldAt g 34 2 ∧ x.predValid = false ∧ x.predicted = [] ∧ x.boundary = [] ∧
              (x.qdBase, x.qdSize, x.qdTail, x.qdHead, x.qdErr) = (q.sb.qdBase, q.sb.qdSize, q.sb.qdTail, q.sb.qdHead, q.sb.qdErr))))))))))))) ∧
  (∀ e, seqRow e → ∀ (fn : Fn) (p ch : Nat) (s : State) (c : Cmd) (m1 : Mach), Sent e.2.1 fn ch c s.m m1 → p = spaceOf fn → Framed e.2.2.2 0 e.2.2.1 c →
    (m1.part p).sb.conf = false → Does (e.1 fn ch) s (fun t => Answered fn ch c 3 0xFFFF [] m1 t ∧ OnlyChans m1 t)) ∧
  (∀ e, editRow e → ∀ (fn : Fn) (p ch : Nat) (s : State) (c : Cmd) (m1 : Mach), Sent e.2.1 fn ch c s.m m1 → p = spaceOf fn → Framed 4 0 [(0, 4)] c →
    (m1.part p).sb.conf = true →
    let n := c.f 0 4
    let x := m1.seq p n
    let live := n < 64 * (m1.part p).granules ∧ x.st ≠ .free ∧ x.st ≠ .retiring
    (¬ live → Does (e.1 fn ch) s (fun t => Answered fn ch c 3 0 [] m1 t ∧ OnlyChans m1 t)) ∧
    (live → (m1.part p).sb.running = true → Does (e.1 fn ch) s (fun t => Answered fn ch c 0 0 [] m1 t ∧ OnlySeqs p m1 t ∧
      (t.part p).seqs = (m1.part p).seqs ∧ (t.part p).sb = { (m1.part p).sb with boundary := (m1.part p).sb.boundary ++ [e.2.2.2 n] })) ∧
    (live → (m1.part p).sb.running = false → (m1.part p).sb.boundary = [] → Does (e.1 fn ch) s (fun t =>
      Answered fn ch c 0 0 [] m1 t ∧ OnlySeq p n (e.2.2.1 x) m1 t ∧ OnlySeqs p { m1 with mem := t.mem } t ∧
      t.mem = { m1.mem with raTodo := t.mem.raTodo }))) ∧
  (∀ (fn : Fn) (p ch : Nat) (s : State) (c : Cmd) (m1 : Mach), Sent 0x0603 fn ch c s.m m1 → p = spaceOf fn → Framed 8 0 [(0, 4), (4, 4)] c → (m1.part p).sb.conf = true →
    let n := c.f 0 4
    let x := m1.seq p n
    let drawn := n < 64 * (m1.part p).granules ∧ x.st = .paused ∧ x.draw = true
    let does := fun post => Does (.seqToken fn ch) s post
    (¬ drawn → does (fun t => Answered fn ch c 3 0 [] m1 t ∧ OnlyChans m1 t)) ∧
    (drawn → (m1.part p).sb.vocab ≤ c.f 4 4 → does (fun t => Answered fn ch c 3 4 [] m1 t ∧ OnlyChans m1 t)) ∧
    (drawn → c.f 4 4 < (m1.part p).sb.vocab →
      (∀ m3 stop, Appended p x (c.f 4 4) m1 m3 → StopIs x (x.tokens + 1) (m3.part p).sb.ctxMax (c.f 4 4) stop →
        does (fun t => Answered fn ch c 0 0 [] m3 t ∧ OnlySeqs p m3 t ∧ OnlySeq p n { x with
          tokens := x.tokens + 1, draw := false, stop := stop, st := if stop = 0 ∧ x.hold = false then x.prev else .paused, lastAppend := (t.seq p n).lastAppend } m3 t)) ∧
      (m1.vwrite p (x.out + 64 + 4 * x.tokens) (leBytes 4 (c.f 4 4)) = .fault → (m1.part p).st = .running →
        does (fun t => Answered fn ch c 0 0 [] m1 t ∧ OnlySeq p n SeqEntry.reset m1 t ∧ (t.part p).irqCause.getLsbD 1 = true)))) ∧
  ∀ (fn : Fn) (p ch : Nat) (s : State) (c : Cmd) (m1 : Mach), Sent 0x0602 fn ch c s.m m1 → p = spaceOf fn → Framed 16 0 [(0, 4), (8, 8)] c → (m1.part p).sb.conf = true →
    let n := c.f 0 4
    let at_ := c.f 8 8
    let b := (m1.part p).sb
    let does := fun post => Does (.seqAdmit fn ch) s post
    let fails := fun (m2 : Mach) st d => ∀ m3, m2.vwrite p at_ (leBytes 8 (statusWord st d).toNat) = .ok m3 →
      does (fun t => Answered fn ch c st d [] m3 t ∧ OnlyChans m3 t)
    let waits := b.running = true ∨ b.boundary ≠ []
    (waits → does (fun t => (t.chan (chanKey fn ch)).cur = some (c, .admitSeq p n) ∧
      (t.chan (chanKey fn ch)).held = (m1.chan (chanKey fn ch)).held ∧ OnlySeqs p m1 t ∧ (t.part p).seqs = (m1.part p).seqs ∧
      (t.part p).sb = { b with boundary := b.boundary ++ [.admitSeq n at_ (chanKey fn ch + 1)] })) ∧
    (¬ waits → (at_ % 64 ≠ 0 ∨ 2 ^ 52 ≤ at_ → does (fun t => Answered fn ch c 3 8 [] m1 t ∧ OnlyChans m1 t)) ∧
      (at_ % 64 = 0 → at_ < 2 ^ 52 →
        (∀ m2, m1.vread p at_ 128 .read = .poisoned m2 → fails m2 7 0) ∧
        (m1.vread p at_ 128 .read = .fault → does (fun t => Answered fn ch c 3 8 [] m1 t ∧ OnlyChans m1 t)) ∧
        ∀ d m2, m1.vread p at_ 128 .read = .ok d m2 →
          let q := m2.part p
          (64 * q.granules ≤ n → fails m2 3 0) ∧ (n < 64 * q.granules → (m2.seq p n).st ≠ .free → fails m2 1 0) ∧
          (n < 64 * q.granules → (m2.seq p n).st = .free →
            (∀ off, FirstOutOfRange off d q.sb.ctxMax q.sb.vocab → fails m2 3 off) ∧
            (DescInRange d q.sb.ctxMax q.sb.vocab →
              (∀ m3, m2.vread p (fieldAt d 8 8) (4 * fieldAt d 16 4) .read = .poisoned m3 → fails m3 7 0) ∧
              (m2.vread p (fieldAt d 8 8) (4 * fieldAt d 16 4) .read = .fault → fails m2 3 8) ∧
              (∀ w m3, m2.vread p (fieldAt d 8 8) (4 * fieldAt d 16 4) .read = .ok w m3 → fieldAt d 36 4 / 2 % 2 = 0 → m3.sec.trngOk = false → fails m3 9 0) ∧
              ∀ w m3 m4, m2.vread p (fieldAt d 8 8) (4 * fieldAt d 16 4) .read = .ok w m3 →
                m3.vwrite p at_ (leBytes 8 (statusWord 0 0).toNat) = .ok m4 → fieldAt d 36 4 / 2 % 2 = 1 ∨ m3.sec.trngOk = true →
                does (fun t => Answered fn ch c 0 0 [] m4 t ∧ OnlySeqs p { m4 with free := t.free } t ∧ ∃ key, OnlySeq p n { SeqEntry.reset with
                  st := .admitted, desc := at_, prompt := fieldAt d 8 8, promptLen := fieldAt d 16 4, maxNew := fieldAt d 20 4, out := fieldAt d 24 8, outMax := fieldAt d 32 4, hostMode := decide (fieldAt d 36 4 % 2 = 1), keyValid := decide (fieldAt d 36 4 / 2 % 2 = 1), stops := (List.range (fieldAt d 36 4 / 16)).map (fun i => fieldAt d (64 + 4 * i) 4), temp := BitVec.ofNat 32 (fieldAt d 40 4), hostK := fieldAt d 44 4, key := key, kvTable := fieldAt d 96 8, kvPages := fieldAt d 104 4, admitted := m4.now } m4 t ∧
                  (fieldAt d 36 4 / 2 % 2 = 1 → key = BitVec.ofNat 128 (fieldAt d 48 16) ∧ t.free = m4.free))))))

/-- O55: the step builder: work lists, boundaries, graph nodes, the end of a step, the ring and the buckets (R389 to R391, R399 to R416,
R526). Choices and readings of the model: logs 142, 87 to 89, 93, 113, 2. -/
def Obligations.StepBuilder : Prop :=
  (∀ (m : Mach) (p : Nat), let b := (m.part p).sb
    let l := m.formList p
    let decoding := fun (w : WorkPos) => decide ((m.seq p w.entry).st = .decode)
    let wait := fun e => (m.seq p e).st = .prefill ∨ (m.seq p e).st = .admitted
    l.length ≤ b.bMax ∧ total (l.map (·.count)) ≤ b.tMax ∧
      (∀ w ∈ l, let x := m.seq p w.entry
        (x.st = .decode ∧ w.pos = x.promptLen + x.tokens - 1 ∧ w.count = 1 ∧ w.sample = true) ∨
        (wait w.entry ∧ w.pos = x.processed ∧ w.count ≤ x.promptLen - x.processed ∧ w.sample = decide (w.pos + w.count = x.promptLen))) ∧
      ((∃ e ∈ tkeys (m.part p).seqs, wait e) → (l.filter decoding).length ≤ b.bMax - 1) ∧
      (l.filter decoding).Pairwise (fun a c => (m.seq p a.entry).lastRun ≤ (m.seq p c.entry).lastRun)) ∧
  (∀ (p : Nat) (check : ReadCheck) (s : State), 1 ≤ p → p ≤ 64 →
    let b := (s.m.part p).sb
    let acts := s.m.up = true ∧ (s.m.part p).st = .running ∧ (s.m.part p).freezing = 0 ∧ b.conf = true ∧ b.running = false ∧ s.m.capturedNow p = none
    let does := fun post => Does (.stepBoundary ⟨p, check⟩) s post
    (¬ acts → does (fun t => t = s.m)) ∧
    (∀ e desc st dt x m1 m2 m3, acts → check = .bad → b.boundary = [.admitSeq e desc 0] → b.qdHead = b.qdTail → b.hostListed = true → NoneStops p s.m →
      desc % 64 = 0 → desc < 2 ^ 52 → s.m.admitSeq p e desc = .done st dt m1 → s.m.vread p desc 128 .read = .ok x m2 →
      m2.vwrite p desc (leBytes 8 (7 + 65536)) = .ok m3 →
      does (fun t => t.mem = m3.mem ∧ (t.part p).sb.boundary = [] ∧ ∀ i, t.seq p i = s.m.seq p i)) ∧
    (acts → b.boundary = [] → b.qdHead = b.qdTail → NoneStops p s.m →
      let m0 := (s.m.modSb p (fun b => { b with boundary := [] })).sendMoon p
      let l := s.m.formList p
      (b.hostListed = true ∨ l = [] → does (fun t => t = m0)) ∧
      (b.hostListed = false → l ≠ [] →
        (∀ m2, m0.vwrite p b.worklist (listBytes p l m0) = .ok m2 → (m2.part p).sb.predValid = false → does (fun t =>
          StepBegun p l m2 t ∧ t = { m2 with parts := t.parts } ∧ (t.part p).sb.predValid = true ∧
          (t.part p).sb.predicted = (l.filter (fun w => !(w.sample && (t.seq p w.entry).hostMode))).map (·.entry))) ∧
        (m0.vwrite p b.worklist (listBytes p l m0) = .fault → does (fun t => (t.part p).sb.running = true ∧ (t.part p).sb.failed = true))))) ∧
  (∀ (fn : Fn) (ch : Nat) (s : State) (c : Cmd) (m1 : Mach), Sent 0x0607 fn ch c s.m m1 → Framed 12 0 [(0, 8), (8, 4)] c →
    let p := spaceOf fn
    let b := (m1.part p).sb
    let n := c.f 8 4
    let fails := fun st d (m2 : Mach) => Does (.seqStep fn ch) s (fun t => Answered fn ch c st d [] m2 t ∧ OnlyChans m2 t)
    b.conf = true → (b.hostListed = false → fails 3 0xFFFF m1) ∧
    (b.hostListed = true → (b.running = true → Does (.seqStep fn ch) s (fun t => t = m1)) ∧
      (b.running = false → m1.up = true → (m1.part p).st = .running → (m1.part p).freezing = 0 → (b.bMax < n → fails 3 8 m1) ∧
        (n ≤ b.bMax → b.boundary = [] → NoneStops p m1 →
          (∀ m2, m1.vread p (c.f 0 8) (8 * n) .read = .poisoned m2 → fails 7 0 m2) ∧
          (m1.vread p (c.f 0 8) (8 * n) .read = .fault → fails 3 0 m1) ∧
          ∀ d m2, m1.vread p (c.f 0 8) (8 * n) .read = .ok d m2 →
            ((∃ i, i < n ∧ ∀ w, ¬ Listed p d i w m2) → fails 3 0 m2) ∧
            ∀ l : List WorkPos, l.length = n → (∀ i w, l[i]? = some w → Listed p d i w m2) → (l.map (·.entry)).Nodup →
              (b.tMax < total (l.map (·.count)) → fails 3 0 m2) ∧
              ∀ m3, total (l.map (·.count)) ≤ b.tMax → m2.vwrite p b.worklist (listBytes p l m2) = .ok m3 →
                Does (.seqStep fn ch) s (fun t => (t.chan (chanKey fn ch)).cur = some (c, .step p) ∧
                  (t.chan (chanKey fn ch)).held = (m3.chan (chanKey fn ch)).held ∧ OnlyChans { m3 with parts := t.parts } t ∧ StepBegun p l m3 t ∧
                  (t.part p).sb.predicted = (m3.part p).sb.predicted ∧ (t.part p).sb.predValid = (m3.part p).sb.predValid))))) ∧
  (∀ (p node : Nat) (s : State), 1 ≤ p → p ≤ 64 →
    let b := (s.m.part p).sb
    let none_ : GNode := { kernel := 0, clusters := 0, arg := 0, blocks := 0, deps := [] }
    let g := fun i => nth none_ b.nodes i
    let ready := fun i => i < b.nodes.length ∧ i ∉ b.launched ∧ ∀ d ∈ (g i).deps, d ∈ b.done
    let acts := s.m.up = true ∧ (s.m.part p).st = .running ∧ b.running = true ∧ b.failed = false
    (¬ acts ∨ ¬ ready node ∨ (∃ i, i < node ∧ ready i ∧ (g i).deps = []) → Does (.graphNodeLaunch p node) s (fun t => t = s.m)) ∧
    ∀ kgi, acts → ready node → (g node).deps = [] → (∀ i, i < node → ¬ ready i) → (s.m.part p).kgis.find? (fun k => k.handle == b.handle) = some kgi →
      let d := nth KernelDesc.reset kgi.kernels (g node).kernel
      Does (.graphNodeLaunch p node) s (fun t => t = { s.m with krns := t.krns, parts := t.parts, nextId := s.m.nextId + 1 } ∧
        OnlyKrn s.m.nextId (fun _ => { Krn.reset with
          live := true, part := p, num := 0, fromStep := true, node := node, handle := kgi.handle, kernel := (g node).kernel, desc := d, code := kgi.code,
          clusters := (g node).clusters, args := (g node).arg, key := b.key, epoch := BitVec.ofNat 32 b.step, keyValid := b.keyValid, lc := true,
          accepted := s.m.nextId, total := if (g node).blocks = 0 then d.blocks else (g node).blocks }) s.m t ∧
        OnlyPart p (fun q => { q with sb := { b with launched := b.launched ++ [node] } }) s.m t)) ∧
  (∀ (p : Nat) (check : ReadCheck) (s : State), 1 ≤ p → p ≤ 64 →
    let b := (s.m.part p).sb
    let done := s.m.up = true ∧ (s.m.part p).st = .running ∧ b.running = true ∧
      if b.failed = true then ∀ i ∈ b.launched, i ∈ b.done else ∀ i, i < b.nodes.length → i ∈ b.done
    let does := fun post => Does (.graphEnd ⟨p, check⟩) s post
    (¬ done → does (fun t => t = s.m)) ∧
    (done → b.failed = true → does (fun t => (b.applied = 0 → (t.part p).irqCause.getLsbD 1 = true ∧ ∀ w ∈ b.list, Lost (t.seq p w.entry)) ∧
      (EndWaits p t → (t.part p).sb.running = true) ∧ (¬ EndWaits p t → StepEnded p s.m t ∧ WaitAnswered (.step p) 0 [] s.m t))) ∧
    (done → b.failed = false → b.applied = 0 → (∀ w ∈ b.list, w.sample = false) → (b.list.map (·.entry)).Nodup →
      (∀ e ∈ tkeys (s.m.part p).seqs, (s.m.seq p e).st ≠ .retiring) → does (fun t => (s.m.stepWrites p = true → (t.part p).sb.running = true) ∧
        (s.m.stepWrites p = false → StepEnded p s.m t ∧ WaitAnswered (.step p) 0 [] s.m t) ∧
        ∀ e, t.seq p e = match b.list.find? (fun w => w.entry == e) with
          | some w => { s.m.seq p e with processed := (s.m.seq p e).processed + w.count }
          | none => s.m.seq p e)) ∧
    (∀ w, check = .bad → done → b.failed = false → b.applied = 0 → b.list = [w] → w.sample = true → s.m.stepWrites p = false →
      (∀ e ∈ tkeys (s.m.part p).seqs, (s.m.seq p e).st ≠ .retiring) → does (fun t => let y := t.seq p w.entry
        ((t.part p).sb.running = false ∧ y.st = .free) ∨
          ((t.part p).sb.running = true ∧ y.st = .retiring ∧ y.stop = 6 ∧ y.status = 7 ∧ y.detail = 1))) ∧
    ∀ w tok m2 m3 stop, check ≠ .bad → done → b.failed = false → b.applied = 0 → b.list = [w] → w.sample = true → (s.m.seq p w.entry).hostMode = false →
      s.m.vread p (b.worklist + 64 + 48) 4 .read = .ok tok m2 →
      let x := m2.seq p w.entry
      Appended p x (ofLe tok) m2 m3 → StopIs x (x.tokens + 1) b.ctxMax (ofLe tok) stop →
      (∀ e ∈ tkeys (m3.part p).seqs, (m3.seq p e).st ≠ .retiring) → m3.stepWrites p = false →
      (stop = 0 → (m3.part p).st = .running → does (fun t => StepEnded p m3 t ∧ OnlySeq p w.entry { x with
        tokens := x.tokens + 1, processed := x.promptLen, st := .decode, lastAppend := (t.seq p w.entry).lastAppend } m3 t)) ∧
      (stop ≠ 0 → does (fun t => let y := t.seq p w.entry
        ((t.part p).sb.running = false ∧ y.st = .free) ∨ ((t.part p).sb.running = true ∧ y.st = .retiring ∧ y.stop = stop ∧ y.tokens = x.tokens + 1 ∧
          y.status = if x.keyValid = false ∧ x.hostMode = false then 12 else 0)))) ∧
  (∀ (m : Mach) (p key fnk : Nat) (ws : List Word), m.moon.restart = 0 →
    let c := m.chan key
    let r := sendWords key fnk ws m
    let n := Nat.min ws.length (16 - c.inq.length)
    (c.mode = false → c.enable = true → r.1 = ws.drop n ∧ (r.2.chan key).inq = c.inq ++ ws.take n ∧ ∀ k, k ≠ key → r.2.chan k = m.chan k) ∧
    (c.mode = true ∨ c.enable = false → r.1 = [] ∧ ∀ k, r.2.chan k = m.chan k) ∧
    (key / 8 = fnk → ((sendCommands p fnk [(key % 8, ws)] m).part p).sb.toMoon = if r.1 = [] then [] else [(key % 8, r.1)])) ∧
  (∀ (p : Nat) (value : DWord) (s : State), 1 ≤ p → p ≤ 64 →
    let b := (s.m.part p).sb
    let fn := Fn.vf (s.m.part p).link p
    let can := s.m.barGate fn = .open_
    let tail := value.toNat % 65536
    let n := (tail + 65536 - b.qdHead) % 65536
    let does := fun post => Does (.qdTailWrite p value) s post
    let wrong := fun (t : Mach) => (t.part p).sb = { b with qdTail := tail, qdHead := tail, qdErr := true } ∧ (t.part p).irqCause.getLsbD 1 = true ∧
      (t.part p).seqs = (s.m.part p).seqs
    (¬ can → does (fun t => t = s.m)) ∧ (can → s.m.behind fn = true → does (Queued fn 0x20010 8 value s.m)) ∧
    (b.qdSize = 0 → s.m.behind fn = false → does (fun t => t = s.m)) ∧
    (can → s.m.behind fn = false → b.qdSize ≠ 0 → ((s.m.part p).st ≠ .running ∨ n = 0 → does (fun t => t = { s.m with parts := t.parts } ∧
        OnlyPart p (fun q => { q with sb := { b with qdTail := tail } }) s.m t)) ∧
      ((s.m.part p).st = .running → n ≠ 0 → b.conf = false ∨ b.qdSize < n → does wrong) ∧
      ((s.m.part p).st = .running → n = 1 → b.conf = true → let m0 := s.m.modSb p (fun b => { b with qdTail := tail })
        (m0.vread p (b.qdBase.toNat + 16 * (b.qdHead % b.qdSize)) 16 .read = .fault → does wrong) ∧
        ∀ d m2, m0.vread p (b.qdBase.toNat + 16 * (b.qdHead % b.qdSize)) 16 .read = .ok d m2 → (m2.part p).sb.running = true →
          does (fun t => t = { m2 with parts := t.parts } ∧ OnlyPart p (fun q => { q with sb := { q.sb with qdHead := q.sb.qdTail, boundary := q.sb.boundary ++ [.admitSeq (fieldAt d 0 4) (fieldAt d 8 8) 0] } }) m2 t)))) ∧
  (∀ (p : Nat) (size : Bool) (value : DWord) (s : State), 1 ≤ p → p ≤ 64 →
    let b := (s.m.part p).sb
    let n := value.toNat % 65536
    let fn := Fn.vf (s.m.part p).link p
    let acts := s.m.barGate fn = .open_ ∧ s.m.behind fn = false ∧ b.qdHead = b.qdTail
    (s.m.barGate fn = .open_ → s.m.behind fn = true → Does (.qdConfigWrite p size value) s (Queued fn (if size then 0x20008 else 0x20000) 8 value s.m)) ∧
    (s.m.barGate fn ≠ .open_ ∨ (s.m.behind fn = false ∧ b.qdHead ≠ b.qdTail) → Does (.qdConfigWrite p size value) s (fun t => t = s.m)) ∧
    (acts → Does (.qdConfigWrite p false value) s (fun t => t = { s.m with parts := t.parts } ∧
      OnlyPart p (fun q => { q with sb := { b with qdBase := BitVec.ofNat 64 (value.toNat / 64 * 64) } }) s.m t) ∧
      Does (.qdConfigWrite p true value) s (fun t => t = { s.m with parts := t.parts } ∧ ∃ z, OnlyPart p (fun q => { q with sb := { b with qdSize := z } }) s.m t ∧
        ((∃ k, 4 ≤ k ∧ k ≤ 12 ∧ n = 2 ^ k) → z = n) ∧ ((∀ k, 4 ≤ k → k ≤ 12 → n ≠ 2 ^ k) → z = 0)))) ∧
  (∀ (half : Nat) (s : State), half < 8 → (s.m.up = false → Does (.stepBuilderError half) s (fun t => t = s.m)) ∧
    (s.m.up = true → Does (.stepBuilderError half) s (fun t => (s.m.moon.restart = 0 → s.m.builtBy half = [] → Logged 0x28 2 t) ∧
      ∀ p, 1 ≤ p → p ≤ 64 → (s.m.part p).st ≠ .absent →
        let served := halfOfCluster (firstBit (s.m.part p).clusters) = half ∧ (s.m.part p).st ≠ .resetting
        (served → (∀ e, Lost (t.seq p e)) ∧ (t.part p).sb = { (s.m.part p).sb with
          running := false, list := [], launched := [], done := [], failed := false, applied := 0, predicted := [], predValid := false } ∧
          ∀ k, (t.krn k).live = true → (t.krn k).fromStep = true → (t.krn k).part ≠ p) ∧
        (¬ served → (t.part p).seqs = (s.m.part p).seqs ∧ (t.part p).sb = (s.m.part p).sb)))) ∧
  (∀ s : State, let due := s.m.up = true ∧ s.m.host.refillAt < s.m.now / 1000
    (¬ due → Does .bucketRefill s (fun t => t = s.m)) ∧
    (due → Does .bucketRefill s (fun t => t = { s.m with host := { s.m.host with refillAt := s.m.now / 1000 }, parts := t.parts } ∧ ∀ p,
      let q := s.m.part p
      let filled := fun key n => tget 0 (t.part p).buckets key = Nat.min (4 * n) (tget 0 q.buckets key + n)
      let up := s.m.linksUp 0 + s.m.linksUp 1
      t.part p = { q with buckets := (t.part p).buckets } ∧
      (1 ≤ p → p ≤ 64 → q.st ≠ .absent → q.st ≠ .resetting →
        (∀ c, c < 16 → filled c (q.shHbmRd * 1000 / 16) ∧ filled (16 + c) (q.shHbmWr * 1000 / 16)) ∧
        (up ≠ 0 → ∀ d, d < 2 → filled (32 + d) (q.shLink * 1000 * s.m.linksUp d / up) ∧ filled (48 + d) (q.shLink * 1000 * s.m.linksUp d / up)) ∧
        filled 64 (q.shHost * 1000) ∧ filled 80 (q.shHost * 1000)) ∧
      (q.st = .resetting → t.part p = q)))) ∧
  ∀ (p : Nat) (s : State), 1 ≤ p → p ≤ 64 →
    let q := s.m.part p
    let due := q.st = .running ∧ q.thrArmed = true ∧ q.thrSel.toNat ≤ 10 ∧ q.thrVal.toNat ≤ tget 0 q.acct q.thrSel.toNat
    (¬ due → Does (.acctThresholdFire p) s (fun t => t = s.m)) ∧
    (due → Does (.acctThresholdFire p) s (fun t => t = { s.m with parts := t.parts, host := { s.m.host with fns := t.host.fns }, out := t.out } ∧
      OnlyPart p (fun q => { q with thrArmed := false, irqCause := q.irqCause ||| 16#5 }) s.m t))

namespace Sys2Proof.Claims

/-- A slot may be booted: its image is valid, its security version is not below the minimum, and it is no trial that was booted and not
confirmed (R492). -/
def Bootable (a : Moon) (min : Nat) (b : Bool) : Prop := (a.slot b).valid = true ∧ min ≤ (a.slot b).svn.toNat ∧ (a.slot b).pref ≠ .trial true

/-- The boot ROM boots slot `b` (R492): a trial before a preferred slot before any other, then the higher security version, then A. -/
def Boots (a : Moon) (min : Nat) (b : Bool) : Prop :=
  let rank := fun c => match (a.slot c).pref with | .trial false => 2 | .preferred => 1 | _ => 0
  let svn := fun c => (a.slot c).svn.toNat
  Bootable a min b ∧ (Bootable a min (!b) → rank (!b) < rank b ∨ rank (!b) = rank b ∧
    (if rank b = 0 then svn (!b) < svn b ∨ (svn (!b) = svn b ∧ b = false) else b = false))

/-- The slots and the choice that the boot ROM leaves (R492). -/
def Booted (a : Moon) (min : Nat) (t : Moon) : Prop :=
  ((∀ b, ¬ Bootable a min b) → t.runsB = a.runsB) ∧ ∀ b, (Boots a min b → t.runsB = b) ∧
    let tried := (a.slot b).pref = .trial false ∧ Boots a min b
    ((a.slot b).pref = .trial true → t.slot b = { a.slot b with pref := .plain }) ∧ (tried → t.slot b = { a.slot b with pref := .trial true }) ∧
    ((a.slot b).pref ≠ .trial true → ¬ tried → t.slot b = a.slot b)

/-- A key update that Moon may be at work on is interrupted (R502, R504, R516): the slot in use stays, and nothing changes where no update can be
under way. -/
def UpdateTorn (m t : Mach) : Prop :=
  t.sec = { m.sec with meas := t.sec.meas, vaultA := t.sec.vaultA, vaultB := t.sec.vaultB, loaded := t.sec.loaded } ∧
    (m.sec.best ≠ 0 → t.sec.slot m.sec.best = m.sec.slot m.sec.best) ∧
    (m.sec.life ≠ .deployed ∨ (∀ ch, ch < 8 → (m.chan (chanKey (.pf 0) ch)).inq = [] ∧ (m.chan (chanKey (.pf 0) ch)).dbq = []) →
      t.sec = { m.sec with meas := t.sec.meas })

/-- A firmware restart has begun (R338, R341, R466, R492, R495, R516; what an interrupted key update leaves is free: log 104). -/
def RestartBegun (cause core : Nat) (m t : Mach) : Prop :=
  t = { m with moon := t.moon, sec := t.sec, power := { m.power with halves := t.power.halves, vout := t.power.vout }, parts := t.parts, free := t.free, host := { m.host with chans := t.host.chans } } ∧
    UpdateTorn m t ∧ t.moon.ready = false ∧ t.moon.restart = m.now + 1 ∧ t.moon.cause = cause ∧ t.moon.failed = core ∧ t.moon.history = m.now :: m.moon.history ∧
    t.moon.count = m.moon.count + 1 ∧ (∀ c, t.mcore c = MoonCore.reset) ∧ Booted m.moon m.sec.minSvn t.moon ∧
    (∀ i, i ≠ 2 → i ≠ 3 → tget 0 t.sec.meas i = tget 0 m.sec.meas i) ∧
    (∀ b, Boots m.moon m.sec.minSvn b → tget 0 t.sec.meas 2 = sha384w (hashBytes 0 ++ hashBytes (m.moon.slot b).digest)) ∧
    (∀ h, h < 8 → Engaged 2 .restart h m t) ∧ ∀ p, t.part p = { m.part p with learn := if p < 65 then Part.reset.learn else (m.part p).learn }

/-- The newest of at most sixteen crash records is that of a core (R547). -/
def CrashWritten (cause core : Nat) (m t : Mach) : Prop :=
  t.moon.crashNext = m.moon.crashNext + 1 ∧ t.moon.crashes.tail = m.moon.crashes.take 15 ∧ ∃ r, t.moon.crashes.head? = some r ∧
    r.index = m.moon.crashNext % 16 ∧ r.core = core ∧ r.cause = cause ∧ r.tide = m.now ∧ r.version = (m.moon.slot m.moon.runsB).version ∧
    r.shadow = (m.mcore core).shadow

/-- The firmware runs: phase 3 or a later state, and no restart is in progress. -/
def FwRuns (m : Mach) : Prop :=
  m.moon.restart = 0 ∧ ((∃ n, 3 ≤ n ∧ m.start.phase = .run n) ∨ m.start.phase = .ready ∨ m.start.phase = .outOfService)

/-- The answer FW_RESTARTED to a command (R340). -/
def restarted (c : Cmd) : Reply := { reply c 6 0 [] with num := 0 }

/-- A restart in progress may end (R338, R339). -/
def CanRestart (m : Mach) : Prop :=
  m.moon.restart ≠ 0 ∧ m.start.phase ≠ .held ∧ m.now ≤ m.moon.restart - 1 + 50000000 ∧ (m.moon.slot m.moon.runsB).valid = true

end Sys2Proof.Claims

/-- O56: Moon's exceptions, lock-up and watchdog, firmware restarts, images and DEV.INFO (R335 to R341, R492 to R495, R547, R564). Choices
and readings of the model: logs 4, 20, 101, 2. -/
def Obligations.MoonAndFirmware : Prop :=
  (∀ (c : Nat) (cause addr : DWord) (writable : Bool) (s : State), c < 4 →
    let x := s.m.mcore c
    let words := [x.pc, x.status, cause, addr, x.sp] ++ x.scratch
    let low := if x.task then x.tLow.toNat else x.kLow.toNat
    let high := if x.task then x.tHigh.toNat else x.kHigh.toNat
    let fits := x.sp.toNat % 16 = 0 ∧ low + 64 ≤ x.sp.toNat ∧ x.sp.toNat ≤ high ∧ writable = true
    let does := fun post => Does (.moonExceptionEntry c cause addr (.entry writable)) s post
    let returns := fun post => Does (.moonExceptionEntry c cause addr .ret) s post
    let becomes := fun y (t : Mach) => t = { s.m with moon := t.moon } ∧ ∀ k, t.mcore k = if k = c then y else s.m.mcore k
    let popped := fun i => BitVec.ofNat 64 (ofLe (getBytes s.m.moon.sram (x.sp.toNat + 8 * i) 8))
    let saved := fun i => nth 0 x.shadow i
    (¬ FwRuns s.m ∨ x.locked = true → does (fun t => t = s.m) ∧ returns (fun t => t = s.m)) ∧
    (FwRuns s.m → x.locked = false →
      (x.emerg = true → returns (fun t => t.moon.sram = s.m.moon.sram ∧
        becomes { x with pc := saved 0, status := saved 1, sp := saved 4, scratch := [saved 5, saved 6, saved 7], emerg := false } t)) ∧
      (x.emerg = false → returns (fun t => t.moon.sram = s.m.moon.sram ∧
        becomes { x with pc := popped 0, status := popped 1, sp := popped 4, scratch := [popped 5, popped 6, popped 7] } t)) ∧
      (x.emerg = true → does (fun t => becomes { x with locked := true } t ∧ t.moon.sram = s.m.moon.sram)) ∧
      (x.emerg = false → fits → x.scratch.length = 3 → does (fun t => becomes { x with sp := x.sp - 64, pc := Config.moonVector cause } t ∧
        (∀ i w, words[i]? = some w → getBytes t.moon.sram (x.sp.toNat - 64 + 8 * i) 8 = leBytes 8 w.toNat) ∧
        ∀ a, a < x.sp.toNat - 64 ∨ x.sp.toNat ≤ a → tget 0 t.moon.sram a = tget 0 s.m.moon.sram a)) ∧
      (x.emerg = false → ¬ fits → does (fun t => becomes { x with shadow := words, sp := (Config.moonDouble c).2, emerg := true, pc := (Config.moonDouble c).1 } t ∧
        t.moon.sram = s.m.moon.sram)))) ∧
  (∀ (c : Nat) (s : State), c < 4 →
    (FwRuns s.m → (s.m.mcore c).locked = true → Does (.moonLockup c) s (fun t => RestartBegun 0 c s.m t ∧ CrashWritten 0 c s.m t ∧ t.host = s.m.host)) ∧
    (¬ FwRuns s.m ∨ (s.m.mcore c).locked = false → Does (.moonLockup c) s (fun t => t = s.m))) ∧
  (∀ s : State, (FwRuns s.m → s.m.moon.wdog + 10000000 ≤ s.m.now → Does .moonWatchdog s (fun t => t.host = s.m.host ∧
      ∃ c, c < 4 ∧ RestartBegun 1 c s.m t ∧ CrashWritten 1 c s.m t)) ∧
    (¬ FwRuns s.m ∨ s.m.now < s.m.moon.wdog + 10000000 → Does .moonWatchdog s (fun t => t = s.m))) ∧
  (∀ s : State, (¬ CanRestart s.m → Does .fwRestart s (fun t => t = s.m)) ∧
    (CanRestart s.m → Does .fwRestart s (fun t =>
      let a := s.m.moon
      let x := a.slot a.runsB
      t.moon.restart = 0 ∧ t.moon.ready = true ∧ t.moon.wdog = s.m.now ∧ t.moon.heldRecs = [] ∧ t.moon.ended = (a.restart - 1, s.m.now) :: a.ended ∧
      (∀ key, (t.chan key).cur = none ∧ ∃ more, (t.chan key).held = ((s.m.chan key).held.map (fun r =>
          if r.written = true ∨ r.hw = true ∨ r.notice = true then r else { r with status := 6, detail := 0, result := [] })) ++
            (match (s.m.chan key).cur with | some (c, _) => [restarted c] | none => []) ++ (cutCmds 17 (s.m.chan key).partial_.1).map (fun ws => restarted (qCmd ws)) ++
            (s.m.chan key).dbq.map (fun d => { restarted ⟨0, 0, [], d.2, d.1, true⟩ with unread := true }) ++ more ∧
        (t.chan key).dbq = [] ∧ (t.chan key).inq = (s.m.chan key).partial_.2 ∧
        (key ≠ 0 → more = []) ∧ (key = 0 → ∃ r, more = [r] ∧ r.opcode = 0x1F1 ∧ r.tag = 0 ∧ r.status = 0 ∧ r.pmode = false ∧ r.result.length = 20 ∧
          fieldAt r.result 0 8 = (a.restart - 1) % 2 ^ 64 ∧ fieldAt r.result 8 8 = s.m.now % 2 ^ 64 ∧ fieldAt r.result 16 1 = a.cause % 256 ∧
          (a.cause ≠ 2 → fieldAt r.result 17 1 = a.failed % 256 ∧ fieldAt r.result 18 2 = (a.crashNext - 1) % 16))) ∧
      (x.pref = .trial true → t.moon.slot a.runsB = { x with pref := .preferred } ∧ t.moon.slot (!a.runsB) = { a.slot (!a.runsB) with pref := .plain } ∧
        t.sec.minSvn = if x.commit then Nat.max s.m.sec.minSvn x.svn.toNat else s.m.sec.minSvn) ∧
      (x.pref ≠ .trial true → (∀ b, t.moon.slot b = a.slot b) ∧ t.sec.minSvn = s.m.sec.minSvn) ∧
      (∀ r, a.heldRecs = [(0, r)] → ∃ r', t.ras.ring.head? = some r' ∧ r'.tide = r.tide ∧ r'.code = r.code) ∧
      t.start.phase = if s.m.start.phase = .romOnly then .run 3 else s.m.start.phase))) ∧
  (∀ s : State, let a := s.m.moon
    let many := ∃ h1 h2 h3 h4 l, a.history = h1 :: h2 :: h3 :: h4 :: l ∧ h1 < h4 + 60000000000
    let due := s.m.start.warmAt = 0 ∧ ((a.restart ≠ 0 ∧ a.restart - 1 + 50000000 < s.m.now) ∨ many)
    (due → Does .restartLimit s (FatalError 5 s.m)) ∧ (¬ due → Does .restartLimit s (fun t => t = s.m))) ∧
  (∀ (ch : Nat) (s : State) (c : Cmd) (m1 : Mach), Sent 0x0102 (.pf 0) ch c s.m m1 → Framed 0 0 [] c → Does (.devWarmReset (.pf 0) ch) s (fun t =>
    Answered (.pf 0) ch c 0 0 [] m1 t ∧ OnlyChans { m1 with start := { m1.start with warmAt :=
      if m1.start.warmAt = 0 ∧ m1.pins.thermtrip = true ∧ m1.start.phase ≠ .outOfService ∧ m1.start.phase ≠ .held then m1.now + 1000001 else m1.start.warmAt } } t)) ∧
  (∀ (ch : Nat) (s : State) (c : Cmd) (m1 : Mach), Sent 0x0B01 (.pf 0) ch c s.m m1 → Framed 16 0 [(0, 8), (8, 8)] c →
    let answer := fun st d (m2 : Mach) => Does (.fwStage (.pf 0) ch) s (fun t => Answered (.pf 0) ch c st d [] m2 t ∧ OnlyChans m2 t)
    (c.f 8 8 < 7668 → answer 3 8 m1) ∧ (7668 ≤ c.f 8 8 → m1.vread 65 (c.f 0 8) (c.f 8 8) .read = .fault → answer 3 0 m1) ∧
    (∀ m2, 7668 ≤ c.f 8 8 → m1.vread 65 (c.f 0 8) (c.f 8 8) .read = .poisoned m2 → answer 7 0 m2) ∧ ∀ img m2, 7668 ≤ c.f 8 8 → m1.vread 65 (c.f 0 8) (c.f 8 8) .read = .ok img m2 →
      let body := fieldAt img 0x18 8
      let text := img.take (256 + body)
      let laid := fieldAt img 0 4 = 0x57465048 ∧ fieldAt img 4 2 = 0x0100 ∧ fieldAt img 6 2 ≤ 1 ∧ (∀ i, (12 ≤ i ∧ i < 16) ∨ (0x52 ≤ i ∧ i < 256) → nth 0 img i = 0)
      let good := signedBy Config.umaenoHash text (img.drop (256 + body)) = true ∧ sha384 (text.drop 256) = slice img 0x20 48 ∧
        m2.sec.minSvn ≤ fieldAt img 8 4 ∧ fieldAt img 0x50 1 ≤ 0x10
      (img.length ≠ 256 + body + 7412 → answer 3 8 m2) ∧ (img.length = 256 + body + 7412 → (¬ laid → answer 3 0 m2) ∧ (laid → ¬ good → answer 4 0 m2) ∧
        (laid → good → Does (.fwStage (.pf 0) ch) s (fun t => Answered (.pf 0) ch c 0 0 [] m2 t ∧ OnlyChans { m2 with moon := t.moon } t ∧
          t.moon.staged = true ∧ t.moon.slot m2.moon.runsB = m2.moon.slot m2.moon.runsB ∧ (let x := t.moon.slot (!m2.moon.runsB)
            x.pref = .plain ∧ x.valid = true ∧ x.version.toNat = fieldAt img 0x10 8 ∧ x.svn.toNat = fieldAt img 8 4 ∧ x.digest = sha384w img))))) ∧
  (∀ (ch : Nat) (s : State) (c : Cmd) (m1 : Mach), Sent 0x0B02 (.pf 0) ch c s.m m1 → Framed 0 0 [] c →
    (m1.moon.staged = false → Does (.fwActivate (.pf 0) ch) s (fun t => Answered (.pf 0) ch c 3 0 [] m1 t ∧ OnlyChans m1 t)) ∧
    (m1.moon.staged = true → Does (.fwActivate (.pf 0) ch) s (fun t => Answered (.pf 0) ch c 0 0 [] m1 t ∧ OnlyChans { m1 with moon := t.moon } t ∧
      t.moon.slot (!m1.moon.runsB) = { m1.moon.slot (!m1.moon.runsB) with pref := .trial false } ∧ t.moon.slot m1.moon.runsB = m1.moon.slot m1.moon.runsB ∧
      t.moon.restart = m1.moon.restart))) ∧
  (∀ (fn : Fn) (ch : Nat) (s : State) (r : Reply) (rest : List Reply), chanOk fn ch = true → s.m.moon.restart = 0 → s.m.served = true →
    let c := s.m.chan (chanKey fn ch)
    c.inq = [] → c.dbq = [] → c.held = r :: rest → r.activates = true → r.pmode = false →
    (16 < c.outq.length + (qWords r).length → Does (.moonResponsePosted fn ch) s (fun t => t = { s.m with moon := { s.m.moon with wdog := s.m.now } })) ∧
    (c.outq.length + (qWords r).length ≤ 16 → (c.outq ≠ [] ∨ c.irqEn = false) → Does (.moonResponsePosted fn ch) s (fun t => ∃ m1,
      OnlyPosted (chanKey fn ch) r (fun c => { c with held := rest, outq := c.outq ++ qWords r }) [] s.m m1 ∧ RestartBegun 2 0 m1 t))) ∧
  (∀ (l ch : Nat) (s : State) (c : Cmd) (m1 : Mach), Sent 0x0B03 (.pf l) ch c s.m m1 → Framed 0 20 [] c → let a := m1.moon
    Does (.fwInfo (.pf l) ch) s (fun t => OnlyChans m1 t ∧ ∃ r, Answered (.pf l) ch c 0 0 r m1 t ∧ r.length = 20 ∧
      fieldAt r 0 8 = (a.slot a.runsB).version.toNat ∧ fieldAt r 8 8 = (if a.staged then (a.slot (!a.runsB)).version.toNat else 0) ∧
      fieldAt r 16 4 = a.count % 2 ^ 32)) ∧
  ∀ (fn : Fn) (ch : Nat) (s : State) (c : Cmd) (m1 : Mach), Sent 0x0101 fn ch c s.m m1 → Framed 0 22 [] c →
    Does (.devInfo fn ch) s (fun t => OnlyChans m1 t ∧ ∃ r, Answered fn ch c 0 0 r m1 t ∧ r.length = 22 ∧ fieldAt r 0 1 = 0x10 ∧ fieldAt r 1 1 = 3 ∧
      let flags := fieldAt r 2 2
      let rom := m1.start.phase = .romOnly
      flags < 32 ∧ (flags.testBit 4 = true ↔ rom) ∧ flags.testBit 3 = m1.sec.recovery ∧ flags.testBit 2 = m1.host.bifurc ∧
      (flags.testBit 1 = true ↔ ¬ rom ∧ (m1.hlink 0).cxl = true) ∧
      (flags.testBit 0 = true ↔ ¬ rom ∧ m1.cres.metering = true ∧ m1.cres.good = true ∧ m1.cres.st = .ready) ∧
      (¬ rom → fieldAt r 4 2 = m1.start.reserved % 2 ^ 16 ∧ fieldAt r 6 2 = m1.freeUnits.length % 2 ^ 16 ∧
        fieldAt r 8 8 = maskOfList m1.freeClusters % 2 ^ 64 ∧ fieldAt r 16 2 = (512 - m1.sumParts (·.granules)) % 2 ^ 16 ∧
        fieldAt r 18 2 = (2048 - m1.sumParts (·.msix)) % 2 ^ 16 ∧ fieldAt r 20 2 = total ((List.range 64).map m1.liveCores) % 2 ^ 16) ∧
      (rom → fieldAt r 4 8 = 0 ∧ fieldAt r 12 8 = 0 ∧ fieldAt r 20 2 = 0))

namespace Sys2Proof.Claims

/-- A cold reset of `m` with the pins at `pins` (Table 21.2): fuses, secure flash and Crescent survive, with the partitions' generations;
everything else is at reset.  Where the start stands and the conditions of ALERT_N are said apart. -/
def Cold (pins : Pins) (m t : Mach) : Prop :=
  t = { Mach.reset with sec := { Sec.reset with life := m.sec.life, serial := m.sec.serial, minSvn := m.sec.minSvn, owner := m.sec.owner, vaultA := m.sec.vaultA, vaultB := m.sec.vaultB, trngOk := m.sec.trngOk, nonce := m.sec.nonce }, moon := { Moon.reset with slotA := m.moon.slotA, slotB := m.moon.slotB, runsB := m.moon.runsB, staged := m.moon.staged }, parts := t.parts, host := { HostSt.reset with bifurc := t.host.bifurc, links := t.host.links }, links := { Links.reset with recs := m.links.recs, recUni := m.links.recUni, recGrp := m.links.recGrp }, ras := { Ras.reset with fatals := m.ras.fatals, flash := m.ras.flash, flashPages := m.ras.flashPages, phys := m.ras.flash, rows := m.ras.flashRows, flashRows := m.ras.flashRows, unitsRetired := m.ras.unitsRetired, direct := t.ras.direct }, mem := { Mem.reset with retired := m.ras.flashPages, units := t.mem.units }, cres := { m.cres with metering := false, engine := [], mirrorAt := 0, mirror := [], mirrorInterval := 0, mirrorEvents := 0, probe := .ready }, pins := pins, start := t.start, nextId := m.nextId, out := m.out, free := m.free } ∧
  (∀ p, ∃ g, t.part p = { Part.reset with gen := g }) ∧ (∀ l, ∃ b, t.hlink l = { HLink.reset with perst := b }) ∧ ∀ u p, (t.unit u).use ≠ .part p

/-- A start begins, and the strap is sampled, or it does not (R30, R37, R40, R558). -/
def startPhase (starts : Prop) (m t : Mach) : Prop :=
  (starts → t.start = { Start.reset with phase := .run 1 } ∧ t.host.bifurc = t.pins.bifurc) ∧ (¬ starts → t.start = Start.reset ∧ t.host.bifurc = m.host.bifurc)

/-- A warm reset of `m` has begun phase 2 (Table 21.2, R566 to R568). -/
def Warm (m t : Mach) : Prop :=
  t = { Mach.reset with sec := { Sec.reset with life := m.sec.life, serial := m.sec.serial, minSvn := m.sec.minSvn, owner := m.sec.owner, vaultA := m.sec.vaultA, vaultB := m.sec.vaultB, trngOk := m.sec.trngOk, nonce := m.sec.nonce }, moon := { Moon.reset with slotA := m.moon.slotA, slotB := m.moon.slotB, runsB := m.moon.runsB, staged := m.moon.staged, count := m.moon.count, crashes := m.moon.crashes, crashNext := m.moon.crashNext, heldRecs := m.moon.heldRecs }, parts := t.parts, host := { HostSt.reset with bifurc := m.host.bifurc, links := t.host.links }, links := { Links.reset with recs := m.links.recs, recUni := m.links.recUni, recGrp := m.links.recGrp }, ras := t.ras, power := { Power.reset with cap := m.power.capNext, learner := m.power.learnerNext, shares := m.power.sharesNext, capNext := m.power.capNext, learnerNext := m.power.learnerNext, sharesNext := m.power.sharesNext, opMax := m.power.opMax, halves := t.power.halves }, mem := { Mem.reset with retired := t.mem.retired, units := t.mem.units, poisonHist := m.mem.poisonHist, retireWhenFree := t.mem.retireWhenFree, hbm := m.mem.hbm, hbmPoison := m.mem.hbmPoison, hbmErr := m.mem.hbmErr, lineKey := m.mem.lineKey }, cres := { m.cres with metering := false, engine := [], mirrorAt := 0, mirror := [], mirrorInterval := 0, mirrorEvents := 0 }, pins := m.pins, clk := { m.clk with aligned := false, lcLate := [] }, start := { Start.reset with phase := .run 2, base := m.now, warm := true, fails := m.start.fails, reserved := m.start.reserved }, nextId := m.nextId, out := m.out, free := m.free } ∧
  (∀ p, (t.part p).st = .absent ∧ (t.part p).kgis = [] ∧ (t.part p).seqs = [] ∧ (t.part p).acct = []) ∧ (∀ l, ∃ b, t.hlink l = { HLink.reset with perst := b }) ∧
  (∀ u p, (t.unit u).use ≠ .part p) ∧ (∀ h, (t.half h).op = 2) ∧
  (m.mem.retireWhenFree = [] → let r := t.ras
    (r.ring, r.next, r.oldest, r.fatals) = (m.ras.ring, m.ras.next, m.ras.oldest, m.ras.fatals) ∧
    (r.corrected, r.deferred, r.contained, r.fatal) = (m.ras.corrected, m.ras.deferred, m.ras.contained, m.ras.fatal) ∧
    (r.mask, r.pend, r.unitsRetired) = (m.ras.mask, m.ras.pend, m.ras.unitsRetired) ∧ (r.injLine, r.injKind, r.injGo) = (0, 0, false) ∧
    r.direct = m.ras.direct &&& 0x1D ∧ (r.flashRows, r.rowCorr, r.hbmRows) = (m.ras.flashRows, m.ras.rowCorr, m.ras.hbmRows))

/-- A failed start (R576): a fatal record and a warm reset 10 ms later; the third in succession is the out-of-service state. -/
def FailedStart (code : Nat) (m t : Mach) : Prop :=
  t.start.fails = m.start.fails + 1 ∧ (m.start.fails < 2 → FatalError code m t) ∧
  (2 ≤ m.start.fails → t.start.phase = .outOfService ∧ t.start.warmAt = 0 ∧ t.ras.direct.getLsbD 4 = true ∧
    (∃ r, t.ras.fatals.head? = some r ∧ r.code = 0x40 ∧ r.detail = leBytes 20 code) ∧ ∀ l, l < 4 → (m.hlink l).up = true → (t.hlink l).cfgReady = true)

/-- The device is in phase `n` of a start, no warm reset is due, and THERMTRIP_N is not latched (R40). -/
def InPhase (n : Nat) (m : Mach) : Prop := m.start.phase = .run n ∧ m.start.warmAt = 0 ∧ m.pins.thermtrip = true

/-- The firmware that has started confirms a trial slot (R493). -/
def Confirmed (a : Moon) (t : Moon) : Prop :=
  let x := a.slot a.runsB
  (x.pref = .trial true → t.slot a.runsB = { x with pref := .preferred } ∧ t.slot (!a.runsB) = { a.slot (!a.runsB) with pref := .plain }) ∧
  (x.pref ≠ .trial true → ∀ b, t.slot b = a.slot b)

end Sys2Proof.Claims

/-- O57: power good, resets, the nine phases of a start, failed starts, and cold and warm resets (R27, R40 to R43, R492, R493, R495, R557
to R576). Choices and readings of the model: logs 3 to 6, 45, 47 to 52, 54, 2. -/
def Obligations.StartAndResets : Prop :=
  (∀ (bad : BitVec 25) (strap : Bool) (s : State), (s.m.pins.pwrgd = true → Does (.pwrgdMainRise ⟨bad, strap⟩) s (fun t => t = s.m)) ∧
    (s.m.pins.pwrgd = false → Does (.pwrgdMainRise ⟨bad, strap⟩) s (fun t => Cold { s.m.pins with pwrgd := true, badRails := bad, bifurc := strap } s.m t ∧
      t.ras.direct = (if bad = 0 then 0 else 1) ∧ startPhase (s.m.pins.devRst = true ∧ s.m.pins.thermtrip = true ∧ bad = 0) s.m t))) ∧
  (∀ s : State, (s.m.pins.pwrgd = false → Does .pwrgdMainFall s (fun t => t = s.m)) ∧
    (s.m.pins.pwrgd = true → Does .pwrgdMainFall s (fun t => Cold { s.m.pins with pwrgd := false, badRails := 0 } s.m.tornUpdate t ∧ startPhase False s.m t ∧ t.ras.direct = 0)) ∧
    (s.m.pins.pwrgd = true → Does .vioX0Removal s (fun t => t = s.m)) ∧
    (s.m.pins.pwrgd = false → Does .vioX0Removal s (fun t => t = { s.m with pins := { s.m.pins with thermtrip := true } }))) ∧
  (∀ (level : Bool) (s : State), let pins := { s.m.pins with devRst := level }
    (s.m.pins.devRst = level → Does (.devRstN level) s (fun t => t = s.m)) ∧
    (s.m.pins.devRst ≠ level → (level = true → Does (.devRstN level) s (fun t =>
        t = { s.m with pins := pins, start := { s.m.start with phase := t.start.phase }, host := { s.m.host with bifurc := t.host.bifurc } } ∧
        let starts := s.m.pins.pwrgd = true ∧ s.m.pins.thermtrip = true ∧ s.m.ras.direct.getLsbD 0 = false
        (starts → t.start.phase = .run 1 ∧ t.host.bifurc = pins.bifurc) ∧ (¬ starts → t = { s.m with pins := pins }))) ∧
      (level = false → (s.m.pins.pwrgd = false → Does (.devRstN level) s (fun t => t = { s.m with pins := pins })) ∧
        (s.m.pins.pwrgd = true → Does (.devRstN level) s (fun t => Cold pins s.m t ∧ startPhase False s.m t ∧ t.ras.direct = s.m.ras.direct &&& 1))))) ∧
  (∀ (port : Nat) (level : Bool) (s : State), port < 2 →
    let mine := fun l => if port = 0 then l = 0 else 1 ≤ l ∧ l ≤ 3
    (level = true ∨ s.m.start.phase = .held → Does (.perstN port level) s (fun t => t = { s.m with host := { s.m.host with links := t.host.links } } ∧
      ∀ l, (mine l → t.hlink l = if level then { s.m.hlink l with perst := false } else { s.m.hlink l with perst := true, cfgReady := false, drs := false }) ∧
        (¬ mine l → t.hlink l = s.m.hlink l))) ∧
    ∀ l, level = false → s.m.start.phase ≠ .held → s.m.start.d3hot = false → (port = 0 ∧ l = 0) ∨ (port = 1 ∧ s.m.host.bifurc = false ∧ l = 1) →
      (s.m.hlink l).perst = false → Does (.perstN port level) s (fun t => (∃ m1 t1, LinkReset l m1 t1 ∧ t = { t1 with host := { t1.host with fns := t.host.fns } } ∧
        t.fnSt l = { (s.m.fnSt l).configReset with aer := FnState.reset.aer, aerSev := FnState.reset.aerSev, aerAdvisory := false } ∧
        m1 = { s.m with host := { s.m.host with links := m1.host.links } } ∧
        ∀ k, (mine k → m1.hlink k = { s.m.hlink k with perst := true, cfgReady := false, drs := false }) ∧ (¬ mine k → m1.hlink k = s.m.hlink k)) ∧
        (s.m.start.phase = .run 6 → (∀ k, k < 4 → ¬ mine k → (s.m.hlink k).up = true → (s.m.hlink k).cfgReady = true) →
          (∀ k, mine k → k ≠ l → (s.m.hlink k).up = false) → t.start.phase = .run 7))) ∧
  (∀ (msg : List Byte) (s : State), Does (.pldmRequest msg) s (fun t => ∃ answer, t = { s.m with out := .pldm answer :: s.m.out })) ∧
  (∀ s : State, (s.m.start.phase ≠ .run 1 → Does .tidePllLock s (fun t => t = s.m) ∧ Does .tidePllLockTimeout s (fun t => t = s.m)) ∧
    (s.m.pins.thermtrip = false → Does .tidePllLock s (fun t => t = s.m)) ∧
    (s.m.start.phase = .run 1 → (s.m.pins.thermtrip = true → Does .tidePllLock s (fun t => t = { s.m with clk := { Clock.reset with locked := true }, start := { s.m.start with phase := .run 2, base := 0 } })) ∧
      Does .tidePllLockTimeout s (fun t => t = { s.m with start := { s.m.start with phase := .held }, ras := { s.m.ras with direct := s.m.ras.direct ||| 8 } }))) ∧
  (∀ s : State, (s.m.start.phase = .held ∨ s.m.clk.locked = false → Does .tideRefclkLoss s (fun t => t = s.m)) ∧
    (s.m.start.phase ≠ .held → s.m.clk.locked = true → Does .tideRefclkLoss s (fun t => FatalError 3 s.m t ∧ t.clk = { s.m.clk with locked := false } ∧
      t.pins = { s.m.pins with tideRef := false })) ∧
    (s.m.start.phase = .held ∨ s.m.pins.tideRef = true → Does .tidePllRelock s (fun t => t = s.m)) ∧
    (s.m.start.phase ≠ .held → s.m.pins.tideRef = false → Does .tidePllRelock s (fun t =>
      t = { s.m with pins := { s.m.pins with tideRef := true }, clk := { s.m.clk with locked := true } }))) ∧
  (∀ (port : Nat) (s : State), port < 2 → let mine := fun l => if port = 0 then l = 0 else 1 ≤ l ∧ l ≤ 3
    Does (.pcieRefclkLoss port) s (fun t => (∀ l, (t.hlink l) = if (s.m.hlink l).up = true ∧ l < 4 ∧ (port = 0 ↔ l = 0) then { s.m.hlink l with up := false, downAt := s.m.now + 1 } else s.m.hlink l) ∧
      (s.m.moon.restart = 0 → (∃ l, mine l ∧ (s.m.hlink l).up = true) → ∃ r, t.ras.ring.head? = some r ∧ (r.code, r.sev) = Config.rasCode 11 ∧ r.die = 0x80 + port) ∧
      ((∀ l, mine l → (s.m.hlink l).up = false) → t = s.m))) ∧
  (∀ s : State, let late := ∃ n limit, (n, limit) ∈ [(2, 60), (3, 250), (4, 400), (5, 430), (6, 430), (7, 700), (8, 700)] ∧ s.m.start.phase = .run n ∧ s.m.start.warmAt = 0 ∧ s.m.start.base + limit * 1000000 < s.m.now
    (late → Does .phaseOverrun s (FailedStart 9 s.m)) ∧ (¬ late → Does .phaseOverrun s (fun t => t = s.m))) ∧
  (∀ (fusesOk lifeOk slotA slotB : Bool) (s : State),
    (¬ InPhase 2 s.m → Does (.bootRomPhaseEnd fusesOk lifeOk slotA slotB) s (fun t => t = s.m)) ∧
    (InPhase 2 s.m → fusesOk = false ∨ lifeOk = false → Does (.bootRomPhaseEnd fusesOk lifeOk slotA slotB) s (fun t =>
      t = { s.m with start := { s.m.start with phase := .held }, ras := { s.m.ras with direct := s.m.ras.direct ||| 4 } })) ∧
    (InPhase 2 s.m → fusesOk = true → lifeOk = true → Does (.bootRomPhaseEnd fusesOk lifeOk slotA slotB) s (fun t =>
      let a := { s.m.moon with slotA := { s.m.moon.slotA with valid := slotA }, slotB := { s.m.moon.slotB with valid := slotB } }
      let can := ∃ b, Bootable a s.m.sec.minSvn b
      Booted a s.m.sec.minSvn t.moon ∧ (can → t.start = { s.m.start with phase := .run 3 } ∧ t.moon.wdog = s.m.now) ∧
      (¬ can → t.start = { s.m.start with phase := .romOnly }) ∧ t.sec.devKey = true ∧
      (s.m.start.warm = true ∧ s.m.cres.probe = .silent ∨ s.m.pins.vstby = false ∨ s.m.cres.st = .absent → t.cres = { s.m.cres with probe := .silent }) ∧
      ((s.m.start.warm = false ∨ s.m.cres.probe ≠ .silent) → s.m.pins.vstby = true → (s.m.cres.st = .ready → t.cres = { s.m.cres with probe := .ready }) ∧
        ∀ since, s.m.cres.st = .starting since → t.cres = { s.m.cres with probe := .starting }) ∧
      tget 0 t.sec.meas 1 = sha384w (hashBytes 0 ++ Config.romVersion) ∧
      tget 0 t.sec.meas 8 = sha384w (hashBytes 0 ++ [0x10, if s.m.host.bifurc then 1 else 0]) ∧
      (∀ b, Boots a s.m.sec.minSvn b → tget 0 t.sec.meas 2 = sha384w (hashBytes 0 ++ hashBytes (a.slot b).digest)) ∧
      ∀ i ∈ [4, 5, 6, 7], tget 0 t.sec.meas i = 0))) ∧
  (∀ (failing : List Nat) (rowsOk : Bool) (s : State), (¬ InPhase 3 s.m → Does (.selfTestPhaseEnd failing rowsOk) s (fun t => t = s.m)) ∧
    (InPhase 3 s.m → rowsOk = false → Does (.selfTestPhaseEnd failing rowsOk) s (FailedStart 7 s.m)) ∧
    (InPhase 3 s.m → rowsOk = true → Does (.selfTestPhaseEnd failing rowsOk) s (fun t => t.start = { s.m.start with phase := .run 4 } ∧ t.ras.flash = t.ras.phys ∧
      t.ras.flashPages = s.m.mem.retired ∧ t.ras.flashRows = s.m.ras.rows ∧ t.ras.rows = s.m.ras.rows ∧ ∀ c, c < 64 →
        let was := fun i => tget PhysCore.good s.m.ras.phys (17 * c + i)
        let n := (List.range 17).countP (fun i => was i != .failed && !failing.contains (17 * c + i))
        (t.clu c).live.toNat = 2 ^ Nat.min 16 n - 1 ∧ (t.clu c).fenced = decide (n = 0) ∧ (t.clu c).spareValid = decide (n = 17) ∧
        ∀ i, i < 17 → let now := tget PhysCore.good t.ras.phys (17 * c + i)
          (was i = .failed → now = .failed) ∧ (was i = .onceFailed → now = if failing.contains (17 * c + i) then .failed else .onceFailed) ∧
          (was i = .good ∨ was i = .spare → if failing.contains (17 * c + i) then now = .onceFailed else now = .good ∨ now = .spare)))) ∧
  (∀ (ok : Bool) (s : State), (¬ InPhase 4 s.m → Does (.hbmInitPhaseEnd ok) s (fun t => t = s.m)) ∧ (¬ InPhase 5 s.m → Does (.dieBridgeTrainingEnd ok) s (fun t => t = s.m)) ∧
    (InPhase 4 s.m → ok = false → Does (.hbmInitPhaseEnd ok) s (FailedStart 7 s.m)) ∧ (InPhase 5 s.m → ok = false → Does (.dieBridgeTrainingEnd ok) s (FailedStart 1 s.m)) ∧
    (InPhase 4 s.m → ok = true → Does (.hbmInitPhaseEnd ok) s (fun t => t = { s.m with start := { s.m.start with phase := .run 5 }, mem := { s.m.mem with hbm := t.mem.hbm, hbmPoison := t.mem.hbmPoison, hbmErr := t.mem.hbmErr, lineKey := t.mem.lineKey } } ∧
      (∀ a, tget 0 t.mem.hbm a = if (s.m.unit (a / 2 ^ 30)).use = .firmware then tget 0 s.m.mem.hbm a else 0) ∧
      ∀ line, tget false t.mem.hbmPoison line = if (s.m.unit (line / 2 ^ 24)).use = .firmware then tget false s.m.mem.hbmPoison line else false)) ∧
    (InPhase 5 s.m → ok = true → Does (.dieBridgeTrainingEnd ok) s (fun t => t = { s.m with start := { s.m.start with phase := t.start.phase }, clk := { s.m.clk with tide := t.clk.tide, aligned := true }, free := t.free } ∧
      t.now = s.m.now ∧ (∀ d e, d < 6 → e < 6 → t.tideOf d ≤ t.tideOf e + 2) ∧
      let waits := ∃ l, l < 4 ∧ (s.m.hlink l).up = true ∧ (s.m.hlink l).cfgReady = false
      (waits → t.start.phase = .run 6) ∧ (¬ waits → t.start.phase = .run 7)))) ∧
  (∀ s : State, (¬ InPhase 7 s.m → Does .moonInitPhaseEnd s (fun t => t = s.m)) ∧
    (InPhase 7 s.m → s.m.start.initAt = 0 → Does .moonInitPhaseEnd s (fun t => t.start.initAt = s.m.now + 1 ∧ t.links.unicast = s.m.links.recUni ∧ t.links.group = s.m.links.recGrp ∧
      (s.m.sec.life = .deployed → let v := s.m.sec
        let best := if v.vaultA.valid = true ∧ (v.vaultB.valid = true → v.vaultB.gen ≤ v.vaultA.gen) then 1 else if v.vaultB.valid then 2 else 0
        (t.sec.loaded, t.sec.vaultValid, t.sec.recovery) = (best, decide (best ≠ 0), decide (best = 0))) ∧
      (∀ l mode port id, s.m.links.recs = [(l, mode, port, id)] → mode ≠ 0 → t.sec.recovery = false → (t.sec.life ≠ .deployed ∨ t.sec.level ≠ .invasive) →
        (t.ylink l).st = .training ∧ (t.ylink l).mode = mode ∧ t.links.devId = id))) ∧
    (InPhase 7 s.m → s.m.start.initAt ≠ 0 →
      let settled := s.m.start.initAt - 1 + 250000000 ≤ s.m.now ∨ ∀ e ∈ s.m.links.recs, e.2.1 = 0 ∨ (s.m.ylink e.1).st = .up
      let late := s.m.start.base + 700000000 ≤ s.m.now
      let ends := fun (b : Bool) => Does .moonInitPhaseEnd s (fun t => t = { s.m with start := { s.m.start with phase := .run 8 }, cres := { s.m.cres with metering := b, probe := if b then s.m.cres.probe else .silent } })
      (settled → s.m.cres.probe = .silent → ends false) ∧ (settled → s.m.cres.probe ≠ .silent → s.m.cres.st = .ready → ends true) ∧
      (settled → s.m.cres.st ≠ .ready → late → ends false) ∧
      (s.m.cres.probe ≠ .silent → s.m.cres.st ≠ .ready → ¬ late → Does .moonInitPhaseEnd s (fun t => t = s.m)) ∧
      (s.m.linksMayTrain = true → ¬ settled → Does .moonInitPhaseEnd s (fun t => t = s.m)))) ∧
  (∀ s : State, let posted := fun (t : Mach) => t.moon.ready = true ∧ t.start.fails = 0 ∧ t.moon.wdog = s.m.now ∧
      ∃ r, (t.chan 0).held = (s.m.chan 0).held ++ [r] ∧ r.opcode = 0x1F0 ∧ r.tag = 0 ∧ r.status = 0 ∧ r.result.length = 22
    (InPhase 8 s.m → Does .deviceReady s (fun t => posted t ∧ t.start.phase = .ready ∧ Confirmed s.m.moon t.moon ∧ t.cres.ledgerAt = s.m.now)) ∧
    (s.m.start.phase = .romOnly → s.m.start.warmAt = 0 → s.m.pins.thermtrip = true → s.m.moon.ready = false → Does .deviceReady s (fun t => posted t ∧ t.start.phase = .romOnly)) ∧
    (¬ InPhase 8 s.m → (s.m.start.phase = .romOnly → s.m.moon.ready = true ∨ s.m.start.warmAt ≠ 0 ∨ s.m.pins.thermtrip = false) → Does .deviceReady s (fun t => t = s.m))) ∧
  (∀ (cause : FatalCause) (s : State), (s.m.start.phase = .held → Does (.warmReset cause) s (fun t => t = s.m)) ∧
    (s.m.start.phase ≠ .held → Does (.warmReset cause) s (FatalError (fatalCode cause) s.m))) ∧
  ∀ s : State, let due := s.m.start.warmAt ≠ 0 ∧ s.m.pins.thermtrip = true ∧ s.m.clk.locked = true ∧ s.m.start.warmAt - 1 ≤ s.m.now
    (due → Does .warmResetStop s (Warm s.m)) ∧ (¬ due → Does .warmResetStop s (fun t => t = s.m))

namespace Sys2Proof.Claims

/-- What reset leaves that the spec states, register group by register group (R11, R348, R418, R429, R443, R448, R559, R560, R584). -/
def AtReset (s : State) : Prop :=
  let m := s.m
  s.pending = [] ∧ (∀ g, (m.grp g).live = false) ∧ (∀ k, (m.krn k).live = false) ∧ (∀ c e, m.ctrVal c e = 0) ∧ m.ops = [] ∧
    (∀ p, (m.part p).st = .absent ∧ (m.part p).irqCause = 0 ∧ (m.part p).thrArmed = false ∧ (m.part p).seqs = [] ∧
      (let b := (m.part p).sb; (b.conf, b.qdBase, b.qdSize, b.qdTail, b.qdHead, b.qdErr) = (false, 0, 0, 0, 0, false)) ∧ ∀ i, tget 0 (m.part p).acct i = 0) ∧
    (∀ l, (m.ylink l).st = .down ∧ (m.ylink l).mode = 0 ∧ (m.ylink l).port = 47931) ∧ m.links.locked = false ∧ m.links.offset = 0 ∧ m.links.err = 0 ∧
    (m.power.cap, m.power.learner, m.power.shares) = (600, false, []) ∧ (∀ h, (m.half h).op = 2) ∧
    (m.ras.mask, m.ras.pend, m.ras.corrected, m.ras.deferred, m.ras.contained, m.ras.fatal) = (0x0E, 0, 0, 0, 0, 0) ∧
    (∀ l, (m.hlink l).up = false ∧ (m.hlink l).vfEnable = false ∧ (m.hlink l).numVfs = 0) ∧ m.host.hdm0.committed = false ∧ m.host.hdm1.committed = false ∧
    (∀ k, (m.chan k).inq = [] ∧ (m.chan k).outq = [] ∧ (m.chan k).cur = none) ∧ m.moon.ready = false ∧ m.sec.level = .none ∧ m.sec.recovery = false ∧
    (∀ i, tget 0 m.sec.meas i = 0) ∧ m.now = 0 ∧ m.start.phase = .held ∧ m.cres.metering = false

end Sys2Proof.Claims

/-- O58: what reset leaves where the manual states it, with fresh identifiers and memories in their form (R11, R348, R418, R429, R443,
R448, R559, R560, R584). Choices and readings of the model: logs 3 to 6. -/
def Obligations.ResetState : Prop := AtReset State.reset ∧ FreshIds State.reset.m ∧ Memory.wf State.reset.m = true

/-- O59: every step keeps identifiers fresh: nothing in flight has an identifier not yet given out. -/
def Obligations.FreshIdsKept : Prop :=
  ∀ s t : State, FreshIds s.m → Sys2Proof.core.step s = .next t → FreshIds t.m ∧ s.m.nextId ≤ t.m.nextId

/-- O60: every step keeps the memories in their canonical form. -/
def Obligations.MemoriesKeepTheirForm : Prop :=
  ∀ s t : State, Memory.wf s.m = true → Sys2Proof.core.step s = .next t → Memory.wf t.m = true
end

