-- ==== Sys2Proof/Laws/Table.lean ====
section
/-! SUPPORT. Laws/Table.lean: reading after writing a sparse table (for any table), and that every table operation keeps the
canonical form. -/

namespace Sys2Proof.Machine

variable {α : Type}

/-- The empty table reads as the default. -/
@[simp] theorem tget_nil (d : α) (i : Nat) : tget d ([] : Tbl α) i = d := rfl

/-- A removed key reads as the default. -/
@[simp] theorem tget_tdel_same (d : α) (t : Tbl α) (i : Nat) : tget d (tdel t i) i = d := by
  induction t with
  | nil => rfl
  | cons e t ih =>
    by_cases h : e.1 = i
    · simpa [tdel, h] using ih
    · have h' : i ≠ e.1 := Ne.symm h
      simpa [tdel, h, tget, h'] using ih

/-- Removing a key leaves every other key alone. -/
theorem tget_tdel_other (d : α) (t : Tbl α) (i j : Nat) (hij : j ≠ i) : tget d (tdel t i) j = tget d t j := by
  induction t with
  | nil => rfl
  | cons e t ih =>
    by_cases h : e.1 = i
    · have hj : j ≠ e.1 := fun h' => hij (h'.trans h)
      simp only [tget, hj, if_false]
      rw [← ih]
      simp [tdel, h]
    · by_cases hj : j = e.1
      · simp [tdel, h, tget, hj]
      · simpa [tdel, h, tget, hj] using ih

/-- A placed entry is read at its key, where the table lists no other of that key. -/
theorem tget_tplace_same (d : α) (t : Tbl α) (i : Nat) (v : α) (h : ∀ e ∈ t, e.1 ≠ i) : tget d (tplace t i v) i = v := by
  induction t with
  | nil => simp [tplace, tget]
  | cons e t ih =>
    have hne : i ≠ e.1 := Ne.symm (h e (by simp))
    by_cases hlt : i < e.1
    · simp [tplace, hlt, tget]
    · simpa [tplace, hlt, tget, hne] using ih (fun x hx => h x (by simp [hx]))

/-- Placing an entry leaves every other key alone. -/
theorem tget_tplace_other (d : α) (t : Tbl α) (i j : Nat) (v : α) (hij : j ≠ i) : tget d (tplace t i v) j = tget d t j := by
  induction t with
  | nil => simp [tplace, tget, hij]
  | cons e t ih =>
    by_cases hlt : i < e.1
    · simp [tplace, hlt, tget, hij]
    · simp [tplace, hlt, tget, ih]

/-- No entry of a removed key is left. -/
theorem tdel_absent (t : Tbl α) (i : Nat) : ∀ e ∈ tdel t i, e.1 ≠ i := by
  intro e he
  simpa [tdel] using (List.mem_filter.mp he).2

/-- Reading an entry that was listed. -/
@[simp] theorem tget_tins_same (d : α) (t : Tbl α) (i : Nat) (v : α) : tget d (tins t i v) i = v :=
  tget_tplace_same d _ i v (tdel_absent t i)

/-- Listing an entry leaves every other key alone. -/
theorem tget_tins_other (d : α) (t : Tbl α) (i j : Nat) (v : α) (hij : j ≠ i) : tget d (tins t i v) j = tget d t j :=
  (tget_tplace_other d _ i j v hij).trans (tget_tdel_other d t i j hij)

section
variable [DecidableEq α]

/-- Reading what was written. -/
@[simp] theorem tget_tput_same (d : α) (t : Tbl α) (i : Nat) (v : α) : tget d (tput d t i v) i = v := by
  by_cases h : v = d
  · simp [tput, h]
  · simp [tput, h]

/-- A write leaves every other key alone. -/
theorem tget_tput_other (d : α) (t : Tbl α) (i j : Nat) (v : α) (hij : j ≠ i) : tget d (tput d t i v) j = tget d t j := by
  by_cases h : v = d
  · simp [tput, h, tget_tdel_other d t i j hij]
  · simp [tput, h, tget_tins_other d t i j v hij]

/-- One written key, read anywhere. -/
theorem tget_tput (d : α) (t : Tbl α) (i j : Nat) (v : α) : tget d (tput d t i v) j = if j = i then v else tget d t j := by
  by_cases h : j = i
  · simp [h]
  · simp [h, tget_tput_other d t i j v h]

/-- One changed key, read anywhere. -/
theorem tget_tmod (d : α) (t : Tbl α) (i j : Nat) (f : α → α) :
    tget d (tmod d t i f) j = if j = i then f (tget d t i) else tget d t j := tget_tput d t i j _

/-! The canonical form. -/

/-- The empty table is canonical. -/
@[simp] theorem twf_nil (d : α) : twf d ([] : Tbl α) = true := rfl

/-- A table canonical from `n` is canonical from any smaller bound. -/
theorem twfFrom_mono (d : α) (t : Tbl α) (n k : Nat) (h : twfFrom d n t = true) (hk : k ≤ n) : twfFrom d k t = true := by
  cases t with
  | nil => rfl
  | cons e t =>
    simp only [twfFrom, Bool.and_eq_true, decide_eq_true_eq] at h ⊢
    exact ⟨⟨by omega, h.1.2⟩, h.2⟩

/-- Removing a key keeps a table canonical. -/
theorem twfFrom_tdel (d : α) (t : Tbl α) (n i : Nat) (h : twfFrom d n t = true) : twfFrom d n (tdel t i) = true := by
  induction t generalizing n with
  | nil => rfl
  | cons e t ih =>
    simp only [twfFrom, Bool.and_eq_true, decide_eq_true_eq] at h
    by_cases hi : e.1 = i
    · have := twfFrom_mono d _ _ n (ih (e.1 + 1) h.2) (by omega)
      simpa [tdel, hi] using this
    · have := ih (e.1 + 1) h.2
      simp only [tdel] at this
      simp [tdel, hi, twfFrom, h.1, this]

/-- Placing an entry other than the default keeps a canonical table canonical, where no other entry has its key. -/
theorem twfFrom_tplace (d : α) (t : Tbl α) (n i : Nat) (v : α) (h : twfFrom d n t = true) (hi : n ≤ i) (hv : v ≠ d)
    (ha : ∀ e ∈ t, e.1 ≠ i) : twfFrom d n (tplace t i v) = true := by
  induction t generalizing n with
  | nil => simp [tplace, twfFrom, hi, hv]
  | cons e t ih =>
    simp only [twfFrom, Bool.and_eq_true, decide_eq_true_eq] at h
    have hne := ha e (by simp)
    by_cases hlt : i < e.1
    · have : i + 1 ≤ e.1 := by omega
      simp [tplace, hlt, twfFrom, hi, hv, this, h.1.2, h.2]
    · have := ih (e.1 + 1) h.2 (by omega) (fun x hx => ha x (by simp [hx]))
      simp [tplace, hlt, twfFrom, h.1, this]

/-- A write keeps the canonical form. -/
theorem twf_tput (d : α) (t : Tbl α) (i : Nat) (v : α) (h : twf d t = true) : twf d (tput d t i v) = true := by
  have hd := twfFrom_tdel d t 0 i h
  by_cases hv : v = d
  · simpa [tput, hv, twf] using hd
  · simpa [tput, hv, twf, tins] using twfFrom_tplace d _ 0 i v hd (Nat.zero_le i) hv (tdel_absent t i)

/-- A change of one key keeps the canonical form. -/
theorem twf_tmod (d : α) (t : Tbl α) (i : Nat) (f : α → α) (h : twf d t = true) : twf d (tmod d t i f) = true :=
  twf_tput d t i _ h

end

end Sys2Proof.Machine
end

