-- ==== Sys2Proof/Laws/State.lean ====
section
/-! SUPPORT. Laws/State.lean: one lemma per field per named update of the device: the field the update does not touch is unchanged;
then what each part reads as after the update that writes it. -/

namespace Sys2Proof.Machine

variable (m : Mach)

/-! `Mach.setGrp`. -/

@[simp] theorem Mach.setGrp_blocks (g : Nat) (x : Group) : (m.setGrp g x).blocks = m.blocks := rfl
@[simp] theorem Mach.setGrp_krns (g : Nat) (x : Group) : (m.setGrp g x).krns = m.krns := rfl
@[simp] theorem Mach.setGrp_cores (g : Nat) (x : Group) : (m.setGrp g x).cores = m.cores := rfl
@[simp] theorem Mach.setGrp_clusters (g : Nat) (x : Group) : (m.setGrp g x).clusters = m.clusters := rfl
@[simp] theorem Mach.setGrp_ops (g : Nat) (x : Group) : (m.setGrp g x).ops = m.ops := rfl
@[simp] theorem Mach.setGrp_sigs (g : Nat) (x : Group) : (m.setGrp g x).sigs = m.sigs := rfl
@[simp] theorem Mach.setGrp_flushes (g : Nat) (x : Group) : (m.setGrp g x).flushes = m.flushes := rfl
@[simp] theorem Mach.setGrp_copies (g : Nat) (x : Group) : (m.setGrp g x).copies = m.copies := rfl
@[simp] theorem Mach.setGrp_mcasts (g : Nat) (x : Group) : (m.setGrp g x).mcasts = m.mcasts := rfl
@[simp] theorem Mach.setGrp_mem (g : Nat) (x : Group) : (m.setGrp g x).mem = m.mem := rfl
@[simp] theorem Mach.setGrp_host (g : Nat) (x : Group) : (m.setGrp g x).host = m.host := rfl
@[simp] theorem Mach.setGrp_parts (g : Nat) (x : Group) : (m.setGrp g x).parts = m.parts := rfl
@[simp] theorem Mach.setGrp_moon (g : Nat) (x : Group) : (m.setGrp g x).moon = m.moon := rfl
@[simp] theorem Mach.setGrp_links (g : Nat) (x : Group) : (m.setGrp g x).links = m.links := rfl
@[simp] theorem Mach.setGrp_power (g : Nat) (x : Group) : (m.setGrp g x).power = m.power := rfl
@[simp] theorem Mach.setGrp_cres (g : Nat) (x : Group) : (m.setGrp g x).cres = m.cres := rfl
@[simp] theorem Mach.setGrp_ras (g : Nat) (x : Group) : (m.setGrp g x).ras = m.ras := rfl
@[simp] theorem Mach.setGrp_sec (g : Nat) (x : Group) : (m.setGrp g x).sec = m.sec := rfl
@[simp] theorem Mach.setGrp_start (g : Nat) (x : Group) : (m.setGrp g x).start = m.start := rfl
@[simp] theorem Mach.setGrp_pins (g : Nat) (x : Group) : (m.setGrp g x).pins = m.pins := rfl
@[simp] theorem Mach.setGrp_clk (g : Nat) (x : Group) : (m.setGrp g x).clk = m.clk := rfl
@[simp] theorem Mach.setGrp_nextId (g : Nat) (x : Group) : (m.setGrp g x).nextId = m.nextId := rfl
@[simp] theorem Mach.setGrp_out (g : Nat) (x : Group) : (m.setGrp g x).out = m.out := rfl
@[simp] theorem Mach.setGrp_free (g : Nat) (x : Group) : (m.setGrp g x).free = m.free := rfl

/-! `Mach.modGrp`. -/

@[simp] theorem Mach.modGrp_blocks (g : Nat) (f : Group → Group) : (m.modGrp g f).blocks = m.blocks := rfl
@[simp] theorem Mach.modGrp_krns (g : Nat) (f : Group → Group) : (m.modGrp g f).krns = m.krns := rfl
@[simp] theorem Mach.modGrp_cores (g : Nat) (f : Group → Group) : (m.modGrp g f).cores = m.cores := rfl
@[simp] theorem Mach.modGrp_clusters (g : Nat) (f : Group → Group) : (m.modGrp g f).clusters = m.clusters := rfl
@[simp] theorem Mach.modGrp_ops (g : Nat) (f : Group → Group) : (m.modGrp g f).ops = m.ops := rfl
@[simp] theorem Mach.modGrp_sigs (g : Nat) (f : Group → Group) : (m.modGrp g f).sigs = m.sigs := rfl
@[simp] theorem Mach.modGrp_flushes (g : Nat) (f : Group → Group) : (m.modGrp g f).flushes = m.flushes := rfl
@[simp] theorem Mach.modGrp_copies (g : Nat) (f : Group → Group) : (m.modGrp g f).copies = m.copies := rfl
@[simp] theorem Mach.modGrp_mcasts (g : Nat) (f : Group → Group) : (m.modGrp g f).mcasts = m.mcasts := rfl
@[simp] theorem Mach.modGrp_mem (g : Nat) (f : Group → Group) : (m.modGrp g f).mem = m.mem := rfl
@[simp] theorem Mach.modGrp_host (g : Nat) (f : Group → Group) : (m.modGrp g f).host = m.host := rfl
@[simp] theorem Mach.modGrp_parts (g : Nat) (f : Group → Group) : (m.modGrp g f).parts = m.parts := rfl
@[simp] theorem Mach.modGrp_moon (g : Nat) (f : Group → Group) : (m.modGrp g f).moon = m.moon := rfl
@[simp] theorem Mach.modGrp_links (g : Nat) (f : Group → Group) : (m.modGrp g f).links = m.links := rfl
@[simp] theorem Mach.modGrp_power (g : Nat) (f : Group → Group) : (m.modGrp g f).power = m.power := rfl
@[simp] theorem Mach.modGrp_cres (g : Nat) (f : Group → Group) : (m.modGrp g f).cres = m.cres := rfl
@[simp] theorem Mach.modGrp_ras (g : Nat) (f : Group → Group) : (m.modGrp g f).ras = m.ras := rfl
@[simp] theorem Mach.modGrp_sec (g : Nat) (f : Group → Group) : (m.modGrp g f).sec = m.sec := rfl
@[simp] theorem Mach.modGrp_start (g : Nat) (f : Group → Group) : (m.modGrp g f).start = m.start := rfl
@[simp] theorem Mach.modGrp_pins (g : Nat) (f : Group → Group) : (m.modGrp g f).pins = m.pins := rfl
@[simp] theorem Mach.modGrp_clk (g : Nat) (f : Group → Group) : (m.modGrp g f).clk = m.clk := rfl
@[simp] theorem Mach.modGrp_nextId (g : Nat) (f : Group → Group) : (m.modGrp g f).nextId = m.nextId := rfl
@[simp] theorem Mach.modGrp_out (g : Nat) (f : Group → Group) : (m.modGrp g f).out = m.out := rfl
@[simp] theorem Mach.modGrp_free (g : Nat) (f : Group → Group) : (m.modGrp g f).free = m.free := rfl

/-! `Mach.setBlk`. -/

@[simp] theorem Mach.setBlk_groups (b : Nat) (x : Block) : (m.setBlk b x).groups = m.groups := rfl
@[simp] theorem Mach.setBlk_krns (b : Nat) (x : Block) : (m.setBlk b x).krns = m.krns := rfl
@[simp] theorem Mach.setBlk_cores (b : Nat) (x : Block) : (m.setBlk b x).cores = m.cores := rfl
@[simp] theorem Mach.setBlk_clusters (b : Nat) (x : Block) : (m.setBlk b x).clusters = m.clusters := rfl
@[simp] theorem Mach.setBlk_ops (b : Nat) (x : Block) : (m.setBlk b x).ops = m.ops := rfl
@[simp] theorem Mach.setBlk_sigs (b : Nat) (x : Block) : (m.setBlk b x).sigs = m.sigs := rfl
@[simp] theorem Mach.setBlk_flushes (b : Nat) (x : Block) : (m.setBlk b x).flushes = m.flushes := rfl
@[simp] theorem Mach.setBlk_copies (b : Nat) (x : Block) : (m.setBlk b x).copies = m.copies := rfl
@[simp] theorem Mach.setBlk_mcasts (b : Nat) (x : Block) : (m.setBlk b x).mcasts = m.mcasts := rfl
@[simp] theorem Mach.setBlk_mem (b : Nat) (x : Block) : (m.setBlk b x).mem = m.mem := rfl
@[simp] theorem Mach.setBlk_host (b : Nat) (x : Block) : (m.setBlk b x).host = m.host := rfl
@[simp] theorem Mach.setBlk_parts (b : Nat) (x : Block) : (m.setBlk b x).parts = m.parts := rfl
@[simp] theorem Mach.setBlk_moon (b : Nat) (x : Block) : (m.setBlk b x).moon = m.moon := rfl
@[simp] theorem Mach.setBlk_links (b : Nat) (x : Block) : (m.setBlk b x).links = m.links := rfl
@[simp] theorem Mach.setBlk_power (b : Nat) (x : Block) : (m.setBlk b x).power = m.power := rfl
@[simp] theorem Mach.setBlk_cres (b : Nat) (x : Block) : (m.setBlk b x).cres = m.cres := rfl
@[simp] theorem Mach.setBlk_ras (b : Nat) (x : Block) : (m.setBlk b x).ras = m.ras := rfl
@[simp] theorem Mach.setBlk_sec (b : Nat) (x : Block) : (m.setBlk b x).sec = m.sec := rfl
@[simp] theorem Mach.setBlk_start (b : Nat) (x : Block) : (m.setBlk b x).start = m.start := rfl
@[simp] theorem Mach.setBlk_pins (b : Nat) (x : Block) : (m.setBlk b x).pins = m.pins := rfl
@[simp] theorem Mach.setBlk_clk (b : Nat) (x : Block) : (m.setBlk b x).clk = m.clk := rfl
@[simp] theorem Mach.setBlk_nextId (b : Nat) (x : Block) : (m.setBlk b x).nextId = m.nextId := rfl
@[simp] theorem Mach.setBlk_out (b : Nat) (x : Block) : (m.setBlk b x).out = m.out := rfl
@[simp] theorem Mach.setBlk_free (b : Nat) (x : Block) : (m.setBlk b x).free = m.free := rfl

/-! `Mach.setKrn`. -/

@[simp] theorem Mach.setKrn_groups (k : Nat) (x : Krn) : (m.setKrn k x).groups = m.groups := rfl
@[simp] theorem Mach.setKrn_blocks (k : Nat) (x : Krn) : (m.setKrn k x).blocks = m.blocks := rfl
@[simp] theorem Mach.setKrn_cores (k : Nat) (x : Krn) : (m.setKrn k x).cores = m.cores := rfl
@[simp] theorem Mach.setKrn_clusters (k : Nat) (x : Krn) : (m.setKrn k x).clusters = m.clusters := rfl
@[simp] theorem Mach.setKrn_ops (k : Nat) (x : Krn) : (m.setKrn k x).ops = m.ops := rfl
@[simp] theorem Mach.setKrn_sigs (k : Nat) (x : Krn) : (m.setKrn k x).sigs = m.sigs := rfl
@[simp] theorem Mach.setKrn_flushes (k : Nat) (x : Krn) : (m.setKrn k x).flushes = m.flushes := rfl
@[simp] theorem Mach.setKrn_copies (k : Nat) (x : Krn) : (m.setKrn k x).copies = m.copies := rfl
@[simp] theorem Mach.setKrn_mcasts (k : Nat) (x : Krn) : (m.setKrn k x).mcasts = m.mcasts := rfl
@[simp] theorem Mach.setKrn_mem (k : Nat) (x : Krn) : (m.setKrn k x).mem = m.mem := rfl
@[simp] theorem Mach.setKrn_host (k : Nat) (x : Krn) : (m.setKrn k x).host = m.host := rfl
@[simp] theorem Mach.setKrn_parts (k : Nat) (x : Krn) : (m.setKrn k x).parts = m.parts := rfl
@[simp] theorem Mach.setKrn_moon (k : Nat) (x : Krn) : (m.setKrn k x).moon = m.moon := rfl
@[simp] theorem Mach.setKrn_links (k : Nat) (x : Krn) : (m.setKrn k x).links = m.links := rfl
@[simp] theorem Mach.setKrn_power (k : Nat) (x : Krn) : (m.setKrn k x).power = m.power := rfl
@[simp] theorem Mach.setKrn_cres (k : Nat) (x : Krn) : (m.setKrn k x).cres = m.cres := rfl
@[simp] theorem Mach.setKrn_ras (k : Nat) (x : Krn) : (m.setKrn k x).ras = m.ras := rfl
@[simp] theorem Mach.setKrn_sec (k : Nat) (x : Krn) : (m.setKrn k x).sec = m.sec := rfl
@[simp] theorem Mach.setKrn_start (k : Nat) (x : Krn) : (m.setKrn k x).start = m.start := rfl
@[simp] theorem Mach.setKrn_pins (k : Nat) (x : Krn) : (m.setKrn k x).pins = m.pins := rfl
@[simp] theorem Mach.setKrn_clk (k : Nat) (x : Krn) : (m.setKrn k x).clk = m.clk := rfl
@[simp] theorem Mach.setKrn_nextId (k : Nat) (x : Krn) : (m.setKrn k x).nextId = m.nextId := rfl
@[simp] theorem Mach.setKrn_out (k : Nat) (x : Krn) : (m.setKrn k x).out = m.out := rfl
@[simp] theorem Mach.setKrn_free (k : Nat) (x : Krn) : (m.setKrn k x).free = m.free := rfl

/-! `Mach.modKrn`. -/

@[simp] theorem Mach.modKrn_groups (k : Nat) (f : Krn → Krn) : (m.modKrn k f).groups = m.groups := rfl
@[simp] theorem Mach.modKrn_blocks (k : Nat) (f : Krn → Krn) : (m.modKrn k f).blocks = m.blocks := rfl
@[simp] theorem Mach.modKrn_cores (k : Nat) (f : Krn → Krn) : (m.modKrn k f).cores = m.cores := rfl
@[simp] theorem Mach.modKrn_clusters (k : Nat) (f : Krn → Krn) : (m.modKrn k f).clusters = m.clusters := rfl
@[simp] theorem Mach.modKrn_ops (k : Nat) (f : Krn → Krn) : (m.modKrn k f).ops = m.ops := rfl
@[simp] theorem Mach.modKrn_sigs (k : Nat) (f : Krn → Krn) : (m.modKrn k f).sigs = m.sigs := rfl
@[simp] theorem Mach.modKrn_flushes (k : Nat) (f : Krn → Krn) : (m.modKrn k f).flushes = m.flushes := rfl
@[simp] theorem Mach.modKrn_copies (k : Nat) (f : Krn → Krn) : (m.modKrn k f).copies = m.copies := rfl
@[simp] theorem Mach.modKrn_mcasts (k : Nat) (f : Krn → Krn) : (m.modKrn k f).mcasts = m.mcasts := rfl
@[simp] theorem Mach.modKrn_mem (k : Nat) (f : Krn → Krn) : (m.modKrn k f).mem = m.mem := rfl
@[simp] theorem Mach.modKrn_host (k : Nat) (f : Krn → Krn) : (m.modKrn k f).host = m.host := rfl
@[simp] theorem Mach.modKrn_parts (k : Nat) (f : Krn → Krn) : (m.modKrn k f).parts = m.parts := rfl
@[simp] theorem Mach.modKrn_moon (k : Nat) (f : Krn → Krn) : (m.modKrn k f).moon = m.moon := rfl
@[simp] theorem Mach.modKrn_links (k : Nat) (f : Krn → Krn) : (m.modKrn k f).links = m.links := rfl
@[simp] theorem Mach.modKrn_power (k : Nat) (f : Krn → Krn) : (m.modKrn k f).power = m.power := rfl
@[simp] theorem Mach.modKrn_cres (k : Nat) (f : Krn → Krn) : (m.modKrn k f).cres = m.cres := rfl
@[simp] theorem Mach.modKrn_ras (k : Nat) (f : Krn → Krn) : (m.modKrn k f).ras = m.ras := rfl
@[simp] theorem Mach.modKrn_sec (k : Nat) (f : Krn → Krn) : (m.modKrn k f).sec = m.sec := rfl
@[simp] theorem Mach.modKrn_start (k : Nat) (f : Krn → Krn) : (m.modKrn k f).start = m.start := rfl
@[simp] theorem Mach.modKrn_pins (k : Nat) (f : Krn → Krn) : (m.modKrn k f).pins = m.pins := rfl
@[simp] theorem Mach.modKrn_clk (k : Nat) (f : Krn → Krn) : (m.modKrn k f).clk = m.clk := rfl
@[simp] theorem Mach.modKrn_nextId (k : Nat) (f : Krn → Krn) : (m.modKrn k f).nextId = m.nextId := rfl
@[simp] theorem Mach.modKrn_out (k : Nat) (f : Krn → Krn) : (m.modKrn k f).out = m.out := rfl
@[simp] theorem Mach.modKrn_free (k : Nat) (f : Krn → Krn) : (m.modKrn k f).free = m.free := rfl

/-! `Mach.setCore`. -/

@[simp] theorem Mach.setCore_groups (c : Nat) (x : Core) : (m.setCore c x).groups = m.groups := rfl
@[simp] theorem Mach.setCore_blocks (c : Nat) (x : Core) : (m.setCore c x).blocks = m.blocks := rfl
@[simp] theorem Mach.setCore_krns (c : Nat) (x : Core) : (m.setCore c x).krns = m.krns := rfl
@[simp] theorem Mach.setCore_clusters (c : Nat) (x : Core) : (m.setCore c x).clusters = m.clusters := rfl
@[simp] theorem Mach.setCore_ops (c : Nat) (x : Core) : (m.setCore c x).ops = m.ops := rfl
@[simp] theorem Mach.setCore_sigs (c : Nat) (x : Core) : (m.setCore c x).sigs = m.sigs := rfl
@[simp] theorem Mach.setCore_flushes (c : Nat) (x : Core) : (m.setCore c x).flushes = m.flushes := rfl
@[simp] theorem Mach.setCore_copies (c : Nat) (x : Core) : (m.setCore c x).copies = m.copies := rfl
@[simp] theorem Mach.setCore_mcasts (c : Nat) (x : Core) : (m.setCore c x).mcasts = m.mcasts := rfl
@[simp] theorem Mach.setCore_mem (c : Nat) (x : Core) : (m.setCore c x).mem = m.mem := rfl
@[simp] theorem Mach.setCore_host (c : Nat) (x : Core) : (m.setCore c x).host = m.host := rfl
@[simp] theorem Mach.setCore_parts (c : Nat) (x : Core) : (m.setCore c x).parts = m.parts := rfl
@[simp] theorem Mach.setCore_moon (c : Nat) (x : Core) : (m.setCore c x).moon = m.moon := rfl
@[simp] theorem Mach.setCore_links (c : Nat) (x : Core) : (m.setCore c x).links = m.links := rfl
@[simp] theorem Mach.setCore_power (c : Nat) (x : Core) : (m.setCore c x).power = m.power := rfl
@[simp] theorem Mach.setCore_cres (c : Nat) (x : Core) : (m.setCore c x).cres = m.cres := rfl
@[simp] theorem Mach.setCore_ras (c : Nat) (x : Core) : (m.setCore c x).ras = m.ras := rfl
@[simp] theorem Mach.setCore_sec (c : Nat) (x : Core) : (m.setCore c x).sec = m.sec := rfl
@[simp] theorem Mach.setCore_start (c : Nat) (x : Core) : (m.setCore c x).start = m.start := rfl
@[simp] theorem Mach.setCore_pins (c : Nat) (x : Core) : (m.setCore c x).pins = m.pins := rfl
@[simp] theorem Mach.setCore_clk (c : Nat) (x : Core) : (m.setCore c x).clk = m.clk := rfl
@[simp] theorem Mach.setCore_nextId (c : Nat) (x : Core) : (m.setCore c x).nextId = m.nextId := rfl
@[simp] theorem Mach.setCore_out (c : Nat) (x : Core) : (m.setCore c x).out = m.out := rfl
@[simp] theorem Mach.setCore_free (c : Nat) (x : Core) : (m.setCore c x).free = m.free := rfl

/-! `Mach.modCore`. -/

@[simp] theorem Mach.modCore_groups (c : Nat) (f : Core → Core) : (m.modCore c f).groups = m.groups := rfl
@[simp] theorem Mach.modCore_blocks (c : Nat) (f : Core → Core) : (m.modCore c f).blocks = m.blocks := rfl
@[simp] theorem Mach.modCore_krns (c : Nat) (f : Core → Core) : (m.modCore c f).krns = m.krns := rfl
@[simp] theorem Mach.modCore_clusters (c : Nat) (f : Core → Core) : (m.modCore c f).clusters = m.clusters := rfl
@[simp] theorem Mach.modCore_ops (c : Nat) (f : Core → Core) : (m.modCore c f).ops = m.ops := rfl
@[simp] theorem Mach.modCore_sigs (c : Nat) (f : Core → Core) : (m.modCore c f).sigs = m.sigs := rfl
@[simp] theorem Mach.modCore_flushes (c : Nat) (f : Core → Core) : (m.modCore c f).flushes = m.flushes := rfl
@[simp] theorem Mach.modCore_copies (c : Nat) (f : Core → Core) : (m.modCore c f).copies = m.copies := rfl
@[simp] theorem Mach.modCore_mcasts (c : Nat) (f : Core → Core) : (m.modCore c f).mcasts = m.mcasts := rfl
@[simp] theorem Mach.modCore_mem (c : Nat) (f : Core → Core) : (m.modCore c f).mem = m.mem := rfl
@[simp] theorem Mach.modCore_host (c : Nat) (f : Core → Core) : (m.modCore c f).host = m.host := rfl
@[simp] theorem Mach.modCore_parts (c : Nat) (f : Core → Core) : (m.modCore c f).parts = m.parts := rfl
@[simp] theorem Mach.modCore_moon (c : Nat) (f : Core → Core) : (m.modCore c f).moon = m.moon := rfl
@[simp] theorem Mach.modCore_links (c : Nat) (f : Core → Core) : (m.modCore c f).links = m.links := rfl
@[simp] theorem Mach.modCore_power (c : Nat) (f : Core → Core) : (m.modCore c f).power = m.power := rfl
@[simp] theorem Mach.modCore_cres (c : Nat) (f : Core → Core) : (m.modCore c f).cres = m.cres := rfl
@[simp] theorem Mach.modCore_ras (c : Nat) (f : Core → Core) : (m.modCore c f).ras = m.ras := rfl
@[simp] theorem Mach.modCore_sec (c : Nat) (f : Core → Core) : (m.modCore c f).sec = m.sec := rfl
@[simp] theorem Mach.modCore_start (c : Nat) (f : Core → Core) : (m.modCore c f).start = m.start := rfl
@[simp] theorem Mach.modCore_pins (c : Nat) (f : Core → Core) : (m.modCore c f).pins = m.pins := rfl
@[simp] theorem Mach.modCore_clk (c : Nat) (f : Core → Core) : (m.modCore c f).clk = m.clk := rfl
@[simp] theorem Mach.modCore_nextId (c : Nat) (f : Core → Core) : (m.modCore c f).nextId = m.nextId := rfl
@[simp] theorem Mach.modCore_out (c : Nat) (f : Core → Core) : (m.modCore c f).out = m.out := rfl
@[simp] theorem Mach.modCore_free (c : Nat) (f : Core → Core) : (m.modCore c f).free = m.free := rfl

/-! `Mach.setClu`. -/

@[simp] theorem Mach.setClu_groups (c : Nat) (x : Cluster) : (m.setClu c x).groups = m.groups := rfl
@[simp] theorem Mach.setClu_blocks (c : Nat) (x : Cluster) : (m.setClu c x).blocks = m.blocks := rfl
@[simp] theorem Mach.setClu_krns (c : Nat) (x : Cluster) : (m.setClu c x).krns = m.krns := rfl
@[simp] theorem Mach.setClu_cores (c : Nat) (x : Cluster) : (m.setClu c x).cores = m.cores := rfl
@[simp] theorem Mach.setClu_ops (c : Nat) (x : Cluster) : (m.setClu c x).ops = m.ops := rfl
@[simp] theorem Mach.setClu_sigs (c : Nat) (x : Cluster) : (m.setClu c x).sigs = m.sigs := rfl
@[simp] theorem Mach.setClu_flushes (c : Nat) (x : Cluster) : (m.setClu c x).flushes = m.flushes := rfl
@[simp] theorem Mach.setClu_copies (c : Nat) (x : Cluster) : (m.setClu c x).copies = m.copies := rfl
@[simp] theorem Mach.setClu_mcasts (c : Nat) (x : Cluster) : (m.setClu c x).mcasts = m.mcasts := rfl
@[simp] theorem Mach.setClu_mem (c : Nat) (x : Cluster) : (m.setClu c x).mem = m.mem := rfl
@[simp] theorem Mach.setClu_host (c : Nat) (x : Cluster) : (m.setClu c x).host = m.host := rfl
@[simp] theorem Mach.setClu_parts (c : Nat) (x : Cluster) : (m.setClu c x).parts = m.parts := rfl
@[simp] theorem Mach.setClu_moon (c : Nat) (x : Cluster) : (m.setClu c x).moon = m.moon := rfl
@[simp] theorem Mach.setClu_links (c : Nat) (x : Cluster) : (m.setClu c x).links = m.links := rfl
@[simp] theorem Mach.setClu_power (c : Nat) (x : Cluster) : (m.setClu c x).power = m.power := rfl
@[simp] theorem Mach.setClu_cres (c : Nat) (x : Cluster) : (m.setClu c x).cres = m.cres := rfl
@[simp] theorem Mach.setClu_ras (c : Nat) (x : Cluster) : (m.setClu c x).ras = m.ras := rfl
@[simp] theorem Mach.setClu_sec (c : Nat) (x : Cluster) : (m.setClu c x).sec = m.sec := rfl
@[simp] theorem Mach.setClu_start (c : Nat) (x : Cluster) : (m.setClu c x).start = m.start := rfl
@[simp] theorem Mach.setClu_pins (c : Nat) (x : Cluster) : (m.setClu c x).pins = m.pins := rfl
@[simp] theorem Mach.setClu_clk (c : Nat) (x : Cluster) : (m.setClu c x).clk = m.clk := rfl
@[simp] theorem Mach.setClu_nextId (c : Nat) (x : Cluster) : (m.setClu c x).nextId = m.nextId := rfl
@[simp] theorem Mach.setClu_out (c : Nat) (x : Cluster) : (m.setClu c x).out = m.out := rfl
@[simp] theorem Mach.setClu_free (c : Nat) (x : Cluster) : (m.setClu c x).free = m.free := rfl

/-! `Mach.modClu`. -/

@[simp] theorem Mach.modClu_groups (c : Nat) (f : Cluster → Cluster) : (m.modClu c f).groups = m.groups := rfl
@[simp] theorem Mach.modClu_blocks (c : Nat) (f : Cluster → Cluster) : (m.modClu c f).blocks = m.blocks := rfl
@[simp] theorem Mach.modClu_krns (c : Nat) (f : Cluster → Cluster) : (m.modClu c f).krns = m.krns := rfl
@[simp] theorem Mach.modClu_cores (c : Nat) (f : Cluster → Cluster) : (m.modClu c f).cores = m.cores := rfl
@[simp] theorem Mach.modClu_ops (c : Nat) (f : Cluster → Cluster) : (m.modClu c f).ops = m.ops := rfl
@[simp] theorem Mach.modClu_sigs (c : Nat) (f : Cluster → Cluster) : (m.modClu c f).sigs = m.sigs := rfl
@[simp] theorem Mach.modClu_flushes (c : Nat) (f : Cluster → Cluster) : (m.modClu c f).flushes = m.flushes := rfl
@[simp] theorem Mach.modClu_copies (c : Nat) (f : Cluster → Cluster) : (m.modClu c f).copies = m.copies := rfl
@[simp] theorem Mach.modClu_mcasts (c : Nat) (f : Cluster → Cluster) : (m.modClu c f).mcasts = m.mcasts := rfl
@[simp] theorem Mach.modClu_mem (c : Nat) (f : Cluster → Cluster) : (m.modClu c f).mem = m.mem := rfl
@[simp] theorem Mach.modClu_host (c : Nat) (f : Cluster → Cluster) : (m.modClu c f).host = m.host := rfl
@[simp] theorem Mach.modClu_parts (c : Nat) (f : Cluster → Cluster) : (m.modClu c f).parts = m.parts := rfl
@[simp] theorem Mach.modClu_moon (c : Nat) (f : Cluster → Cluster) : (m.modClu c f).moon = m.moon := rfl
@[simp] theorem Mach.modClu_links (c : Nat) (f : Cluster → Cluster) : (m.modClu c f).links = m.links := rfl
@[simp] theorem Mach.modClu_power (c : Nat) (f : Cluster → Cluster) : (m.modClu c f).power = m.power := rfl
@[simp] theorem Mach.modClu_cres (c : Nat) (f : Cluster → Cluster) : (m.modClu c f).cres = m.cres := rfl
@[simp] theorem Mach.modClu_ras (c : Nat) (f : Cluster → Cluster) : (m.modClu c f).ras = m.ras := rfl
@[simp] theorem Mach.modClu_sec (c : Nat) (f : Cluster → Cluster) : (m.modClu c f).sec = m.sec := rfl
@[simp] theorem Mach.modClu_start (c : Nat) (f : Cluster → Cluster) : (m.modClu c f).start = m.start := rfl
@[simp] theorem Mach.modClu_pins (c : Nat) (f : Cluster → Cluster) : (m.modClu c f).pins = m.pins := rfl
@[simp] theorem Mach.modClu_clk (c : Nat) (f : Cluster → Cluster) : (m.modClu c f).clk = m.clk := rfl
@[simp] theorem Mach.modClu_nextId (c : Nat) (f : Cluster → Cluster) : (m.modClu c f).nextId = m.nextId := rfl
@[simp] theorem Mach.modClu_out (c : Nat) (f : Cluster → Cluster) : (m.modClu c f).out = m.out := rfl
@[simp] theorem Mach.modClu_free (c : Nat) (f : Cluster → Cluster) : (m.modClu c f).free = m.free := rfl

/-! `Mach.setPart`. -/

@[simp] theorem Mach.setPart_groups (p : Nat) (x : Part) : (m.setPart p x).groups = m.groups := rfl
@[simp] theorem Mach.setPart_blocks (p : Nat) (x : Part) : (m.setPart p x).blocks = m.blocks := rfl
@[simp] theorem Mach.setPart_krns (p : Nat) (x : Part) : (m.setPart p x).krns = m.krns := rfl
@[simp] theorem Mach.setPart_cores (p : Nat) (x : Part) : (m.setPart p x).cores = m.cores := rfl
@[simp] theorem Mach.setPart_clusters (p : Nat) (x : Part) : (m.setPart p x).clusters = m.clusters := rfl
@[simp] theorem Mach.setPart_ops (p : Nat) (x : Part) : (m.setPart p x).ops = m.ops := rfl
@[simp] theorem Mach.setPart_sigs (p : Nat) (x : Part) : (m.setPart p x).sigs = m.sigs := rfl
@[simp] theorem Mach.setPart_flushes (p : Nat) (x : Part) : (m.setPart p x).flushes = m.flushes := rfl
@[simp] theorem Mach.setPart_copies (p : Nat) (x : Part) : (m.setPart p x).copies = m.copies := rfl
@[simp] theorem Mach.setPart_mcasts (p : Nat) (x : Part) : (m.setPart p x).mcasts = m.mcasts := rfl
@[simp] theorem Mach.setPart_mem (p : Nat) (x : Part) : (m.setPart p x).mem = m.mem := rfl
@[simp] theorem Mach.setPart_host (p : Nat) (x : Part) : (m.setPart p x).host = m.host := rfl
@[simp] theorem Mach.setPart_moon (p : Nat) (x : Part) : (m.setPart p x).moon = m.moon := rfl
@[simp] theorem Mach.setPart_links (p : Nat) (x : Part) : (m.setPart p x).links = m.links := rfl
@[simp] theorem Mach.setPart_power (p : Nat) (x : Part) : (m.setPart p x).power = m.power := rfl
@[simp] theorem Mach.setPart_cres (p : Nat) (x : Part) : (m.setPart p x).cres = m.cres := rfl
@[simp] theorem Mach.setPart_ras (p : Nat) (x : Part) : (m.setPart p x).ras = m.ras := rfl
@[simp] theorem Mach.setPart_sec (p : Nat) (x : Part) : (m.setPart p x).sec = m.sec := rfl
@[simp] theorem Mach.setPart_start (p : Nat) (x : Part) : (m.setPart p x).start = m.start := rfl
@[simp] theorem Mach.setPart_pins (p : Nat) (x : Part) : (m.setPart p x).pins = m.pins := rfl
@[simp] theorem Mach.setPart_clk (p : Nat) (x : Part) : (m.setPart p x).clk = m.clk := rfl
@[simp] theorem Mach.setPart_nextId (p : Nat) (x : Part) : (m.setPart p x).nextId = m.nextId := rfl
@[simp] theorem Mach.setPart_out (p : Nat) (x : Part) : (m.setPart p x).out = m.out := rfl
@[simp] theorem Mach.setPart_free (p : Nat) (x : Part) : (m.setPart p x).free = m.free := rfl

/-! `Mach.modPart`. -/

@[simp] theorem Mach.modPart_groups (p : Nat) (f : Part → Part) : (m.modPart p f).groups = m.groups := rfl
@[simp] theorem Mach.modPart_blocks (p : Nat) (f : Part → Part) : (m.modPart p f).blocks = m.blocks := rfl
@[simp] theorem Mach.modPart_krns (p : Nat) (f : Part → Part) : (m.modPart p f).krns = m.krns := rfl
@[simp] theorem Mach.modPart_cores (p : Nat) (f : Part → Part) : (m.modPart p f).cores = m.cores := rfl
@[simp] theorem Mach.modPart_clusters (p : Nat) (f : Part → Part) : (m.modPart p f).clusters = m.clusters := rfl
@[simp] theorem Mach.modPart_ops (p : Nat) (f : Part → Part) : (m.modPart p f).ops = m.ops := rfl
@[simp] theorem Mach.modPart_sigs (p : Nat) (f : Part → Part) : (m.modPart p f).sigs = m.sigs := rfl
@[simp] theorem Mach.modPart_flushes (p : Nat) (f : Part → Part) : (m.modPart p f).flushes = m.flushes := rfl
@[simp] theorem Mach.modPart_copies (p : Nat) (f : Part → Part) : (m.modPart p f).copies = m.copies := rfl
@[simp] theorem Mach.modPart_mcasts (p : Nat) (f : Part → Part) : (m.modPart p f).mcasts = m.mcasts := rfl
@[simp] theorem Mach.modPart_mem (p : Nat) (f : Part → Part) : (m.modPart p f).mem = m.mem := rfl
@[simp] theorem Mach.modPart_host (p : Nat) (f : Part → Part) : (m.modPart p f).host = m.host := rfl
@[simp] theorem Mach.modPart_moon (p : Nat) (f : Part → Part) : (m.modPart p f).moon = m.moon := rfl
@[simp] theorem Mach.modPart_links (p : Nat) (f : Part → Part) : (m.modPart p f).links = m.links := rfl
@[simp] theorem Mach.modPart_power (p : Nat) (f : Part → Part) : (m.modPart p f).power = m.power := rfl
@[simp] theorem Mach.modPart_cres (p : Nat) (f : Part → Part) : (m.modPart p f).cres = m.cres := rfl
@[simp] theorem Mach.modPart_ras (p : Nat) (f : Part → Part) : (m.modPart p f).ras = m.ras := rfl
@[simp] theorem Mach.modPart_sec (p : Nat) (f : Part → Part) : (m.modPart p f).sec = m.sec := rfl
@[simp] theorem Mach.modPart_start (p : Nat) (f : Part → Part) : (m.modPart p f).start = m.start := rfl
@[simp] theorem Mach.modPart_pins (p : Nat) (f : Part → Part) : (m.modPart p f).pins = m.pins := rfl
@[simp] theorem Mach.modPart_clk (p : Nat) (f : Part → Part) : (m.modPart p f).clk = m.clk := rfl
@[simp] theorem Mach.modPart_nextId (p : Nat) (f : Part → Part) : (m.modPart p f).nextId = m.nextId := rfl
@[simp] theorem Mach.modPart_out (p : Nat) (f : Part → Part) : (m.modPart p f).out = m.out := rfl
@[simp] theorem Mach.modPart_free (p : Nat) (f : Part → Part) : (m.modPart p f).free = m.free := rfl

/-! `Mach.modSb`. -/

@[simp] theorem Mach.modSb_groups (p : Nat) (f : StepB → StepB) : (m.modSb p f).groups = m.groups := rfl
@[simp] theorem Mach.modSb_blocks (p : Nat) (f : StepB → StepB) : (m.modSb p f).blocks = m.blocks := rfl
@[simp] theorem Mach.modSb_krns (p : Nat) (f : StepB → StepB) : (m.modSb p f).krns = m.krns := rfl
@[simp] theorem Mach.modSb_cores (p : Nat) (f : StepB → StepB) : (m.modSb p f).cores = m.cores := rfl
@[simp] theorem Mach.modSb_clusters (p : Nat) (f : StepB → StepB) : (m.modSb p f).clusters = m.clusters := rfl
@[simp] theorem Mach.modSb_ops (p : Nat) (f : StepB → StepB) : (m.modSb p f).ops = m.ops := rfl
@[simp] theorem Mach.modSb_sigs (p : Nat) (f : StepB → StepB) : (m.modSb p f).sigs = m.sigs := rfl
@[simp] theorem Mach.modSb_flushes (p : Nat) (f : StepB → StepB) : (m.modSb p f).flushes = m.flushes := rfl
@[simp] theorem Mach.modSb_copies (p : Nat) (f : StepB → StepB) : (m.modSb p f).copies = m.copies := rfl
@[simp] theorem Mach.modSb_mcasts (p : Nat) (f : StepB → StepB) : (m.modSb p f).mcasts = m.mcasts := rfl
@[simp] theorem Mach.modSb_mem (p : Nat) (f : StepB → StepB) : (m.modSb p f).mem = m.mem := rfl
@[simp] theorem Mach.modSb_host (p : Nat) (f : StepB → StepB) : (m.modSb p f).host = m.host := rfl
@[simp] theorem Mach.modSb_moon (p : Nat) (f : StepB → StepB) : (m.modSb p f).moon = m.moon := rfl
@[simp] theorem Mach.modSb_links (p : Nat) (f : StepB → StepB) : (m.modSb p f).links = m.links := rfl
@[simp] theorem Mach.modSb_power (p : Nat) (f : StepB → StepB) : (m.modSb p f).power = m.power := rfl
@[simp] theorem Mach.modSb_cres (p : Nat) (f : StepB → StepB) : (m.modSb p f).cres = m.cres := rfl
@[simp] theorem Mach.modSb_ras (p : Nat) (f : StepB → StepB) : (m.modSb p f).ras = m.ras := rfl
@[simp] theorem Mach.modSb_sec (p : Nat) (f : StepB → StepB) : (m.modSb p f).sec = m.sec := rfl
@[simp] theorem Mach.modSb_start (p : Nat) (f : StepB → StepB) : (m.modSb p f).start = m.start := rfl
@[simp] theorem Mach.modSb_pins (p : Nat) (f : StepB → StepB) : (m.modSb p f).pins = m.pins := rfl
@[simp] theorem Mach.modSb_clk (p : Nat) (f : StepB → StepB) : (m.modSb p f).clk = m.clk := rfl
@[simp] theorem Mach.modSb_nextId (p : Nat) (f : StepB → StepB) : (m.modSb p f).nextId = m.nextId := rfl
@[simp] theorem Mach.modSb_out (p : Nat) (f : StepB → StepB) : (m.modSb p f).out = m.out := rfl
@[simp] theorem Mach.modSb_free (p : Nat) (f : StepB → StepB) : (m.modSb p f).free = m.free := rfl

/-! `Mach.modMem`. -/

@[simp] theorem Mach.modMem_groups (f : Mem → Mem) : (m.modMem f).groups = m.groups := rfl
@[simp] theorem Mach.modMem_blocks (f : Mem → Mem) : (m.modMem f).blocks = m.blocks := rfl
@[simp] theorem Mach.modMem_krns (f : Mem → Mem) : (m.modMem f).krns = m.krns := rfl
@[simp] theorem Mach.modMem_cores (f : Mem → Mem) : (m.modMem f).cores = m.cores := rfl
@[simp] theorem Mach.modMem_clusters (f : Mem → Mem) : (m.modMem f).clusters = m.clusters := rfl
@[simp] theorem Mach.modMem_ops (f : Mem → Mem) : (m.modMem f).ops = m.ops := rfl
@[simp] theorem Mach.modMem_sigs (f : Mem → Mem) : (m.modMem f).sigs = m.sigs := rfl
@[simp] theorem Mach.modMem_flushes (f : Mem → Mem) : (m.modMem f).flushes = m.flushes := rfl
@[simp] theorem Mach.modMem_copies (f : Mem → Mem) : (m.modMem f).copies = m.copies := rfl
@[simp] theorem Mach.modMem_mcasts (f : Mem → Mem) : (m.modMem f).mcasts = m.mcasts := rfl
@[simp] theorem Mach.modMem_host (f : Mem → Mem) : (m.modMem f).host = m.host := rfl
@[simp] theorem Mach.modMem_parts (f : Mem → Mem) : (m.modMem f).parts = m.parts := rfl
@[simp] theorem Mach.modMem_moon (f : Mem → Mem) : (m.modMem f).moon = m.moon := rfl
@[simp] theorem Mach.modMem_links (f : Mem → Mem) : (m.modMem f).links = m.links := rfl
@[simp] theorem Mach.modMem_power (f : Mem → Mem) : (m.modMem f).power = m.power := rfl
@[simp] theorem Mach.modMem_cres (f : Mem → Mem) : (m.modMem f).cres = m.cres := rfl
@[simp] theorem Mach.modMem_ras (f : Mem → Mem) : (m.modMem f).ras = m.ras := rfl
@[simp] theorem Mach.modMem_sec (f : Mem → Mem) : (m.modMem f).sec = m.sec := rfl
@[simp] theorem Mach.modMem_start (f : Mem → Mem) : (m.modMem f).start = m.start := rfl
@[simp] theorem Mach.modMem_pins (f : Mem → Mem) : (m.modMem f).pins = m.pins := rfl
@[simp] theorem Mach.modMem_clk (f : Mem → Mem) : (m.modMem f).clk = m.clk := rfl
@[simp] theorem Mach.modMem_nextId (f : Mem → Mem) : (m.modMem f).nextId = m.nextId := rfl
@[simp] theorem Mach.modMem_out (f : Mem → Mem) : (m.modMem f).out = m.out := rfl
@[simp] theorem Mach.modMem_free (f : Mem → Mem) : (m.modMem f).free = m.free := rfl

/-! `Mach.setUnit`. -/

@[simp] theorem Mach.setUnit_groups (u : Nat) (x : HbmUnit) : (m.setUnit u x).groups = m.groups := rfl
@[simp] theorem Mach.setUnit_blocks (u : Nat) (x : HbmUnit) : (m.setUnit u x).blocks = m.blocks := rfl
@[simp] theorem Mach.setUnit_krns (u : Nat) (x : HbmUnit) : (m.setUnit u x).krns = m.krns := rfl
@[simp] theorem Mach.setUnit_cores (u : Nat) (x : HbmUnit) : (m.setUnit u x).cores = m.cores := rfl
@[simp] theorem Mach.setUnit_clusters (u : Nat) (x : HbmUnit) : (m.setUnit u x).clusters = m.clusters := rfl
@[simp] theorem Mach.setUnit_ops (u : Nat) (x : HbmUnit) : (m.setUnit u x).ops = m.ops := rfl
@[simp] theorem Mach.setUnit_sigs (u : Nat) (x : HbmUnit) : (m.setUnit u x).sigs = m.sigs := rfl
@[simp] theorem Mach.setUnit_flushes (u : Nat) (x : HbmUnit) : (m.setUnit u x).flushes = m.flushes := rfl
@[simp] theorem Mach.setUnit_copies (u : Nat) (x : HbmUnit) : (m.setUnit u x).copies = m.copies := rfl
@[simp] theorem Mach.setUnit_mcasts (u : Nat) (x : HbmUnit) : (m.setUnit u x).mcasts = m.mcasts := rfl
@[simp] theorem Mach.setUnit_host (u : Nat) (x : HbmUnit) : (m.setUnit u x).host = m.host := rfl
@[simp] theorem Mach.setUnit_parts (u : Nat) (x : HbmUnit) : (m.setUnit u x).parts = m.parts := rfl
@[simp] theorem Mach.setUnit_moon (u : Nat) (x : HbmUnit) : (m.setUnit u x).moon = m.moon := rfl
@[simp] theorem Mach.setUnit_links (u : Nat) (x : HbmUnit) : (m.setUnit u x).links = m.links := rfl
@[simp] theorem Mach.setUnit_power (u : Nat) (x : HbmUnit) : (m.setUnit u x).power = m.power := rfl
@[simp] theorem Mach.setUnit_cres (u : Nat) (x : HbmUnit) : (m.setUnit u x).cres = m.cres := rfl
@[simp] theorem Mach.setUnit_ras (u : Nat) (x : HbmUnit) : (m.setUnit u x).ras = m.ras := rfl
@[simp] theorem Mach.setUnit_sec (u : Nat) (x : HbmUnit) : (m.setUnit u x).sec = m.sec := rfl
@[simp] theorem Mach.setUnit_start (u : Nat) (x : HbmUnit) : (m.setUnit u x).start = m.start := rfl
@[simp] theorem Mach.setUnit_pins (u : Nat) (x : HbmUnit) : (m.setUnit u x).pins = m.pins := rfl
@[simp] theorem Mach.setUnit_clk (u : Nat) (x : HbmUnit) : (m.setUnit u x).clk = m.clk := rfl
@[simp] theorem Mach.setUnit_nextId (u : Nat) (x : HbmUnit) : (m.setUnit u x).nextId = m.nextId := rfl
@[simp] theorem Mach.setUnit_out (u : Nat) (x : HbmUnit) : (m.setUnit u x).out = m.out := rfl
@[simp] theorem Mach.setUnit_free (u : Nat) (x : HbmUnit) : (m.setUnit u x).free = m.free := rfl

/-! `Mach.modLink`. -/

@[simp] theorem Mach.modLink_groups (l : Nat) (f : HLink → HLink) : (m.modLink l f).groups = m.groups := rfl
@[simp] theorem Mach.modLink_blocks (l : Nat) (f : HLink → HLink) : (m.modLink l f).blocks = m.blocks := rfl
@[simp] theorem Mach.modLink_krns (l : Nat) (f : HLink → HLink) : (m.modLink l f).krns = m.krns := rfl
@[simp] theorem Mach.modLink_cores (l : Nat) (f : HLink → HLink) : (m.modLink l f).cores = m.cores := rfl
@[simp] theorem Mach.modLink_clusters (l : Nat) (f : HLink → HLink) : (m.modLink l f).clusters = m.clusters := rfl
@[simp] theorem Mach.modLink_ops (l : Nat) (f : HLink → HLink) : (m.modLink l f).ops = m.ops := rfl
@[simp] theorem Mach.modLink_sigs (l : Nat) (f : HLink → HLink) : (m.modLink l f).sigs = m.sigs := rfl
@[simp] theorem Mach.modLink_flushes (l : Nat) (f : HLink → HLink) : (m.modLink l f).flushes = m.flushes := rfl
@[simp] theorem Mach.modLink_copies (l : Nat) (f : HLink → HLink) : (m.modLink l f).copies = m.copies := rfl
@[simp] theorem Mach.modLink_mcasts (l : Nat) (f : HLink → HLink) : (m.modLink l f).mcasts = m.mcasts := rfl
@[simp] theorem Mach.modLink_mem (l : Nat) (f : HLink → HLink) : (m.modLink l f).mem = m.mem := rfl
@[simp] theorem Mach.modLink_parts (l : Nat) (f : HLink → HLink) : (m.modLink l f).parts = m.parts := rfl
@[simp] theorem Mach.modLink_moon (l : Nat) (f : HLink → HLink) : (m.modLink l f).moon = m.moon := rfl
@[simp] theorem Mach.modLink_links (l : Nat) (f : HLink → HLink) : (m.modLink l f).links = m.links := rfl
@[simp] theorem Mach.modLink_power (l : Nat) (f : HLink → HLink) : (m.modLink l f).power = m.power := rfl
@[simp] theorem Mach.modLink_cres (l : Nat) (f : HLink → HLink) : (m.modLink l f).cres = m.cres := rfl
@[simp] theorem Mach.modLink_ras (l : Nat) (f : HLink → HLink) : (m.modLink l f).ras = m.ras := rfl
@[simp] theorem Mach.modLink_sec (l : Nat) (f : HLink → HLink) : (m.modLink l f).sec = m.sec := rfl
@[simp] theorem Mach.modLink_start (l : Nat) (f : HLink → HLink) : (m.modLink l f).start = m.start := rfl
@[simp] theorem Mach.modLink_pins (l : Nat) (f : HLink → HLink) : (m.modLink l f).pins = m.pins := rfl
@[simp] theorem Mach.modLink_clk (l : Nat) (f : HLink → HLink) : (m.modLink l f).clk = m.clk := rfl
@[simp] theorem Mach.modLink_nextId (l : Nat) (f : HLink → HLink) : (m.modLink l f).nextId = m.nextId := rfl
@[simp] theorem Mach.modLink_out (l : Nat) (f : HLink → HLink) : (m.modLink l f).out = m.out := rfl
@[simp] theorem Mach.modLink_free (l : Nat) (f : HLink → HLink) : (m.modLink l f).free = m.free := rfl

/-! `Mach.modFn`. -/

@[simp] theorem Mach.modFn_groups (k : Nat) (f : FnState → FnState) : (m.modFn k f).groups = m.groups := rfl
@[simp] theorem Mach.modFn_blocks (k : Nat) (f : FnState → FnState) : (m.modFn k f).blocks = m.blocks := rfl
@[simp] theorem Mach.modFn_krns (k : Nat) (f : FnState → FnState) : (m.modFn k f).krns = m.krns := rfl
@[simp] theorem Mach.modFn_cores (k : Nat) (f : FnState → FnState) : (m.modFn k f).cores = m.cores := rfl
@[simp] theorem Mach.modFn_clusters (k : Nat) (f : FnState → FnState) : (m.modFn k f).clusters = m.clusters := rfl
@[simp] theorem Mach.modFn_ops (k : Nat) (f : FnState → FnState) : (m.modFn k f).ops = m.ops := rfl
@[simp] theorem Mach.modFn_sigs (k : Nat) (f : FnState → FnState) : (m.modFn k f).sigs = m.sigs := rfl
@[simp] theorem Mach.modFn_flushes (k : Nat) (f : FnState → FnState) : (m.modFn k f).flushes = m.flushes := rfl
@[simp] theorem Mach.modFn_copies (k : Nat) (f : FnState → FnState) : (m.modFn k f).copies = m.copies := rfl
@[simp] theorem Mach.modFn_mcasts (k : Nat) (f : FnState → FnState) : (m.modFn k f).mcasts = m.mcasts := rfl
@[simp] theorem Mach.modFn_mem (k : Nat) (f : FnState → FnState) : (m.modFn k f).mem = m.mem := rfl
@[simp] theorem Mach.modFn_parts (k : Nat) (f : FnState → FnState) : (m.modFn k f).parts = m.parts := rfl
@[simp] theorem Mach.modFn_moon (k : Nat) (f : FnState → FnState) : (m.modFn k f).moon = m.moon := rfl
@[simp] theorem Mach.modFn_links (k : Nat) (f : FnState → FnState) : (m.modFn k f).links = m.links := rfl
@[simp] theorem Mach.modFn_power (k : Nat) (f : FnState → FnState) : (m.modFn k f).power = m.power := rfl
@[simp] theorem Mach.modFn_cres (k : Nat) (f : FnState → FnState) : (m.modFn k f).cres = m.cres := rfl
@[simp] theorem Mach.modFn_ras (k : Nat) (f : FnState → FnState) : (m.modFn k f).ras = m.ras := rfl
@[simp] theorem Mach.modFn_sec (k : Nat) (f : FnState → FnState) : (m.modFn k f).sec = m.sec := rfl
@[simp] theorem Mach.modFn_start (k : Nat) (f : FnState → FnState) : (m.modFn k f).start = m.start := rfl
@[simp] theorem Mach.modFn_pins (k : Nat) (f : FnState → FnState) : (m.modFn k f).pins = m.pins := rfl
@[simp] theorem Mach.modFn_clk (k : Nat) (f : FnState → FnState) : (m.modFn k f).clk = m.clk := rfl
@[simp] theorem Mach.modFn_nextId (k : Nat) (f : FnState → FnState) : (m.modFn k f).nextId = m.nextId := rfl
@[simp] theorem Mach.modFn_out (k : Nat) (f : FnState → FnState) : (m.modFn k f).out = m.out := rfl
@[simp] theorem Mach.modFn_free (k : Nat) (f : FnState → FnState) : (m.modFn k f).free = m.free := rfl

/-! `Mach.setChan`. -/

@[simp] theorem Mach.setChan_groups (k : Nat) (x : Chan) : (m.setChan k x).groups = m.groups := rfl
@[simp] theorem Mach.setChan_blocks (k : Nat) (x : Chan) : (m.setChan k x).blocks = m.blocks := rfl
@[simp] theorem Mach.setChan_krns (k : Nat) (x : Chan) : (m.setChan k x).krns = m.krns := rfl
@[simp] theorem Mach.setChan_cores (k : Nat) (x : Chan) : (m.setChan k x).cores = m.cores := rfl
@[simp] theorem Mach.setChan_clusters (k : Nat) (x : Chan) : (m.setChan k x).clusters = m.clusters := rfl
@[simp] theorem Mach.setChan_ops (k : Nat) (x : Chan) : (m.setChan k x).ops = m.ops := rfl
@[simp] theorem Mach.setChan_sigs (k : Nat) (x : Chan) : (m.setChan k x).sigs = m.sigs := rfl
@[simp] theorem Mach.setChan_flushes (k : Nat) (x : Chan) : (m.setChan k x).flushes = m.flushes := rfl
@[simp] theorem Mach.setChan_copies (k : Nat) (x : Chan) : (m.setChan k x).copies = m.copies := rfl
@[simp] theorem Mach.setChan_mcasts (k : Nat) (x : Chan) : (m.setChan k x).mcasts = m.mcasts := rfl
@[simp] theorem Mach.setChan_mem (k : Nat) (x : Chan) : (m.setChan k x).mem = m.mem := rfl
@[simp] theorem Mach.setChan_parts (k : Nat) (x : Chan) : (m.setChan k x).parts = m.parts := rfl
@[simp] theorem Mach.setChan_moon (k : Nat) (x : Chan) : (m.setChan k x).moon = m.moon := rfl
@[simp] theorem Mach.setChan_links (k : Nat) (x : Chan) : (m.setChan k x).links = m.links := rfl
@[simp] theorem Mach.setChan_power (k : Nat) (x : Chan) : (m.setChan k x).power = m.power := rfl
@[simp] theorem Mach.setChan_cres (k : Nat) (x : Chan) : (m.setChan k x).cres = m.cres := rfl
@[simp] theorem Mach.setChan_ras (k : Nat) (x : Chan) : (m.setChan k x).ras = m.ras := rfl
@[simp] theorem Mach.setChan_sec (k : Nat) (x : Chan) : (m.setChan k x).sec = m.sec := rfl
@[simp] theorem Mach.setChan_start (k : Nat) (x : Chan) : (m.setChan k x).start = m.start := rfl
@[simp] theorem Mach.setChan_pins (k : Nat) (x : Chan) : (m.setChan k x).pins = m.pins := rfl
@[simp] theorem Mach.setChan_clk (k : Nat) (x : Chan) : (m.setChan k x).clk = m.clk := rfl
@[simp] theorem Mach.setChan_nextId (k : Nat) (x : Chan) : (m.setChan k x).nextId = m.nextId := rfl
@[simp] theorem Mach.setChan_out (k : Nat) (x : Chan) : (m.setChan k x).out = m.out := rfl
@[simp] theorem Mach.setChan_free (k : Nat) (x : Chan) : (m.setChan k x).free = m.free := rfl

/-! `Mach.modChan`. -/

@[simp] theorem Mach.modChan_groups (k : Nat) (f : Chan → Chan) : (m.modChan k f).groups = m.groups := rfl
@[simp] theorem Mach.modChan_blocks (k : Nat) (f : Chan → Chan) : (m.modChan k f).blocks = m.blocks := rfl
@[simp] theorem Mach.modChan_krns (k : Nat) (f : Chan → Chan) : (m.modChan k f).krns = m.krns := rfl
@[simp] theorem Mach.modChan_cores (k : Nat) (f : Chan → Chan) : (m.modChan k f).cores = m.cores := rfl
@[simp] theorem Mach.modChan_clusters (k : Nat) (f : Chan → Chan) : (m.modChan k f).clusters = m.clusters := rfl
@[simp] theorem Mach.modChan_ops (k : Nat) (f : Chan → Chan) : (m.modChan k f).ops = m.ops := rfl
@[simp] theorem Mach.modChan_sigs (k : Nat) (f : Chan → Chan) : (m.modChan k f).sigs = m.sigs := rfl
@[simp] theorem Mach.modChan_flushes (k : Nat) (f : Chan → Chan) : (m.modChan k f).flushes = m.flushes := rfl
@[simp] theorem Mach.modChan_copies (k : Nat) (f : Chan → Chan) : (m.modChan k f).copies = m.copies := rfl
@[simp] theorem Mach.modChan_mcasts (k : Nat) (f : Chan → Chan) : (m.modChan k f).mcasts = m.mcasts := rfl
@[simp] theorem Mach.modChan_mem (k : Nat) (f : Chan → Chan) : (m.modChan k f).mem = m.mem := rfl
@[simp] theorem Mach.modChan_parts (k : Nat) (f : Chan → Chan) : (m.modChan k f).parts = m.parts := rfl
@[simp] theorem Mach.modChan_moon (k : Nat) (f : Chan → Chan) : (m.modChan k f).moon = m.moon := rfl
@[simp] theorem Mach.modChan_links (k : Nat) (f : Chan → Chan) : (m.modChan k f).links = m.links := rfl
@[simp] theorem Mach.modChan_power (k : Nat) (f : Chan → Chan) : (m.modChan k f).power = m.power := rfl
@[simp] theorem Mach.modChan_cres (k : Nat) (f : Chan → Chan) : (m.modChan k f).cres = m.cres := rfl
@[simp] theorem Mach.modChan_ras (k : Nat) (f : Chan → Chan) : (m.modChan k f).ras = m.ras := rfl
@[simp] theorem Mach.modChan_sec (k : Nat) (f : Chan → Chan) : (m.modChan k f).sec = m.sec := rfl
@[simp] theorem Mach.modChan_start (k : Nat) (f : Chan → Chan) : (m.modChan k f).start = m.start := rfl
@[simp] theorem Mach.modChan_pins (k : Nat) (f : Chan → Chan) : (m.modChan k f).pins = m.pins := rfl
@[simp] theorem Mach.modChan_clk (k : Nat) (f : Chan → Chan) : (m.modChan k f).clk = m.clk := rfl
@[simp] theorem Mach.modChan_nextId (k : Nat) (f : Chan → Chan) : (m.modChan k f).nextId = m.nextId := rfl
@[simp] theorem Mach.modChan_out (k : Nat) (f : Chan → Chan) : (m.modChan k f).out = m.out := rfl
@[simp] theorem Mach.modChan_free (k : Nat) (f : Chan → Chan) : (m.modChan k f).free = m.free := rfl

/-! `Mach.modHost`. -/

@[simp] theorem Mach.modHost_groups (f : HostSt → HostSt) : (m.modHost f).groups = m.groups := rfl
@[simp] theorem Mach.modHost_blocks (f : HostSt → HostSt) : (m.modHost f).blocks = m.blocks := rfl
@[simp] theorem Mach.modHost_krns (f : HostSt → HostSt) : (m.modHost f).krns = m.krns := rfl
@[simp] theorem Mach.modHost_cores (f : HostSt → HostSt) : (m.modHost f).cores = m.cores := rfl
@[simp] theorem Mach.modHost_clusters (f : HostSt → HostSt) : (m.modHost f).clusters = m.clusters := rfl
@[simp] theorem Mach.modHost_ops (f : HostSt → HostSt) : (m.modHost f).ops = m.ops := rfl
@[simp] theorem Mach.modHost_sigs (f : HostSt → HostSt) : (m.modHost f).sigs = m.sigs := rfl
@[simp] theorem Mach.modHost_flushes (f : HostSt → HostSt) : (m.modHost f).flushes = m.flushes := rfl
@[simp] theorem Mach.modHost_copies (f : HostSt → HostSt) : (m.modHost f).copies = m.copies := rfl
@[simp] theorem Mach.modHost_mcasts (f : HostSt → HostSt) : (m.modHost f).mcasts = m.mcasts := rfl
@[simp] theorem Mach.modHost_mem (f : HostSt → HostSt) : (m.modHost f).mem = m.mem := rfl
@[simp] theorem Mach.modHost_parts (f : HostSt → HostSt) : (m.modHost f).parts = m.parts := rfl
@[simp] theorem Mach.modHost_moon (f : HostSt → HostSt) : (m.modHost f).moon = m.moon := rfl
@[simp] theorem Mach.modHost_links (f : HostSt → HostSt) : (m.modHost f).links = m.links := rfl
@[simp] theorem Mach.modHost_power (f : HostSt → HostSt) : (m.modHost f).power = m.power := rfl
@[simp] theorem Mach.modHost_cres (f : HostSt → HostSt) : (m.modHost f).cres = m.cres := rfl
@[simp] theorem Mach.modHost_ras (f : HostSt → HostSt) : (m.modHost f).ras = m.ras := rfl
@[simp] theorem Mach.modHost_sec (f : HostSt → HostSt) : (m.modHost f).sec = m.sec := rfl
@[simp] theorem Mach.modHost_start (f : HostSt → HostSt) : (m.modHost f).start = m.start := rfl
@[simp] theorem Mach.modHost_pins (f : HostSt → HostSt) : (m.modHost f).pins = m.pins := rfl
@[simp] theorem Mach.modHost_clk (f : HostSt → HostSt) : (m.modHost f).clk = m.clk := rfl
@[simp] theorem Mach.modHost_nextId (f : HostSt → HostSt) : (m.modHost f).nextId = m.nextId := rfl
@[simp] theorem Mach.modHost_out (f : HostSt → HostSt) : (m.modHost f).out = m.out := rfl
@[simp] theorem Mach.modHost_free (f : HostSt → HostSt) : (m.modHost f).free = m.free := rfl

/-! `Mach.modYlink`. -/

@[simp] theorem Mach.modYlink_groups (l : Nat) (f : YLink → YLink) : (m.modYlink l f).groups = m.groups := rfl
@[simp] theorem Mach.modYlink_blocks (l : Nat) (f : YLink → YLink) : (m.modYlink l f).blocks = m.blocks := rfl
@[simp] theorem Mach.modYlink_krns (l : Nat) (f : YLink → YLink) : (m.modYlink l f).krns = m.krns := rfl
@[simp] theorem Mach.modYlink_cores (l : Nat) (f : YLink → YLink) : (m.modYlink l f).cores = m.cores := rfl
@[simp] theorem Mach.modYlink_clusters (l : Nat) (f : YLink → YLink) : (m.modYlink l f).clusters = m.clusters := rfl
@[simp] theorem Mach.modYlink_ops (l : Nat) (f : YLink → YLink) : (m.modYlink l f).ops = m.ops := rfl
@[simp] theorem Mach.modYlink_sigs (l : Nat) (f : YLink → YLink) : (m.modYlink l f).sigs = m.sigs := rfl
@[simp] theorem Mach.modYlink_flushes (l : Nat) (f : YLink → YLink) : (m.modYlink l f).flushes = m.flushes := rfl
@[simp] theorem Mach.modYlink_copies (l : Nat) (f : YLink → YLink) : (m.modYlink l f).copies = m.copies := rfl
@[simp] theorem Mach.modYlink_mcasts (l : Nat) (f : YLink → YLink) : (m.modYlink l f).mcasts = m.mcasts := rfl
@[simp] theorem Mach.modYlink_mem (l : Nat) (f : YLink → YLink) : (m.modYlink l f).mem = m.mem := rfl
@[simp] theorem Mach.modYlink_host (l : Nat) (f : YLink → YLink) : (m.modYlink l f).host = m.host := rfl
@[simp] theorem Mach.modYlink_parts (l : Nat) (f : YLink → YLink) : (m.modYlink l f).parts = m.parts := rfl
@[simp] theorem Mach.modYlink_moon (l : Nat) (f : YLink → YLink) : (m.modYlink l f).moon = m.moon := rfl
@[simp] theorem Mach.modYlink_power (l : Nat) (f : YLink → YLink) : (m.modYlink l f).power = m.power := rfl
@[simp] theorem Mach.modYlink_cres (l : Nat) (f : YLink → YLink) : (m.modYlink l f).cres = m.cres := rfl
@[simp] theorem Mach.modYlink_ras (l : Nat) (f : YLink → YLink) : (m.modYlink l f).ras = m.ras := rfl
@[simp] theorem Mach.modYlink_sec (l : Nat) (f : YLink → YLink) : (m.modYlink l f).sec = m.sec := rfl
@[simp] theorem Mach.modYlink_start (l : Nat) (f : YLink → YLink) : (m.modYlink l f).start = m.start := rfl
@[simp] theorem Mach.modYlink_pins (l : Nat) (f : YLink → YLink) : (m.modYlink l f).pins = m.pins := rfl
@[simp] theorem Mach.modYlink_clk (l : Nat) (f : YLink → YLink) : (m.modYlink l f).clk = m.clk := rfl
@[simp] theorem Mach.modYlink_nextId (l : Nat) (f : YLink → YLink) : (m.modYlink l f).nextId = m.nextId := rfl
@[simp] theorem Mach.modYlink_out (l : Nat) (f : YLink → YLink) : (m.modYlink l f).out = m.out := rfl
@[simp] theorem Mach.modYlink_free (l : Nat) (f : YLink → YLink) : (m.modYlink l f).free = m.free := rfl

/-! `Mach.modPeer`. -/

@[simp] theorem Mach.modPeer_groups (k : Nat) (f : Peer → Peer) : (m.modPeer k f).groups = m.groups := rfl
@[simp] theorem Mach.modPeer_blocks (k : Nat) (f : Peer → Peer) : (m.modPeer k f).blocks = m.blocks := rfl
@[simp] theorem Mach.modPeer_krns (k : Nat) (f : Peer → Peer) : (m.modPeer k f).krns = m.krns := rfl
@[simp] theorem Mach.modPeer_cores (k : Nat) (f : Peer → Peer) : (m.modPeer k f).cores = m.cores := rfl
@[simp] theorem Mach.modPeer_clusters (k : Nat) (f : Peer → Peer) : (m.modPeer k f).clusters = m.clusters := rfl
@[simp] theorem Mach.modPeer_ops (k : Nat) (f : Peer → Peer) : (m.modPeer k f).ops = m.ops := rfl
@[simp] theorem Mach.modPeer_sigs (k : Nat) (f : Peer → Peer) : (m.modPeer k f).sigs = m.sigs := rfl
@[simp] theorem Mach.modPeer_flushes (k : Nat) (f : Peer → Peer) : (m.modPeer k f).flushes = m.flushes := rfl
@[simp] theorem Mach.modPeer_copies (k : Nat) (f : Peer → Peer) : (m.modPeer k f).copies = m.copies := rfl
@[simp] theorem Mach.modPeer_mcasts (k : Nat) (f : Peer → Peer) : (m.modPeer k f).mcasts = m.mcasts := rfl
@[simp] theorem Mach.modPeer_mem (k : Nat) (f : Peer → Peer) : (m.modPeer k f).mem = m.mem := rfl
@[simp] theorem Mach.modPeer_host (k : Nat) (f : Peer → Peer) : (m.modPeer k f).host = m.host := rfl
@[simp] theorem Mach.modPeer_parts (k : Nat) (f : Peer → Peer) : (m.modPeer k f).parts = m.parts := rfl
@[simp] theorem Mach.modPeer_moon (k : Nat) (f : Peer → Peer) : (m.modPeer k f).moon = m.moon := rfl
@[simp] theorem Mach.modPeer_power (k : Nat) (f : Peer → Peer) : (m.modPeer k f).power = m.power := rfl
@[simp] theorem Mach.modPeer_cres (k : Nat) (f : Peer → Peer) : (m.modPeer k f).cres = m.cres := rfl
@[simp] theorem Mach.modPeer_ras (k : Nat) (f : Peer → Peer) : (m.modPeer k f).ras = m.ras := rfl
@[simp] theorem Mach.modPeer_sec (k : Nat) (f : Peer → Peer) : (m.modPeer k f).sec = m.sec := rfl
@[simp] theorem Mach.modPeer_start (k : Nat) (f : Peer → Peer) : (m.modPeer k f).start = m.start := rfl
@[simp] theorem Mach.modPeer_pins (k : Nat) (f : Peer → Peer) : (m.modPeer k f).pins = m.pins := rfl
@[simp] theorem Mach.modPeer_clk (k : Nat) (f : Peer → Peer) : (m.modPeer k f).clk = m.clk := rfl
@[simp] theorem Mach.modPeer_nextId (k : Nat) (f : Peer → Peer) : (m.modPeer k f).nextId = m.nextId := rfl
@[simp] theorem Mach.modPeer_out (k : Nat) (f : Peer → Peer) : (m.modPeer k f).out = m.out := rfl
@[simp] theorem Mach.modPeer_free (k : Nat) (f : Peer → Peer) : (m.modPeer k f).free = m.free := rfl

/-! `Mach.modLinks`. -/

@[simp] theorem Mach.modLinks_groups (f : Links → Links) : (m.modLinks f).groups = m.groups := rfl
@[simp] theorem Mach.modLinks_blocks (f : Links → Links) : (m.modLinks f).blocks = m.blocks := rfl
@[simp] theorem Mach.modLinks_krns (f : Links → Links) : (m.modLinks f).krns = m.krns := rfl
@[simp] theorem Mach.modLinks_cores (f : Links → Links) : (m.modLinks f).cores = m.cores := rfl
@[simp] theorem Mach.modLinks_clusters (f : Links → Links) : (m.modLinks f).clusters = m.clusters := rfl
@[simp] theorem Mach.modLinks_ops (f : Links → Links) : (m.modLinks f).ops = m.ops := rfl
@[simp] theorem Mach.modLinks_sigs (f : Links → Links) : (m.modLinks f).sigs = m.sigs := rfl
@[simp] theorem Mach.modLinks_flushes (f : Links → Links) : (m.modLinks f).flushes = m.flushes := rfl
@[simp] theorem Mach.modLinks_copies (f : Links → Links) : (m.modLinks f).copies = m.copies := rfl
@[simp] theorem Mach.modLinks_mcasts (f : Links → Links) : (m.modLinks f).mcasts = m.mcasts := rfl
@[simp] theorem Mach.modLinks_mem (f : Links → Links) : (m.modLinks f).mem = m.mem := rfl
@[simp] theorem Mach.modLinks_host (f : Links → Links) : (m.modLinks f).host = m.host := rfl
@[simp] theorem Mach.modLinks_parts (f : Links → Links) : (m.modLinks f).parts = m.parts := rfl
@[simp] theorem Mach.modLinks_moon (f : Links → Links) : (m.modLinks f).moon = m.moon := rfl
@[simp] theorem Mach.modLinks_power (f : Links → Links) : (m.modLinks f).power = m.power := rfl
@[simp] theorem Mach.modLinks_cres (f : Links → Links) : (m.modLinks f).cres = m.cres := rfl
@[simp] theorem Mach.modLinks_ras (f : Links → Links) : (m.modLinks f).ras = m.ras := rfl
@[simp] theorem Mach.modLinks_sec (f : Links → Links) : (m.modLinks f).sec = m.sec := rfl
@[simp] theorem Mach.modLinks_start (f : Links → Links) : (m.modLinks f).start = m.start := rfl
@[simp] theorem Mach.modLinks_pins (f : Links → Links) : (m.modLinks f).pins = m.pins := rfl
@[simp] theorem Mach.modLinks_clk (f : Links → Links) : (m.modLinks f).clk = m.clk := rfl
@[simp] theorem Mach.modLinks_nextId (f : Links → Links) : (m.modLinks f).nextId = m.nextId := rfl
@[simp] theorem Mach.modLinks_out (f : Links → Links) : (m.modLinks f).out = m.out := rfl
@[simp] theorem Mach.modLinks_free (f : Links → Links) : (m.modLinks f).free = m.free := rfl

/-! `Mach.modHalf`. -/

@[simp] theorem Mach.modHalf_groups (h : Nat) (f : Half → Half) : (m.modHalf h f).groups = m.groups := rfl
@[simp] theorem Mach.modHalf_blocks (h : Nat) (f : Half → Half) : (m.modHalf h f).blocks = m.blocks := rfl
@[simp] theorem Mach.modHalf_krns (h : Nat) (f : Half → Half) : (m.modHalf h f).krns = m.krns := rfl
@[simp] theorem Mach.modHalf_cores (h : Nat) (f : Half → Half) : (m.modHalf h f).cores = m.cores := rfl
@[simp] theorem Mach.modHalf_clusters (h : Nat) (f : Half → Half) : (m.modHalf h f).clusters = m.clusters := rfl
@[simp] theorem Mach.modHalf_ops (h : Nat) (f : Half → Half) : (m.modHalf h f).ops = m.ops := rfl
@[simp] theorem Mach.modHalf_sigs (h : Nat) (f : Half → Half) : (m.modHalf h f).sigs = m.sigs := rfl
@[simp] theorem Mach.modHalf_flushes (h : Nat) (f : Half → Half) : (m.modHalf h f).flushes = m.flushes := rfl
@[simp] theorem Mach.modHalf_copies (h : Nat) (f : Half → Half) : (m.modHalf h f).copies = m.copies := rfl
@[simp] theorem Mach.modHalf_mcasts (h : Nat) (f : Half → Half) : (m.modHalf h f).mcasts = m.mcasts := rfl
@[simp] theorem Mach.modHalf_mem (h : Nat) (f : Half → Half) : (m.modHalf h f).mem = m.mem := rfl
@[simp] theorem Mach.modHalf_host (h : Nat) (f : Half → Half) : (m.modHalf h f).host = m.host := rfl
@[simp] theorem Mach.modHalf_parts (h : Nat) (f : Half → Half) : (m.modHalf h f).parts = m.parts := rfl
@[simp] theorem Mach.modHalf_moon (h : Nat) (f : Half → Half) : (m.modHalf h f).moon = m.moon := rfl
@[simp] theorem Mach.modHalf_links (h : Nat) (f : Half → Half) : (m.modHalf h f).links = m.links := rfl
@[simp] theorem Mach.modHalf_cres (h : Nat) (f : Half → Half) : (m.modHalf h f).cres = m.cres := rfl
@[simp] theorem Mach.modHalf_ras (h : Nat) (f : Half → Half) : (m.modHalf h f).ras = m.ras := rfl
@[simp] theorem Mach.modHalf_sec (h : Nat) (f : Half → Half) : (m.modHalf h f).sec = m.sec := rfl
@[simp] theorem Mach.modHalf_start (h : Nat) (f : Half → Half) : (m.modHalf h f).start = m.start := rfl
@[simp] theorem Mach.modHalf_pins (h : Nat) (f : Half → Half) : (m.modHalf h f).pins = m.pins := rfl
@[simp] theorem Mach.modHalf_clk (h : Nat) (f : Half → Half) : (m.modHalf h f).clk = m.clk := rfl
@[simp] theorem Mach.modHalf_nextId (h : Nat) (f : Half → Half) : (m.modHalf h f).nextId = m.nextId := rfl
@[simp] theorem Mach.modHalf_out (h : Nat) (f : Half → Half) : (m.modHalf h f).out = m.out := rfl
@[simp] theorem Mach.modHalf_free (h : Nat) (f : Half → Half) : (m.modHalf h f).free = m.free := rfl

/-! `Mach.modPower`. -/

@[simp] theorem Mach.modPower_groups (f : Power → Power) : (m.modPower f).groups = m.groups := rfl
@[simp] theorem Mach.modPower_blocks (f : Power → Power) : (m.modPower f).blocks = m.blocks := rfl
@[simp] theorem Mach.modPower_krns (f : Power → Power) : (m.modPower f).krns = m.krns := rfl
@[simp] theorem Mach.modPower_cores (f : Power → Power) : (m.modPower f).cores = m.cores := rfl
@[simp] theorem Mach.modPower_clusters (f : Power → Power) : (m.modPower f).clusters = m.clusters := rfl
@[simp] theorem Mach.modPower_ops (f : Power → Power) : (m.modPower f).ops = m.ops := rfl
@[simp] theorem Mach.modPower_sigs (f : Power → Power) : (m.modPower f).sigs = m.sigs := rfl
@[simp] theorem Mach.modPower_flushes (f : Power → Power) : (m.modPower f).flushes = m.flushes := rfl
@[simp] theorem Mach.modPower_copies (f : Power → Power) : (m.modPower f).copies = m.copies := rfl
@[simp] theorem Mach.modPower_mcasts (f : Power → Power) : (m.modPower f).mcasts = m.mcasts := rfl
@[simp] theorem Mach.modPower_mem (f : Power → Power) : (m.modPower f).mem = m.mem := rfl
@[simp] theorem Mach.modPower_host (f : Power → Power) : (m.modPower f).host = m.host := rfl
@[simp] theorem Mach.modPower_parts (f : Power → Power) : (m.modPower f).parts = m.parts := rfl
@[simp] theorem Mach.modPower_moon (f : Power → Power) : (m.modPower f).moon = m.moon := rfl
@[simp] theorem Mach.modPower_links (f : Power → Power) : (m.modPower f).links = m.links := rfl
@[simp] theorem Mach.modPower_cres (f : Power → Power) : (m.modPower f).cres = m.cres := rfl
@[simp] theorem Mach.modPower_ras (f : Power → Power) : (m.modPower f).ras = m.ras := rfl
@[simp] theorem Mach.modPower_sec (f : Power → Power) : (m.modPower f).sec = m.sec := rfl
@[simp] theorem Mach.modPower_start (f : Power → Power) : (m.modPower f).start = m.start := rfl
@[simp] theorem Mach.modPower_pins (f : Power → Power) : (m.modPower f).pins = m.pins := rfl
@[simp] theorem Mach.modPower_clk (f : Power → Power) : (m.modPower f).clk = m.clk := rfl
@[simp] theorem Mach.modPower_nextId (f : Power → Power) : (m.modPower f).nextId = m.nextId := rfl
@[simp] theorem Mach.modPower_out (f : Power → Power) : (m.modPower f).out = m.out := rfl
@[simp] theorem Mach.modPower_free (f : Power → Power) : (m.modPower f).free = m.free := rfl

/-! `Mach.modCres`. -/

@[simp] theorem Mach.modCres_groups (f : Crescent → Crescent) : (m.modCres f).groups = m.groups := rfl
@[simp] theorem Mach.modCres_blocks (f : Crescent → Crescent) : (m.modCres f).blocks = m.blocks := rfl
@[simp] theorem Mach.modCres_krns (f : Crescent → Crescent) : (m.modCres f).krns = m.krns := rfl
@[simp] theorem Mach.modCres_cores (f : Crescent → Crescent) : (m.modCres f).cores = m.cores := rfl
@[simp] theorem Mach.modCres_clusters (f : Crescent → Crescent) : (m.modCres f).clusters = m.clusters := rfl
@[simp] theorem Mach.modCres_ops (f : Crescent → Crescent) : (m.modCres f).ops = m.ops := rfl
@[simp] theorem Mach.modCres_sigs (f : Crescent → Crescent) : (m.modCres f).sigs = m.sigs := rfl
@[simp] theorem Mach.modCres_flushes (f : Crescent → Crescent) : (m.modCres f).flushes = m.flushes := rfl
@[simp] theorem Mach.modCres_copies (f : Crescent → Crescent) : (m.modCres f).copies = m.copies := rfl
@[simp] theorem Mach.modCres_mcasts (f : Crescent → Crescent) : (m.modCres f).mcasts = m.mcasts := rfl
@[simp] theorem Mach.modCres_mem (f : Crescent → Crescent) : (m.modCres f).mem = m.mem := rfl
@[simp] theorem Mach.modCres_host (f : Crescent → Crescent) : (m.modCres f).host = m.host := rfl
@[simp] theorem Mach.modCres_parts (f : Crescent → Crescent) : (m.modCres f).parts = m.parts := rfl
@[simp] theorem Mach.modCres_moon (f : Crescent → Crescent) : (m.modCres f).moon = m.moon := rfl
@[simp] theorem Mach.modCres_links (f : Crescent → Crescent) : (m.modCres f).links = m.links := rfl
@[simp] theorem Mach.modCres_power (f : Crescent → Crescent) : (m.modCres f).power = m.power := rfl
@[simp] theorem Mach.modCres_ras (f : Crescent → Crescent) : (m.modCres f).ras = m.ras := rfl
@[simp] theorem Mach.modCres_sec (f : Crescent → Crescent) : (m.modCres f).sec = m.sec := rfl
@[simp] theorem Mach.modCres_start (f : Crescent → Crescent) : (m.modCres f).start = m.start := rfl
@[simp] theorem Mach.modCres_pins (f : Crescent → Crescent) : (m.modCres f).pins = m.pins := rfl
@[simp] theorem Mach.modCres_clk (f : Crescent → Crescent) : (m.modCres f).clk = m.clk := rfl
@[simp] theorem Mach.modCres_nextId (f : Crescent → Crescent) : (m.modCres f).nextId = m.nextId := rfl
@[simp] theorem Mach.modCres_out (f : Crescent → Crescent) : (m.modCres f).out = m.out := rfl
@[simp] theorem Mach.modCres_free (f : Crescent → Crescent) : (m.modCres f).free = m.free := rfl

/-! `Mach.modRas`. -/

@[simp] theorem Mach.modRas_groups (f : Ras → Ras) : (m.modRas f).groups = m.groups := rfl
@[simp] theorem Mach.modRas_blocks (f : Ras → Ras) : (m.modRas f).blocks = m.blocks := rfl
@[simp] theorem Mach.modRas_krns (f : Ras → Ras) : (m.modRas f).krns = m.krns := rfl
@[simp] theorem Mach.modRas_cores (f : Ras → Ras) : (m.modRas f).cores = m.cores := rfl
@[simp] theorem Mach.modRas_clusters (f : Ras → Ras) : (m.modRas f).clusters = m.clusters := rfl
@[simp] theorem Mach.modRas_ops (f : Ras → Ras) : (m.modRas f).ops = m.ops := rfl
@[simp] theorem Mach.modRas_sigs (f : Ras → Ras) : (m.modRas f).sigs = m.sigs := rfl
@[simp] theorem Mach.modRas_flushes (f : Ras → Ras) : (m.modRas f).flushes = m.flushes := rfl
@[simp] theorem Mach.modRas_copies (f : Ras → Ras) : (m.modRas f).copies = m.copies := rfl
@[simp] theorem Mach.modRas_mcasts (f : Ras → Ras) : (m.modRas f).mcasts = m.mcasts := rfl
@[simp] theorem Mach.modRas_mem (f : Ras → Ras) : (m.modRas f).mem = m.mem := rfl
@[simp] theorem Mach.modRas_host (f : Ras → Ras) : (m.modRas f).host = m.host := rfl
@[simp] theorem Mach.modRas_parts (f : Ras → Ras) : (m.modRas f).parts = m.parts := rfl
@[simp] theorem Mach.modRas_moon (f : Ras → Ras) : (m.modRas f).moon = m.moon := rfl
@[simp] theorem Mach.modRas_links (f : Ras → Ras) : (m.modRas f).links = m.links := rfl
@[simp] theorem Mach.modRas_power (f : Ras → Ras) : (m.modRas f).power = m.power := rfl
@[simp] theorem Mach.modRas_cres (f : Ras → Ras) : (m.modRas f).cres = m.cres := rfl
@[simp] theorem Mach.modRas_sec (f : Ras → Ras) : (m.modRas f).sec = m.sec := rfl
@[simp] theorem Mach.modRas_start (f : Ras → Ras) : (m.modRas f).start = m.start := rfl
@[simp] theorem Mach.modRas_pins (f : Ras → Ras) : (m.modRas f).pins = m.pins := rfl
@[simp] theorem Mach.modRas_clk (f : Ras → Ras) : (m.modRas f).clk = m.clk := rfl
@[simp] theorem Mach.modRas_nextId (f : Ras → Ras) : (m.modRas f).nextId = m.nextId := rfl
@[simp] theorem Mach.modRas_out (f : Ras → Ras) : (m.modRas f).out = m.out := rfl
@[simp] theorem Mach.modRas_free (f : Ras → Ras) : (m.modRas f).free = m.free := rfl

/-! `Mach.modSec`. -/

@[simp] theorem Mach.modSec_groups (f : Sec → Sec) : (m.modSec f).groups = m.groups := rfl
@[simp] theorem Mach.modSec_blocks (f : Sec → Sec) : (m.modSec f).blocks = m.blocks := rfl
@[simp] theorem Mach.modSec_krns (f : Sec → Sec) : (m.modSec f).krns = m.krns := rfl
@[simp] theorem Mach.modSec_cores (f : Sec → Sec) : (m.modSec f).cores = m.cores := rfl
@[simp] theorem Mach.modSec_clusters (f : Sec → Sec) : (m.modSec f).clusters = m.clusters := rfl
@[simp] theorem Mach.modSec_ops (f : Sec → Sec) : (m.modSec f).ops = m.ops := rfl
@[simp] theorem Mach.modSec_sigs (f : Sec → Sec) : (m.modSec f).sigs = m.sigs := rfl
@[simp] theorem Mach.modSec_flushes (f : Sec → Sec) : (m.modSec f).flushes = m.flushes := rfl
@[simp] theorem Mach.modSec_copies (f : Sec → Sec) : (m.modSec f).copies = m.copies := rfl
@[simp] theorem Mach.modSec_mcasts (f : Sec → Sec) : (m.modSec f).mcasts = m.mcasts := rfl
@[simp] theorem Mach.modSec_mem (f : Sec → Sec) : (m.modSec f).mem = m.mem := rfl
@[simp] theorem Mach.modSec_host (f : Sec → Sec) : (m.modSec f).host = m.host := rfl
@[simp] theorem Mach.modSec_parts (f : Sec → Sec) : (m.modSec f).parts = m.parts := rfl
@[simp] theorem Mach.modSec_moon (f : Sec → Sec) : (m.modSec f).moon = m.moon := rfl
@[simp] theorem Mach.modSec_links (f : Sec → Sec) : (m.modSec f).links = m.links := rfl
@[simp] theorem Mach.modSec_power (f : Sec → Sec) : (m.modSec f).power = m.power := rfl
@[simp] theorem Mach.modSec_cres (f : Sec → Sec) : (m.modSec f).cres = m.cres := rfl
@[simp] theorem Mach.modSec_ras (f : Sec → Sec) : (m.modSec f).ras = m.ras := rfl
@[simp] theorem Mach.modSec_start (f : Sec → Sec) : (m.modSec f).start = m.start := rfl
@[simp] theorem Mach.modSec_pins (f : Sec → Sec) : (m.modSec f).pins = m.pins := rfl
@[simp] theorem Mach.modSec_clk (f : Sec → Sec) : (m.modSec f).clk = m.clk := rfl
@[simp] theorem Mach.modSec_nextId (f : Sec → Sec) : (m.modSec f).nextId = m.nextId := rfl
@[simp] theorem Mach.modSec_out (f : Sec → Sec) : (m.modSec f).out = m.out := rfl
@[simp] theorem Mach.modSec_free (f : Sec → Sec) : (m.modSec f).free = m.free := rfl

/-! `Mach.modStart`. -/

@[simp] theorem Mach.modStart_groups (f : Start → Start) : (m.modStart f).groups = m.groups := rfl
@[simp] theorem Mach.modStart_blocks (f : Start → Start) : (m.modStart f).blocks = m.blocks := rfl
@[simp] theorem Mach.modStart_krns (f : Start → Start) : (m.modStart f).krns = m.krns := rfl
@[simp] theorem Mach.modStart_cores (f : Start → Start) : (m.modStart f).cores = m.cores := rfl
@[simp] theorem Mach.modStart_clusters (f : Start → Start) : (m.modStart f).clusters = m.clusters := rfl
@[simp] theorem Mach.modStart_ops (f : Start → Start) : (m.modStart f).ops = m.ops := rfl
@[simp] theorem Mach.modStart_sigs (f : Start → Start) : (m.modStart f).sigs = m.sigs := rfl
@[simp] theorem Mach.modStart_flushes (f : Start → Start) : (m.modStart f).flushes = m.flushes := rfl
@[simp] theorem Mach.modStart_copies (f : Start → Start) : (m.modStart f).copies = m.copies := rfl
@[simp] theorem Mach.modStart_mcasts (f : Start → Start) : (m.modStart f).mcasts = m.mcasts := rfl
@[simp] theorem Mach.modStart_mem (f : Start → Start) : (m.modStart f).mem = m.mem := rfl
@[simp] theorem Mach.modStart_host (f : Start → Start) : (m.modStart f).host = m.host := rfl
@[simp] theorem Mach.modStart_parts (f : Start → Start) : (m.modStart f).parts = m.parts := rfl
@[simp] theorem Mach.modStart_moon (f : Start → Start) : (m.modStart f).moon = m.moon := rfl
@[simp] theorem Mach.modStart_links (f : Start → Start) : (m.modStart f).links = m.links := rfl
@[simp] theorem Mach.modStart_power (f : Start → Start) : (m.modStart f).power = m.power := rfl
@[simp] theorem Mach.modStart_cres (f : Start → Start) : (m.modStart f).cres = m.cres := rfl
@[simp] theorem Mach.modStart_ras (f : Start → Start) : (m.modStart f).ras = m.ras := rfl
@[simp] theorem Mach.modStart_sec (f : Start → Start) : (m.modStart f).sec = m.sec := rfl
@[simp] theorem Mach.modStart_pins (f : Start → Start) : (m.modStart f).pins = m.pins := rfl
@[simp] theorem Mach.modStart_clk (f : Start → Start) : (m.modStart f).clk = m.clk := rfl
@[simp] theorem Mach.modStart_nextId (f : Start → Start) : (m.modStart f).nextId = m.nextId := rfl
@[simp] theorem Mach.modStart_out (f : Start → Start) : (m.modStart f).out = m.out := rfl
@[simp] theorem Mach.modStart_free (f : Start → Start) : (m.modStart f).free = m.free := rfl

/-! `Mach.modMoon`. -/

@[simp] theorem Mach.modMoon_groups (f : Moon → Moon) : (m.modMoon f).groups = m.groups := rfl
@[simp] theorem Mach.modMoon_blocks (f : Moon → Moon) : (m.modMoon f).blocks = m.blocks := rfl
@[simp] theorem Mach.modMoon_krns (f : Moon → Moon) : (m.modMoon f).krns = m.krns := rfl
@[simp] theorem Mach.modMoon_cores (f : Moon → Moon) : (m.modMoon f).cores = m.cores := rfl
@[simp] theorem Mach.modMoon_clusters (f : Moon → Moon) : (m.modMoon f).clusters = m.clusters := rfl
@[simp] theorem Mach.modMoon_ops (f : Moon → Moon) : (m.modMoon f).ops = m.ops := rfl
@[simp] theorem Mach.modMoon_sigs (f : Moon → Moon) : (m.modMoon f).sigs = m.sigs := rfl
@[simp] theorem Mach.modMoon_flushes (f : Moon → Moon) : (m.modMoon f).flushes = m.flushes := rfl
@[simp] theorem Mach.modMoon_copies (f : Moon → Moon) : (m.modMoon f).copies = m.copies := rfl
@[simp] theorem Mach.modMoon_mcasts (f : Moon → Moon) : (m.modMoon f).mcasts = m.mcasts := rfl
@[simp] theorem Mach.modMoon_mem (f : Moon → Moon) : (m.modMoon f).mem = m.mem := rfl
@[simp] theorem Mach.modMoon_host (f : Moon → Moon) : (m.modMoon f).host = m.host := rfl
@[simp] theorem Mach.modMoon_parts (f : Moon → Moon) : (m.modMoon f).parts = m.parts := rfl
@[simp] theorem Mach.modMoon_links (f : Moon → Moon) : (m.modMoon f).links = m.links := rfl
@[simp] theorem Mach.modMoon_power (f : Moon → Moon) : (m.modMoon f).power = m.power := rfl
@[simp] theorem Mach.modMoon_cres (f : Moon → Moon) : (m.modMoon f).cres = m.cres := rfl
@[simp] theorem Mach.modMoon_ras (f : Moon → Moon) : (m.modMoon f).ras = m.ras := rfl
@[simp] theorem Mach.modMoon_sec (f : Moon → Moon) : (m.modMoon f).sec = m.sec := rfl
@[simp] theorem Mach.modMoon_start (f : Moon → Moon) : (m.modMoon f).start = m.start := rfl
@[simp] theorem Mach.modMoon_pins (f : Moon → Moon) : (m.modMoon f).pins = m.pins := rfl
@[simp] theorem Mach.modMoon_clk (f : Moon → Moon) : (m.modMoon f).clk = m.clk := rfl
@[simp] theorem Mach.modMoon_nextId (f : Moon → Moon) : (m.modMoon f).nextId = m.nextId := rfl
@[simp] theorem Mach.modMoon_out (f : Moon → Moon) : (m.modMoon f).out = m.out := rfl
@[simp] theorem Mach.modMoon_free (f : Moon → Moon) : (m.modMoon f).free = m.free := rfl

/-! `Mach.setCopyQ`. -/

@[simp] theorem Mach.setCopyQ_groups (e : Nat) (q : List CopyOp) : (m.setCopyQ e q).groups = m.groups := rfl
@[simp] theorem Mach.setCopyQ_blocks (e : Nat) (q : List CopyOp) : (m.setCopyQ e q).blocks = m.blocks := rfl
@[simp] theorem Mach.setCopyQ_krns (e : Nat) (q : List CopyOp) : (m.setCopyQ e q).krns = m.krns := rfl
@[simp] theorem Mach.setCopyQ_cores (e : Nat) (q : List CopyOp) : (m.setCopyQ e q).cores = m.cores := rfl
@[simp] theorem Mach.setCopyQ_clusters (e : Nat) (q : List CopyOp) : (m.setCopyQ e q).clusters = m.clusters := rfl
@[simp] theorem Mach.setCopyQ_ops (e : Nat) (q : List CopyOp) : (m.setCopyQ e q).ops = m.ops := rfl
@[simp] theorem Mach.setCopyQ_sigs (e : Nat) (q : List CopyOp) : (m.setCopyQ e q).sigs = m.sigs := rfl
@[simp] theorem Mach.setCopyQ_flushes (e : Nat) (q : List CopyOp) : (m.setCopyQ e q).flushes = m.flushes := rfl
@[simp] theorem Mach.setCopyQ_mcasts (e : Nat) (q : List CopyOp) : (m.setCopyQ e q).mcasts = m.mcasts := rfl
@[simp] theorem Mach.setCopyQ_mem (e : Nat) (q : List CopyOp) : (m.setCopyQ e q).mem = m.mem := rfl
@[simp] theorem Mach.setCopyQ_host (e : Nat) (q : List CopyOp) : (m.setCopyQ e q).host = m.host := rfl
@[simp] theorem Mach.setCopyQ_parts (e : Nat) (q : List CopyOp) : (m.setCopyQ e q).parts = m.parts := rfl
@[simp] theorem Mach.setCopyQ_moon (e : Nat) (q : List CopyOp) : (m.setCopyQ e q).moon = m.moon := rfl
@[simp] theorem Mach.setCopyQ_links (e : Nat) (q : List CopyOp) : (m.setCopyQ e q).links = m.links := rfl
@[simp] theorem Mach.setCopyQ_power (e : Nat) (q : List CopyOp) : (m.setCopyQ e q).power = m.power := rfl
@[simp] theorem Mach.setCopyQ_cres (e : Nat) (q : List CopyOp) : (m.setCopyQ e q).cres = m.cres := rfl
@[simp] theorem Mach.setCopyQ_ras (e : Nat) (q : List CopyOp) : (m.setCopyQ e q).ras = m.ras := rfl
@[simp] theorem Mach.setCopyQ_sec (e : Nat) (q : List CopyOp) : (m.setCopyQ e q).sec = m.sec := rfl
@[simp] theorem Mach.setCopyQ_start (e : Nat) (q : List CopyOp) : (m.setCopyQ e q).start = m.start := rfl
@[simp] theorem Mach.setCopyQ_pins (e : Nat) (q : List CopyOp) : (m.setCopyQ e q).pins = m.pins := rfl
@[simp] theorem Mach.setCopyQ_clk (e : Nat) (q : List CopyOp) : (m.setCopyQ e q).clk = m.clk := rfl
@[simp] theorem Mach.setCopyQ_nextId (e : Nat) (q : List CopyOp) : (m.setCopyQ e q).nextId = m.nextId := rfl
@[simp] theorem Mach.setCopyQ_out (e : Nat) (q : List CopyOp) : (m.setCopyQ e q).out = m.out := rfl
@[simp] theorem Mach.setCopyQ_free (e : Nat) (q : List CopyOp) : (m.setCopyQ e q).free = m.free := rfl

/-! `Mach.emit`. -/

@[simp] theorem Mach.emit_groups (o : Output) : (m.emit o).groups = m.groups := rfl
@[simp] theorem Mach.emit_blocks (o : Output) : (m.emit o).blocks = m.blocks := rfl
@[simp] theorem Mach.emit_krns (o : Output) : (m.emit o).krns = m.krns := rfl
@[simp] theorem Mach.emit_cores (o : Output) : (m.emit o).cores = m.cores := rfl
@[simp] theorem Mach.emit_clusters (o : Output) : (m.emit o).clusters = m.clusters := rfl
@[simp] theorem Mach.emit_ops (o : Output) : (m.emit o).ops = m.ops := rfl
@[simp] theorem Mach.emit_sigs (o : Output) : (m.emit o).sigs = m.sigs := rfl
@[simp] theorem Mach.emit_flushes (o : Output) : (m.emit o).flushes = m.flushes := rfl
@[simp] theorem Mach.emit_copies (o : Output) : (m.emit o).copies = m.copies := rfl
@[simp] theorem Mach.emit_mcasts (o : Output) : (m.emit o).mcasts = m.mcasts := rfl
@[simp] theorem Mach.emit_mem (o : Output) : (m.emit o).mem = m.mem := rfl
@[simp] theorem Mach.emit_host (o : Output) : (m.emit o).host = m.host := rfl
@[simp] theorem Mach.emit_parts (o : Output) : (m.emit o).parts = m.parts := rfl
@[simp] theorem Mach.emit_moon (o : Output) : (m.emit o).moon = m.moon := rfl
@[simp] theorem Mach.emit_links (o : Output) : (m.emit o).links = m.links := rfl
@[simp] theorem Mach.emit_power (o : Output) : (m.emit o).power = m.power := rfl
@[simp] theorem Mach.emit_cres (o : Output) : (m.emit o).cres = m.cres := rfl
@[simp] theorem Mach.emit_ras (o : Output) : (m.emit o).ras = m.ras := rfl
@[simp] theorem Mach.emit_sec (o : Output) : (m.emit o).sec = m.sec := rfl
@[simp] theorem Mach.emit_start (o : Output) : (m.emit o).start = m.start := rfl
@[simp] theorem Mach.emit_pins (o : Output) : (m.emit o).pins = m.pins := rfl
@[simp] theorem Mach.emit_clk (o : Output) : (m.emit o).clk = m.clk := rfl
@[simp] theorem Mach.emit_nextId (o : Output) : (m.emit o).nextId = m.nextId := rfl
@[simp] theorem Mach.emit_free (o : Output) : (m.emit o).free = m.free := rfl

/-! `Mach.bumpId`. -/

@[simp] theorem Mach.bumpId_groups : (m.bumpId).groups = m.groups := rfl
@[simp] theorem Mach.bumpId_blocks : (m.bumpId).blocks = m.blocks := rfl
@[simp] theorem Mach.bumpId_krns : (m.bumpId).krns = m.krns := rfl
@[simp] theorem Mach.bumpId_cores : (m.bumpId).cores = m.cores := rfl
@[simp] theorem Mach.bumpId_clusters : (m.bumpId).clusters = m.clusters := rfl
@[simp] theorem Mach.bumpId_ops : (m.bumpId).ops = m.ops := rfl
@[simp] theorem Mach.bumpId_sigs : (m.bumpId).sigs = m.sigs := rfl
@[simp] theorem Mach.bumpId_flushes : (m.bumpId).flushes = m.flushes := rfl
@[simp] theorem Mach.bumpId_copies : (m.bumpId).copies = m.copies := rfl
@[simp] theorem Mach.bumpId_mcasts : (m.bumpId).mcasts = m.mcasts := rfl
@[simp] theorem Mach.bumpId_mem : (m.bumpId).mem = m.mem := rfl
@[simp] theorem Mach.bumpId_host : (m.bumpId).host = m.host := rfl
@[simp] theorem Mach.bumpId_parts : (m.bumpId).parts = m.parts := rfl
@[simp] theorem Mach.bumpId_moon : (m.bumpId).moon = m.moon := rfl
@[simp] theorem Mach.bumpId_links : (m.bumpId).links = m.links := rfl
@[simp] theorem Mach.bumpId_power : (m.bumpId).power = m.power := rfl
@[simp] theorem Mach.bumpId_cres : (m.bumpId).cres = m.cres := rfl
@[simp] theorem Mach.bumpId_ras : (m.bumpId).ras = m.ras := rfl
@[simp] theorem Mach.bumpId_sec : (m.bumpId).sec = m.sec := rfl
@[simp] theorem Mach.bumpId_start : (m.bumpId).start = m.start := rfl
@[simp] theorem Mach.bumpId_pins : (m.bumpId).pins = m.pins := rfl
@[simp] theorem Mach.bumpId_clk : (m.bumpId).clk = m.clk := rfl
@[simp] theorem Mach.bumpId_out : (m.bumpId).out = m.out := rfl
@[simp] theorem Mach.bumpId_free : (m.bumpId).free = m.free := rfl

/-! `Mach.bumpFree`. -/

@[simp] theorem Mach.bumpFree_groups : (m.bumpFree).groups = m.groups := rfl
@[simp] theorem Mach.bumpFree_blocks : (m.bumpFree).blocks = m.blocks := rfl
@[simp] theorem Mach.bumpFree_krns : (m.bumpFree).krns = m.krns := rfl
@[simp] theorem Mach.bumpFree_cores : (m.bumpFree).cores = m.cores := rfl
@[simp] theorem Mach.bumpFree_clusters : (m.bumpFree).clusters = m.clusters := rfl
@[simp] theorem Mach.bumpFree_ops : (m.bumpFree).ops = m.ops := rfl
@[simp] theorem Mach.bumpFree_sigs : (m.bumpFree).sigs = m.sigs := rfl
@[simp] theorem Mach.bumpFree_flushes : (m.bumpFree).flushes = m.flushes := rfl
@[simp] theorem Mach.bumpFree_copies : (m.bumpFree).copies = m.copies := rfl
@[simp] theorem Mach.bumpFree_mcasts : (m.bumpFree).mcasts = m.mcasts := rfl
@[simp] theorem Mach.bumpFree_mem : (m.bumpFree).mem = m.mem := rfl
@[simp] theorem Mach.bumpFree_host : (m.bumpFree).host = m.host := rfl
@[simp] theorem Mach.bumpFree_parts : (m.bumpFree).parts = m.parts := rfl
@[simp] theorem Mach.bumpFree_moon : (m.bumpFree).moon = m.moon := rfl
@[simp] theorem Mach.bumpFree_links : (m.bumpFree).links = m.links := rfl
@[simp] theorem Mach.bumpFree_power : (m.bumpFree).power = m.power := rfl
@[simp] theorem Mach.bumpFree_cres : (m.bumpFree).cres = m.cres := rfl
@[simp] theorem Mach.bumpFree_ras : (m.bumpFree).ras = m.ras := rfl
@[simp] theorem Mach.bumpFree_sec : (m.bumpFree).sec = m.sec := rfl
@[simp] theorem Mach.bumpFree_start : (m.bumpFree).start = m.start := rfl
@[simp] theorem Mach.bumpFree_pins : (m.bumpFree).pins = m.pins := rfl
@[simp] theorem Mach.bumpFree_clk : (m.bumpFree).clk = m.clk := rfl
@[simp] theorem Mach.bumpFree_nextId : (m.bumpFree).nextId = m.nextId := rfl
@[simp] theorem Mach.bumpFree_out : (m.bumpFree).out = m.out := rfl

/-! Reading a part after the update that writes it. -/

theorem Mach.grp_setGrp (i j : Nat) (x : Group) : (m.setGrp i x).grp j = if j = i then x else m.grp j := tget_tput _ _ _ _ _
@[simp] theorem Mach.grp_setGrp_same (i : Nat) (x : Group) : (m.setGrp i x).grp i = x := tget_tput_same _ _ _ _
theorem Mach.grp_modGrp (i j : Nat) (f : Group → Group) : (m.modGrp i f).grp j = if j = i then f (m.grp i) else m.grp j := tget_tput _ _ _ _ _
@[simp] theorem Mach.grp_modGrp_same (i : Nat) (f : Group → Group) : (m.modGrp i f).grp i = f (m.grp i) := tget_tput_same _ _ _ _
theorem Mach.krn_setKrn (i j : Nat) (x : Krn) : (m.setKrn i x).krn j = if j = i then x else m.krn j := tget_tput _ _ _ _ _
@[simp] theorem Mach.krn_setKrn_same (i : Nat) (x : Krn) : (m.setKrn i x).krn i = x := tget_tput_same _ _ _ _
theorem Mach.krn_modKrn (i j : Nat) (f : Krn → Krn) : (m.modKrn i f).krn j = if j = i then f (m.krn i) else m.krn j := tget_tput _ _ _ _ _
@[simp] theorem Mach.krn_modKrn_same (i : Nat) (f : Krn → Krn) : (m.modKrn i f).krn i = f (m.krn i) := tget_tput_same _ _ _ _
theorem Mach.core_setCore (i j : Nat) (x : Core) : (m.setCore i x).core j = if j = i then x else m.core j := tget_tput _ _ _ _ _
@[simp] theorem Mach.core_setCore_same (i : Nat) (x : Core) : (m.setCore i x).core i = x := tget_tput_same _ _ _ _
theorem Mach.core_modCore (i j : Nat) (f : Core → Core) : (m.modCore i f).core j = if j = i then f (m.core i) else m.core j := tget_tput _ _ _ _ _
@[simp] theorem Mach.core_modCore_same (i : Nat) (f : Core → Core) : (m.modCore i f).core i = f (m.core i) := tget_tput_same _ _ _ _
theorem Mach.clu_setClu (i j : Nat) (x : Cluster) : (m.setClu i x).clu j = if j = i then x else m.clu j := tget_tput _ _ _ _ _
@[simp] theorem Mach.clu_setClu_same (i : Nat) (x : Cluster) : (m.setClu i x).clu i = x := tget_tput_same _ _ _ _
theorem Mach.clu_modClu (i j : Nat) (f : Cluster → Cluster) : (m.modClu i f).clu j = if j = i then f (m.clu i) else m.clu j := tget_tput _ _ _ _ _
@[simp] theorem Mach.clu_modClu_same (i : Nat) (f : Cluster → Cluster) : (m.modClu i f).clu i = f (m.clu i) := tget_tput_same _ _ _ _
theorem Mach.part_setPart (i j : Nat) (x : Part) : (m.setPart i x).part j = if j = i then x else m.part j := tget_tput _ _ _ _ _
@[simp] theorem Mach.part_setPart_same (i : Nat) (x : Part) : (m.setPart i x).part i = x := tget_tput_same _ _ _ _
theorem Mach.part_modPart (i j : Nat) (f : Part → Part) : (m.modPart i f).part j = if j = i then f (m.part i) else m.part j := tget_tput _ _ _ _ _
@[simp] theorem Mach.part_modPart_same (i : Nat) (f : Part → Part) : (m.modPart i f).part i = f (m.part i) := tget_tput_same _ _ _ _
theorem Mach.chan_setChan (i j : Nat) (x : Chan) : (m.setChan i x).chan j = if j = i then x else m.chan j := tget_tput _ _ _ _ _
@[simp] theorem Mach.chan_setChan_same (i : Nat) (x : Chan) : (m.setChan i x).chan i = x := tget_tput_same _ _ _ _
theorem Mach.chan_modChan (i j : Nat) (f : Chan → Chan) : (m.modChan i f).chan j = if j = i then f (m.chan i) else m.chan j := tget_tput _ _ _ _ _
@[simp] theorem Mach.chan_modChan_same (i : Nat) (f : Chan → Chan) : (m.modChan i f).chan i = f (m.chan i) := tget_tput_same _ _ _ _
theorem Mach.blk_setBlk (i j : Nat) (x : Block) : (m.setBlk i x).blk j = if j = i then x else m.blk j := tget_tput _ _ _ _ _
theorem Mach.hlink_modLink (i j : Nat) (f : HLink → HLink) : (m.modLink i f).hlink j = if j = i then f (m.hlink i) else m.hlink j := tget_tmod _ _ _ _ _
@[simp] theorem Mach.hlink_modLink_same (i : Nat) (f : HLink → HLink) : (m.modLink i f).hlink i = f (m.hlink i) := by simp [Mach.hlink_modLink]
theorem Mach.fnSt_modFn (i j : Nat) (f : FnState → FnState) : (m.modFn i f).fnSt j = if j = i then f (m.fnSt i) else m.fnSt j := tget_tmod _ _ _ _ _
@[simp] theorem Mach.fnSt_modFn_same (i : Nat) (f : FnState → FnState) : (m.modFn i f).fnSt i = f (m.fnSt i) := by simp [Mach.fnSt_modFn]
theorem Mach.ylink_modYlink (i j : Nat) (f : YLink → YLink) : (m.modYlink i f).ylink j = if j = i then f (m.ylink i) else m.ylink j := tget_tmod _ _ _ _ _
@[simp] theorem Mach.ylink_modYlink_same (i : Nat) (f : YLink → YLink) : (m.modYlink i f).ylink i = f (m.ylink i) := by simp [Mach.ylink_modYlink]
theorem Mach.peer_modPeer (i j : Nat) (f : Peer → Peer) : (m.modPeer i f).peer j = if j = i then f (m.peer i) else m.peer j := tget_tmod _ _ _ _ _
@[simp] theorem Mach.peer_modPeer_same (i : Nat) (f : Peer → Peer) : (m.modPeer i f).peer i = f (m.peer i) := by simp [Mach.peer_modPeer]
theorem Mach.half_modHalf (i j : Nat) (f : Half → Half) : (m.modHalf i f).half j = if j = i then f (m.half i) else m.half j := tget_tmod _ _ _ _ _
@[simp] theorem Mach.half_modHalf_same (i : Nat) (f : Half → Half) : (m.modHalf i f).half i = f (m.half i) := by simp [Mach.half_modHalf]
theorem Mach.copyQ_setCopyQ (i j : Nat) (q : List CopyOp) : (m.setCopyQ i q).copyQ j = if j = i then q else m.copyQ j := tget_tput _ _ _ _ _
/-! Reading a part after an update of another. -/

@[simp] theorem Mach.grp_setBlk_other (b : Nat) (x : Block) (j : Nat) : (m.setBlk b x).grp j = m.grp j := rfl
@[simp] theorem Mach.grp_setKrn_other (k : Nat) (x : Krn) (j : Nat) : (m.setKrn k x).grp j = m.grp j := rfl
@[simp] theorem Mach.grp_modKrn_other (k : Nat) (f : Krn → Krn) (j : Nat) : (m.modKrn k f).grp j = m.grp j := rfl
@[simp] theorem Mach.grp_setCore_other (c : Nat) (x : Core) (j : Nat) : (m.setCore c x).grp j = m.grp j := rfl
@[simp] theorem Mach.grp_modCore_other (c : Nat) (f : Core → Core) (j : Nat) : (m.modCore c f).grp j = m.grp j := rfl
@[simp] theorem Mach.grp_setClu_other (c : Nat) (x : Cluster) (j : Nat) : (m.setClu c x).grp j = m.grp j := rfl
@[simp] theorem Mach.grp_modClu_other (c : Nat) (f : Cluster → Cluster) (j : Nat) : (m.modClu c f).grp j = m.grp j := rfl
@[simp] theorem Mach.grp_setPart_other (p : Nat) (x : Part) (j : Nat) : (m.setPart p x).grp j = m.grp j := rfl
@[simp] theorem Mach.grp_modPart_other (p : Nat) (f : Part → Part) (j : Nat) : (m.modPart p f).grp j = m.grp j := rfl
@[simp] theorem Mach.grp_modSb_other (p : Nat) (f : StepB → StepB) (j : Nat) : (m.modSb p f).grp j = m.grp j := rfl
@[simp] theorem Mach.grp_modMem_other (f : Mem → Mem) (j : Nat) : (m.modMem f).grp j = m.grp j := rfl
@[simp] theorem Mach.grp_setUnit_other (u : Nat) (x : HbmUnit) (j : Nat) : (m.setUnit u x).grp j = m.grp j := rfl
@[simp] theorem Mach.grp_modLink_other (l : Nat) (f : HLink → HLink) (j : Nat) : (m.modLink l f).grp j = m.grp j := rfl
@[simp] theorem Mach.grp_modFn_other (k : Nat) (f : FnState → FnState) (j : Nat) : (m.modFn k f).grp j = m.grp j := rfl
@[simp] theorem Mach.grp_setChan_other (k : Nat) (x : Chan) (j : Nat) : (m.setChan k x).grp j = m.grp j := rfl
@[simp] theorem Mach.grp_modChan_other (k : Nat) (f : Chan → Chan) (j : Nat) : (m.modChan k f).grp j = m.grp j := rfl
@[simp] theorem Mach.grp_modHost_other (f : HostSt → HostSt) (j : Nat) : (m.modHost f).grp j = m.grp j := rfl
@[simp] theorem Mach.grp_modYlink_other (l : Nat) (f : YLink → YLink) (j : Nat) : (m.modYlink l f).grp j = m.grp j := rfl
@[simp] theorem Mach.grp_modPeer_other (k : Nat) (f : Peer → Peer) (j : Nat) : (m.modPeer k f).grp j = m.grp j := rfl
@[simp] theorem Mach.grp_modLinks_other (f : Links → Links) (j : Nat) : (m.modLinks f).grp j = m.grp j := rfl
@[simp] theorem Mach.grp_modHalf_other (h : Nat) (f : Half → Half) (j : Nat) : (m.modHalf h f).grp j = m.grp j := rfl
@[simp] theorem Mach.grp_modPower_other (f : Power → Power) (j : Nat) : (m.modPower f).grp j = m.grp j := rfl
@[simp] theorem Mach.grp_modCres_other (f : Crescent → Crescent) (j : Nat) : (m.modCres f).grp j = m.grp j := rfl
@[simp] theorem Mach.grp_modRas_other (f : Ras → Ras) (j : Nat) : (m.modRas f).grp j = m.grp j := rfl
@[simp] theorem Mach.grp_modSec_other (f : Sec → Sec) (j : Nat) : (m.modSec f).grp j = m.grp j := rfl
@[simp] theorem Mach.grp_modStart_other (f : Start → Start) (j : Nat) : (m.modStart f).grp j = m.grp j := rfl
@[simp] theorem Mach.grp_modMoon_other (f : Moon → Moon) (j : Nat) : (m.modMoon f).grp j = m.grp j := rfl
@[simp] theorem Mach.grp_setCopyQ_other (e : Nat) (q : List CopyOp) (j : Nat) : (m.setCopyQ e q).grp j = m.grp j := rfl
@[simp] theorem Mach.grp_emit_other (o : Output) (j : Nat) : (m.emit o).grp j = m.grp j := rfl
@[simp] theorem Mach.grp_bumpId_other (j : Nat) : (m.bumpId).grp j = m.grp j := rfl
@[simp] theorem Mach.grp_bumpFree_other (j : Nat) : (m.bumpFree).grp j = m.grp j := rfl
@[simp] theorem Mach.blk_setGrp_other (g : Nat) (x : Group) (j : Nat) : (m.setGrp g x).blk j = m.blk j := rfl
@[simp] theorem Mach.blk_modGrp_other (g : Nat) (f : Group → Group) (j : Nat) : (m.modGrp g f).blk j = m.blk j := rfl
@[simp] theorem Mach.blk_setKrn_other (k : Nat) (x : Krn) (j : Nat) : (m.setKrn k x).blk j = m.blk j := rfl
@[simp] theorem Mach.blk_modKrn_other (k : Nat) (f : Krn → Krn) (j : Nat) : (m.modKrn k f).blk j = m.blk j := rfl
@[simp] theorem Mach.blk_setCore_other (c : Nat) (x : Core) (j : Nat) : (m.setCore c x).blk j = m.blk j := rfl
@[simp] theorem Mach.blk_modCore_other (c : Nat) (f : Core → Core) (j : Nat) : (m.modCore c f).blk j = m.blk j := rfl
@[simp] theorem Mach.blk_setClu_other (c : Nat) (x : Cluster) (j : Nat) : (m.setClu c x).blk j = m.blk j := rfl
@[simp] theorem Mach.blk_modClu_other (c : Nat) (f : Cluster → Cluster) (j : Nat) : (m.modClu c f).blk j = m.blk j := rfl
@[simp] theorem Mach.blk_setPart_other (p : Nat) (x : Part) (j : Nat) : (m.setPart p x).blk j = m.blk j := rfl
@[simp] theorem Mach.blk_modPart_other (p : Nat) (f : Part → Part) (j : Nat) : (m.modPart p f).blk j = m.blk j := rfl
@[simp] theorem Mach.blk_modSb_other (p : Nat) (f : StepB → StepB) (j : Nat) : (m.modSb p f).blk j = m.blk j := rfl
@[simp] theorem Mach.blk_modMem_other (f : Mem → Mem) (j : Nat) : (m.modMem f).blk j = m.blk j := rfl
@[simp] theorem Mach.blk_setUnit_other (u : Nat) (x : HbmUnit) (j : Nat) : (m.setUnit u x).blk j = m.blk j := rfl
@[simp] theorem Mach.blk_modLink_other (l : Nat) (f : HLink → HLink) (j : Nat) : (m.modLink l f).blk j = m.blk j := rfl
@[simp] theorem Mach.blk_modFn_other (k : Nat) (f : FnState → FnState) (j : Nat) : (m.modFn k f).blk j = m.blk j := rfl
@[simp] theorem Mach.blk_setChan_other (k : Nat) (x : Chan) (j : Nat) : (m.setChan k x).blk j = m.blk j := rfl
@[simp] theorem Mach.blk_modChan_other (k : Nat) (f : Chan → Chan) (j : Nat) : (m.modChan k f).blk j = m.blk j := rfl
@[simp] theorem Mach.blk_modHost_other (f : HostSt → HostSt) (j : Nat) : (m.modHost f).blk j = m.blk j := rfl
@[simp] theorem Mach.blk_modYlink_other (l : Nat) (f : YLink → YLink) (j : Nat) : (m.modYlink l f).blk j = m.blk j := rfl
@[simp] theorem Mach.blk_modPeer_other (k : Nat) (f : Peer → Peer) (j : Nat) : (m.modPeer k f).blk j = m.blk j := rfl
@[simp] theorem Mach.blk_modLinks_other (f : Links → Links) (j : Nat) : (m.modLinks f).blk j = m.blk j := rfl
@[simp] theorem Mach.blk_modHalf_other (h : Nat) (f : Half → Half) (j : Nat) : (m.modHalf h f).blk j = m.blk j := rfl
@[simp] theorem Mach.blk_modPower_other (f : Power → Power) (j : Nat) : (m.modPower f).blk j = m.blk j := rfl
@[simp] theorem Mach.blk_modCres_other (f : Crescent → Crescent) (j : Nat) : (m.modCres f).blk j = m.blk j := rfl
@[simp] theorem Mach.blk_modRas_other (f : Ras → Ras) (j : Nat) : (m.modRas f).blk j = m.blk j := rfl
@[simp] theorem Mach.blk_modSec_other (f : Sec → Sec) (j : Nat) : (m.modSec f).blk j = m.blk j := rfl
@[simp] theorem Mach.blk_modStart_other (f : Start → Start) (j : Nat) : (m.modStart f).blk j = m.blk j := rfl
@[simp] theorem Mach.blk_modMoon_other (f : Moon → Moon) (j : Nat) : (m.modMoon f).blk j = m.blk j := rfl
@[simp] theorem Mach.blk_setCopyQ_other (e : Nat) (q : List CopyOp) (j : Nat) : (m.setCopyQ e q).blk j = m.blk j := rfl
@[simp] theorem Mach.blk_emit_other (o : Output) (j : Nat) : (m.emit o).blk j = m.blk j := rfl
@[simp] theorem Mach.blk_bumpId_other (j : Nat) : (m.bumpId).blk j = m.blk j := rfl
@[simp] theorem Mach.blk_bumpFree_other (j : Nat) : (m.bumpFree).blk j = m.blk j := rfl
@[simp] theorem Mach.krn_setGrp_other (g : Nat) (x : Group) (j : Nat) : (m.setGrp g x).krn j = m.krn j := rfl
@[simp] theorem Mach.krn_modGrp_other (g : Nat) (f : Group → Group) (j : Nat) : (m.modGrp g f).krn j = m.krn j := rfl
@[simp] theorem Mach.krn_setBlk_other (b : Nat) (x : Block) (j : Nat) : (m.setBlk b x).krn j = m.krn j := rfl
@[simp] theorem Mach.krn_setCore_other (c : Nat) (x : Core) (j : Nat) : (m.setCore c x).krn j = m.krn j := rfl
@[simp] theorem Mach.krn_modCore_other (c : Nat) (f : Core → Core) (j : Nat) : (m.modCore c f).krn j = m.krn j := rfl
@[simp] theorem Mach.krn_setClu_other (c : Nat) (x : Cluster) (j : Nat) : (m.setClu c x).krn j = m.krn j := rfl
@[simp] theorem Mach.krn_modClu_other (c : Nat) (f : Cluster → Cluster) (j : Nat) : (m.modClu c f).krn j = m.krn j := rfl
@[simp] theorem Mach.krn_setPart_other (p : Nat) (x : Part) (j : Nat) : (m.setPart p x).krn j = m.krn j := rfl
@[simp] theorem Mach.krn_modPart_other (p : Nat) (f : Part → Part) (j : Nat) : (m.modPart p f).krn j = m.krn j := rfl
@[simp] theorem Mach.krn_modSb_other (p : Nat) (f : StepB → StepB) (j : Nat) : (m.modSb p f).krn j = m.krn j := rfl
@[simp] theorem Mach.krn_modMem_other (f : Mem → Mem) (j : Nat) : (m.modMem f).krn j = m.krn j := rfl
@[simp] theorem Mach.krn_setUnit_other (u : Nat) (x : HbmUnit) (j : Nat) : (m.setUnit u x).krn j = m.krn j := rfl
@[simp] theorem Mach.krn_modLink_other (l : Nat) (f : HLink → HLink) (j : Nat) : (m.modLink l f).krn j = m.krn j := rfl
@[simp] theorem Mach.krn_modFn_other (k : Nat) (f : FnState → FnState) (j : Nat) : (m.modFn k f).krn j = m.krn j := rfl
@[simp] theorem Mach.krn_setChan_other (k : Nat) (x : Chan) (j : Nat) : (m.setChan k x).krn j = m.krn j := rfl
@[simp] theorem Mach.krn_modChan_other (k : Nat) (f : Chan → Chan) (j : Nat) : (m.modChan k f).krn j = m.krn j := rfl
@[simp] theorem Mach.krn_modHost_other (f : HostSt → HostSt) (j : Nat) : (m.modHost f).krn j = m.krn j := rfl
@[simp] theorem Mach.krn_modYlink_other (l : Nat) (f : YLink → YLink) (j : Nat) : (m.modYlink l f).krn j = m.krn j := rfl
@[simp] theorem Mach.krn_modPeer_other (k : Nat) (f : Peer → Peer) (j : Nat) : (m.modPeer k f).krn j = m.krn j := rfl
@[simp] theorem Mach.krn_modLinks_other (f : Links → Links) (j : Nat) : (m.modLinks f).krn j = m.krn j := rfl
@[simp] theorem Mach.krn_modHalf_other (h : Nat) (f : Half → Half) (j : Nat) : (m.modHalf h f).krn j = m.krn j := rfl
@[simp] theorem Mach.krn_modPower_other (f : Power → Power) (j : Nat) : (m.modPower f).krn j = m.krn j := rfl
@[simp] theorem Mach.krn_modCres_other (f : Crescent → Crescent) (j : Nat) : (m.modCres f).krn j = m.krn j := rfl
@[simp] theorem Mach.krn_modRas_other (f : Ras → Ras) (j : Nat) : (m.modRas f).krn j = m.krn j := rfl
@[simp] theorem Mach.krn_modSec_other (f : Sec → Sec) (j : Nat) : (m.modSec f).krn j = m.krn j := rfl
@[simp] theorem Mach.krn_modStart_other (f : Start → Start) (j : Nat) : (m.modStart f).krn j = m.krn j := rfl
@[simp] theorem Mach.krn_modMoon_other (f : Moon → Moon) (j : Nat) : (m.modMoon f).krn j = m.krn j := rfl
@[simp] theorem Mach.krn_setCopyQ_other (e : Nat) (q : List CopyOp) (j : Nat) : (m.setCopyQ e q).krn j = m.krn j := rfl
@[simp] theorem Mach.krn_emit_other (o : Output) (j : Nat) : (m.emit o).krn j = m.krn j := rfl
@[simp] theorem Mach.krn_bumpId_other (j : Nat) : (m.bumpId).krn j = m.krn j := rfl
@[simp] theorem Mach.krn_bumpFree_other (j : Nat) : (m.bumpFree).krn j = m.krn j := rfl
@[simp] theorem Mach.core_setGrp_other (g : Nat) (x : Group) (j : Nat) : (m.setGrp g x).core j = m.core j := rfl
@[simp] theorem Mach.core_modGrp_other (g : Nat) (f : Group → Group) (j : Nat) : (m.modGrp g f).core j = m.core j := rfl
@[simp] theorem Mach.core_setBlk_other (b : Nat) (x : Block) (j : Nat) : (m.setBlk b x).core j = m.core j := rfl
@[simp] theorem Mach.core_setKrn_other (k : Nat) (x : Krn) (j : Nat) : (m.setKrn k x).core j = m.core j := rfl
@[simp] theorem Mach.core_modKrn_other (k : Nat) (f : Krn → Krn) (j : Nat) : (m.modKrn k f).core j = m.core j := rfl
@[simp] theorem Mach.core_setClu_other (c : Nat) (x : Cluster) (j : Nat) : (m.setClu c x).core j = m.core j := rfl
@[simp] theorem Mach.core_modClu_other (c : Nat) (f : Cluster → Cluster) (j : Nat) : (m.modClu c f).core j = m.core j := rfl
@[simp] theorem Mach.core_setPart_other (p : Nat) (x : Part) (j : Nat) : (m.setPart p x).core j = m.core j := rfl
@[simp] theorem Mach.core_modPart_other (p : Nat) (f : Part → Part) (j : Nat) : (m.modPart p f).core j = m.core j := rfl
@[simp] theorem Mach.core_modSb_other (p : Nat) (f : StepB → StepB) (j : Nat) : (m.modSb p f).core j = m.core j := rfl
@[simp] theorem Mach.core_modMem_other (f : Mem → Mem) (j : Nat) : (m.modMem f).core j = m.core j := rfl
@[simp] theorem Mach.core_setUnit_other (u : Nat) (x : HbmUnit) (j : Nat) : (m.setUnit u x).core j = m.core j := rfl
@[simp] theorem Mach.core_modLink_other (l : Nat) (f : HLink → HLink) (j : Nat) : (m.modLink l f).core j = m.core j := rfl
@[simp] theorem Mach.core_modFn_other (k : Nat) (f : FnState → FnState) (j : Nat) : (m.modFn k f).core j = m.core j := rfl
@[simp] theorem Mach.core_setChan_other (k : Nat) (x : Chan) (j : Nat) : (m.setChan k x).core j = m.core j := rfl
@[simp] theorem Mach.core_modChan_other (k : Nat) (f : Chan → Chan) (j : Nat) : (m.modChan k f).core j = m.core j := rfl
@[simp] theorem Mach.core_modHost_other (f : HostSt → HostSt) (j : Nat) : (m.modHost f).core j = m.core j := rfl
@[simp] theorem Mach.core_modYlink_other (l : Nat) (f : YLink → YLink) (j : Nat) : (m.modYlink l f).core j = m.core j := rfl
@[simp] theorem Mach.core_modPeer_other (k : Nat) (f : Peer → Peer) (j : Nat) : (m.modPeer k f).core j = m.core j := rfl
@[simp] theorem Mach.core_modLinks_other (f : Links → Links) (j : Nat) : (m.modLinks f).core j = m.core j := rfl
@[simp] theorem Mach.core_modHalf_other (h : Nat) (f : Half → Half) (j : Nat) : (m.modHalf h f).core j = m.core j := rfl
@[simp] theorem Mach.core_modPower_other (f : Power → Power) (j : Nat) : (m.modPower f).core j = m.core j := rfl
@[simp] theorem Mach.core_modCres_other (f : Crescent → Crescent) (j : Nat) : (m.modCres f).core j = m.core j := rfl
@[simp] theorem Mach.core_modRas_other (f : Ras → Ras) (j : Nat) : (m.modRas f).core j = m.core j := rfl
@[simp] theorem Mach.core_modSec_other (f : Sec → Sec) (j : Nat) : (m.modSec f).core j = m.core j := rfl
@[simp] theorem Mach.core_modStart_other (f : Start → Start) (j : Nat) : (m.modStart f).core j = m.core j := rfl
@[simp] theorem Mach.core_modMoon_other (f : Moon → Moon) (j : Nat) : (m.modMoon f).core j = m.core j := rfl
@[simp] theorem Mach.core_setCopyQ_other (e : Nat) (q : List CopyOp) (j : Nat) : (m.setCopyQ e q).core j = m.core j := rfl
@[simp] theorem Mach.core_emit_other (o : Output) (j : Nat) : (m.emit o).core j = m.core j := rfl
@[simp] theorem Mach.core_bumpId_other (j : Nat) : (m.bumpId).core j = m.core j := rfl
@[simp] theorem Mach.core_bumpFree_other (j : Nat) : (m.bumpFree).core j = m.core j := rfl
@[simp] theorem Mach.clu_setGrp_other (g : Nat) (x : Group) (j : Nat) : (m.setGrp g x).clu j = m.clu j := rfl
@[simp] theorem Mach.clu_modGrp_other (g : Nat) (f : Group → Group) (j : Nat) : (m.modGrp g f).clu j = m.clu j := rfl
@[simp] theorem Mach.clu_setBlk_other (b : Nat) (x : Block) (j : Nat) : (m.setBlk b x).clu j = m.clu j := rfl
@[simp] theorem Mach.clu_setKrn_other (k : Nat) (x : Krn) (j : Nat) : (m.setKrn k x).clu j = m.clu j := rfl
@[simp] theorem Mach.clu_modKrn_other (k : Nat) (f : Krn → Krn) (j : Nat) : (m.modKrn k f).clu j = m.clu j := rfl
@[simp] theorem Mach.clu_setCore_other (c : Nat) (x : Core) (j : Nat) : (m.setCore c x).clu j = m.clu j := rfl
@[simp] theorem Mach.clu_modCore_other (c : Nat) (f : Core → Core) (j : Nat) : (m.modCore c f).clu j = m.clu j := rfl
@[simp] theorem Mach.clu_setPart_other (p : Nat) (x : Part) (j : Nat) : (m.setPart p x).clu j = m.clu j := rfl
@[simp] theorem Mach.clu_modPart_other (p : Nat) (f : Part → Part) (j : Nat) : (m.modPart p f).clu j = m.clu j := rfl
@[simp] theorem Mach.clu_modSb_other (p : Nat) (f : StepB → StepB) (j : Nat) : (m.modSb p f).clu j = m.clu j := rfl
@[simp] theorem Mach.clu_modMem_other (f : Mem → Mem) (j : Nat) : (m.modMem f).clu j = m.clu j := rfl
@[simp] theorem Mach.clu_setUnit_other (u : Nat) (x : HbmUnit) (j : Nat) : (m.setUnit u x).clu j = m.clu j := rfl
@[simp] theorem Mach.clu_modLink_other (l : Nat) (f : HLink → HLink) (j : Nat) : (m.modLink l f).clu j = m.clu j := rfl
@[simp] theorem Mach.clu_modFn_other (k : Nat) (f : FnState → FnState) (j : Nat) : (m.modFn k f).clu j = m.clu j := rfl
@[simp] theorem Mach.clu_setChan_other (k : Nat) (x : Chan) (j : Nat) : (m.setChan k x).clu j = m.clu j := rfl
@[simp] theorem Mach.clu_modChan_other (k : Nat) (f : Chan → Chan) (j : Nat) : (m.modChan k f).clu j = m.clu j := rfl
@[simp] theorem Mach.clu_modHost_other (f : HostSt → HostSt) (j : Nat) : (m.modHost f).clu j = m.clu j := rfl
@[simp] theorem Mach.clu_modYlink_other (l : Nat) (f : YLink → YLink) (j : Nat) : (m.modYlink l f).clu j = m.clu j := rfl
@[simp] theorem Mach.clu_modPeer_other (k : Nat) (f : Peer → Peer) (j : Nat) : (m.modPeer k f).clu j = m.clu j := rfl
@[simp] theorem Mach.clu_modLinks_other (f : Links → Links) (j : Nat) : (m.modLinks f).clu j = m.clu j := rfl
@[simp] theorem Mach.clu_modHalf_other (h : Nat) (f : Half → Half) (j : Nat) : (m.modHalf h f).clu j = m.clu j := rfl
@[simp] theorem Mach.clu_modPower_other (f : Power → Power) (j : Nat) : (m.modPower f).clu j = m.clu j := rfl
@[simp] theorem Mach.clu_modCres_other (f : Crescent → Crescent) (j : Nat) : (m.modCres f).clu j = m.clu j := rfl
@[simp] theorem Mach.clu_modRas_other (f : Ras → Ras) (j : Nat) : (m.modRas f).clu j = m.clu j := rfl
@[simp] theorem Mach.clu_modSec_other (f : Sec → Sec) (j : Nat) : (m.modSec f).clu j = m.clu j := rfl
@[simp] theorem Mach.clu_modStart_other (f : Start → Start) (j : Nat) : (m.modStart f).clu j = m.clu j := rfl
@[simp] theorem Mach.clu_modMoon_other (f : Moon → Moon) (j : Nat) : (m.modMoon f).clu j = m.clu j := rfl
@[simp] theorem Mach.clu_setCopyQ_other (e : Nat) (q : List CopyOp) (j : Nat) : (m.setCopyQ e q).clu j = m.clu j := rfl
@[simp] theorem Mach.clu_emit_other (o : Output) (j : Nat) : (m.emit o).clu j = m.clu j := rfl
@[simp] theorem Mach.clu_bumpId_other (j : Nat) : (m.bumpId).clu j = m.clu j := rfl
@[simp] theorem Mach.clu_bumpFree_other (j : Nat) : (m.bumpFree).clu j = m.clu j := rfl
@[simp] theorem Mach.part_setGrp_other (g : Nat) (x : Group) (j : Nat) : (m.setGrp g x).part j = m.part j := rfl
@[simp] theorem Mach.part_modGrp_other (g : Nat) (f : Group → Group) (j : Nat) : (m.modGrp g f).part j = m.part j := rfl
@[simp] theorem Mach.part_setBlk_other (b : Nat) (x : Block) (j : Nat) : (m.setBlk b x).part j = m.part j := rfl
@[simp] theorem Mach.part_setKrn_other (k : Nat) (x : Krn) (j : Nat) : (m.setKrn k x).part j = m.part j := rfl
@[simp] theorem Mach.part_modKrn_other (k : Nat) (f : Krn → Krn) (j : Nat) : (m.modKrn k f).part j = m.part j := rfl
@[simp] theorem Mach.part_setCore_other (c : Nat) (x : Core) (j : Nat) : (m.setCore c x).part j = m.part j := rfl
@[simp] theorem Mach.part_modCore_other (c : Nat) (f : Core → Core) (j : Nat) : (m.modCore c f).part j = m.part j := rfl
@[simp] theorem Mach.part_setClu_other (c : Nat) (x : Cluster) (j : Nat) : (m.setClu c x).part j = m.part j := rfl
@[simp] theorem Mach.part_modClu_other (c : Nat) (f : Cluster → Cluster) (j : Nat) : (m.modClu c f).part j = m.part j := rfl
@[simp] theorem Mach.part_modMem_other (f : Mem → Mem) (j : Nat) : (m.modMem f).part j = m.part j := rfl
@[simp] theorem Mach.part_setUnit_other (u : Nat) (x : HbmUnit) (j : Nat) : (m.setUnit u x).part j = m.part j := rfl
@[simp] theorem Mach.part_modLink_other (l : Nat) (f : HLink → HLink) (j : Nat) : (m.modLink l f).part j = m.part j := rfl
@[simp] theorem Mach.part_modFn_other (k : Nat) (f : FnState → FnState) (j : Nat) : (m.modFn k f).part j = m.part j := rfl
@[simp] theorem Mach.part_setChan_other (k : Nat) (x : Chan) (j : Nat) : (m.setChan k x).part j = m.part j := rfl
@[simp] theorem Mach.part_modChan_other (k : Nat) (f : Chan → Chan) (j : Nat) : (m.modChan k f).part j = m.part j := rfl
@[simp] theorem Mach.part_modHost_other (f : HostSt → HostSt) (j : Nat) : (m.modHost f).part j = m.part j := rfl
@[simp] theorem Mach.part_modYlink_other (l : Nat) (f : YLink → YLink) (j : Nat) : (m.modYlink l f).part j = m.part j := rfl
@[simp] theorem Mach.part_modPeer_other (k : Nat) (f : Peer → Peer) (j : Nat) : (m.modPeer k f).part j = m.part j := rfl
@[simp] theorem Mach.part_modLinks_other (f : Links → Links) (j : Nat) : (m.modLinks f).part j = m.part j := rfl
@[simp] theorem Mach.part_modHalf_other (h : Nat) (f : Half → Half) (j : Nat) : (m.modHalf h f).part j = m.part j := rfl
@[simp] theorem Mach.part_modPower_other (f : Power → Power) (j : Nat) : (m.modPower f).part j = m.part j := rfl
@[simp] theorem Mach.part_modCres_other (f : Crescent → Crescent) (j : Nat) : (m.modCres f).part j = m.part j := rfl
@[simp] theorem Mach.part_modRas_other (f : Ras → Ras) (j : Nat) : (m.modRas f).part j = m.part j := rfl
@[simp] theorem Mach.part_modSec_other (f : Sec → Sec) (j : Nat) : (m.modSec f).part j = m.part j := rfl
@[simp] theorem Mach.part_modStart_other (f : Start → Start) (j : Nat) : (m.modStart f).part j = m.part j := rfl
@[simp] theorem Mach.part_modMoon_other (f : Moon → Moon) (j : Nat) : (m.modMoon f).part j = m.part j := rfl
@[simp] theorem Mach.part_setCopyQ_other (e : Nat) (q : List CopyOp) (j : Nat) : (m.setCopyQ e q).part j = m.part j := rfl
@[simp] theorem Mach.part_emit_other (o : Output) (j : Nat) : (m.emit o).part j = m.part j := rfl
@[simp] theorem Mach.part_bumpId_other (j : Nat) : (m.bumpId).part j = m.part j := rfl
@[simp] theorem Mach.part_bumpFree_other (j : Nat) : (m.bumpFree).part j = m.part j := rfl
@[simp] theorem Mach.hlink_setGrp_other (g : Nat) (x : Group) (j : Nat) : (m.setGrp g x).hlink j = m.hlink j := rfl
@[simp] theorem Mach.hlink_modGrp_other (g : Nat) (f : Group → Group) (j : Nat) : (m.modGrp g f).hlink j = m.hlink j := rfl
@[simp] theorem Mach.hlink_setBlk_other (b : Nat) (x : Block) (j : Nat) : (m.setBlk b x).hlink j = m.hlink j := rfl
@[simp] theorem Mach.hlink_setKrn_other (k : Nat) (x : Krn) (j : Nat) : (m.setKrn k x).hlink j = m.hlink j := rfl
@[simp] theorem Mach.hlink_modKrn_other (k : Nat) (f : Krn → Krn) (j : Nat) : (m.modKrn k f).hlink j = m.hlink j := rfl
@[simp] theorem Mach.hlink_setCore_other (c : Nat) (x : Core) (j : Nat) : (m.setCore c x).hlink j = m.hlink j := rfl
@[simp] theorem Mach.hlink_modCore_other (c : Nat) (f : Core → Core) (j : Nat) : (m.modCore c f).hlink j = m.hlink j := rfl
@[simp] theorem Mach.hlink_setClu_other (c : Nat) (x : Cluster) (j : Nat) : (m.setClu c x).hlink j = m.hlink j := rfl
@[simp] theorem Mach.hlink_modClu_other (c : Nat) (f : Cluster → Cluster) (j : Nat) : (m.modClu c f).hlink j = m.hlink j := rfl
@[simp] theorem Mach.hlink_setPart_other (p : Nat) (x : Part) (j : Nat) : (m.setPart p x).hlink j = m.hlink j := rfl
@[simp] theorem Mach.hlink_modPart_other (p : Nat) (f : Part → Part) (j : Nat) : (m.modPart p f).hlink j = m.hlink j := rfl
@[simp] theorem Mach.hlink_modSb_other (p : Nat) (f : StepB → StepB) (j : Nat) : (m.modSb p f).hlink j = m.hlink j := rfl
@[simp] theorem Mach.hlink_modMem_other (f : Mem → Mem) (j : Nat) : (m.modMem f).hlink j = m.hlink j := rfl
@[simp] theorem Mach.hlink_setUnit_other (u : Nat) (x : HbmUnit) (j : Nat) : (m.setUnit u x).hlink j = m.hlink j := rfl
@[simp] theorem Mach.hlink_modYlink_other (l : Nat) (f : YLink → YLink) (j : Nat) : (m.modYlink l f).hlink j = m.hlink j := rfl
@[simp] theorem Mach.hlink_modPeer_other (k : Nat) (f : Peer → Peer) (j : Nat) : (m.modPeer k f).hlink j = m.hlink j := rfl
@[simp] theorem Mach.hlink_modLinks_other (f : Links → Links) (j : Nat) : (m.modLinks f).hlink j = m.hlink j := rfl
@[simp] theorem Mach.hlink_modHalf_other (h : Nat) (f : Half → Half) (j : Nat) : (m.modHalf h f).hlink j = m.hlink j := rfl
@[simp] theorem Mach.hlink_modPower_other (f : Power → Power) (j : Nat) : (m.modPower f).hlink j = m.hlink j := rfl
@[simp] theorem Mach.hlink_modCres_other (f : Crescent → Crescent) (j : Nat) : (m.modCres f).hlink j = m.hlink j := rfl
@[simp] theorem Mach.hlink_modRas_other (f : Ras → Ras) (j : Nat) : (m.modRas f).hlink j = m.hlink j := rfl
@[simp] theorem Mach.hlink_modSec_other (f : Sec → Sec) (j : Nat) : (m.modSec f).hlink j = m.hlink j := rfl
@[simp] theorem Mach.hlink_modStart_other (f : Start → Start) (j : Nat) : (m.modStart f).hlink j = m.hlink j := rfl
@[simp] theorem Mach.hlink_modMoon_other (f : Moon → Moon) (j : Nat) : (m.modMoon f).hlink j = m.hlink j := rfl
@[simp] theorem Mach.hlink_setCopyQ_other (e : Nat) (q : List CopyOp) (j : Nat) : (m.setCopyQ e q).hlink j = m.hlink j := rfl
@[simp] theorem Mach.hlink_emit_other (o : Output) (j : Nat) : (m.emit o).hlink j = m.hlink j := rfl
@[simp] theorem Mach.hlink_bumpId_other (j : Nat) : (m.bumpId).hlink j = m.hlink j := rfl
@[simp] theorem Mach.hlink_bumpFree_other (j : Nat) : (m.bumpFree).hlink j = m.hlink j := rfl
@[simp] theorem Mach.fnSt_setGrp_other (g : Nat) (x : Group) (j : Nat) : (m.setGrp g x).fnSt j = m.fnSt j := rfl
@[simp] theorem Mach.fnSt_modGrp_other (g : Nat) (f : Group → Group) (j : Nat) : (m.modGrp g f).fnSt j = m.fnSt j := rfl
@[simp] theorem Mach.fnSt_setBlk_other (b : Nat) (x : Block) (j : Nat) : (m.setBlk b x).fnSt j = m.fnSt j := rfl
@[simp] theorem Mach.fnSt_setKrn_other (k : Nat) (x : Krn) (j : Nat) : (m.setKrn k x).fnSt j = m.fnSt j := rfl
@[simp] theorem Mach.fnSt_modKrn_other (k : Nat) (f : Krn → Krn) (j : Nat) : (m.modKrn k f).fnSt j = m.fnSt j := rfl
@[simp] theorem Mach.fnSt_setCore_other (c : Nat) (x : Core) (j : Nat) : (m.setCore c x).fnSt j = m.fnSt j := rfl
@[simp] theorem Mach.fnSt_modCore_other (c : Nat) (f : Core → Core) (j : Nat) : (m.modCore c f).fnSt j = m.fnSt j := rfl
@[simp] theorem Mach.fnSt_setClu_other (c : Nat) (x : Cluster) (j : Nat) : (m.setClu c x).fnSt j = m.fnSt j := rfl
@[simp] theorem Mach.fnSt_modClu_other (c : Nat) (f : Cluster → Cluster) (j : Nat) : (m.modClu c f).fnSt j = m.fnSt j := rfl
@[simp] theorem Mach.fnSt_setPart_other (p : Nat) (x : Part) (j : Nat) : (m.setPart p x).fnSt j = m.fnSt j := rfl
@[simp] theorem Mach.fnSt_modPart_other (p : Nat) (f : Part → Part) (j : Nat) : (m.modPart p f).fnSt j = m.fnSt j := rfl
@[simp] theorem Mach.fnSt_modSb_other (p : Nat) (f : StepB → StepB) (j : Nat) : (m.modSb p f).fnSt j = m.fnSt j := rfl
@[simp] theorem Mach.fnSt_modMem_other (f : Mem → Mem) (j : Nat) : (m.modMem f).fnSt j = m.fnSt j := rfl
@[simp] theorem Mach.fnSt_setUnit_other (u : Nat) (x : HbmUnit) (j : Nat) : (m.setUnit u x).fnSt j = m.fnSt j := rfl
@[simp] theorem Mach.fnSt_modYlink_other (l : Nat) (f : YLink → YLink) (j : Nat) : (m.modYlink l f).fnSt j = m.fnSt j := rfl
@[simp] theorem Mach.fnSt_modPeer_other (k : Nat) (f : Peer → Peer) (j : Nat) : (m.modPeer k f).fnSt j = m.fnSt j := rfl
@[simp] theorem Mach.fnSt_modLinks_other (f : Links → Links) (j : Nat) : (m.modLinks f).fnSt j = m.fnSt j := rfl
@[simp] theorem Mach.fnSt_modHalf_other (h : Nat) (f : Half → Half) (j : Nat) : (m.modHalf h f).fnSt j = m.fnSt j := rfl
@[simp] theorem Mach.fnSt_modPower_other (f : Power → Power) (j : Nat) : (m.modPower f).fnSt j = m.fnSt j := rfl
@[simp] theorem Mach.fnSt_modCres_other (f : Crescent → Crescent) (j : Nat) : (m.modCres f).fnSt j = m.fnSt j := rfl
@[simp] theorem Mach.fnSt_modRas_other (f : Ras → Ras) (j : Nat) : (m.modRas f).fnSt j = m.fnSt j := rfl
@[simp] theorem Mach.fnSt_modSec_other (f : Sec → Sec) (j : Nat) : (m.modSec f).fnSt j = m.fnSt j := rfl
@[simp] theorem Mach.fnSt_modStart_other (f : Start → Start) (j : Nat) : (m.modStart f).fnSt j = m.fnSt j := rfl
@[simp] theorem Mach.fnSt_modMoon_other (f : Moon → Moon) (j : Nat) : (m.modMoon f).fnSt j = m.fnSt j := rfl
@[simp] theorem Mach.fnSt_setCopyQ_other (e : Nat) (q : List CopyOp) (j : Nat) : (m.setCopyQ e q).fnSt j = m.fnSt j := rfl
@[simp] theorem Mach.fnSt_emit_other (o : Output) (j : Nat) : (m.emit o).fnSt j = m.fnSt j := rfl
@[simp] theorem Mach.fnSt_bumpId_other (j : Nat) : (m.bumpId).fnSt j = m.fnSt j := rfl
@[simp] theorem Mach.fnSt_bumpFree_other (j : Nat) : (m.bumpFree).fnSt j = m.fnSt j := rfl
@[simp] theorem Mach.chan_setGrp_other (g : Nat) (x : Group) (j : Nat) : (m.setGrp g x).chan j = m.chan j := rfl
@[simp] theorem Mach.chan_modGrp_other (g : Nat) (f : Group → Group) (j : Nat) : (m.modGrp g f).chan j = m.chan j := rfl
@[simp] theorem Mach.chan_setBlk_other (b : Nat) (x : Block) (j : Nat) : (m.setBlk b x).chan j = m.chan j := rfl
@[simp] theorem Mach.chan_setKrn_other (k : Nat) (x : Krn) (j : Nat) : (m.setKrn k x).chan j = m.chan j := rfl
@[simp] theorem Mach.chan_modKrn_other (k : Nat) (f : Krn → Krn) (j : Nat) : (m.modKrn k f).chan j = m.chan j := rfl
@[simp] theorem Mach.chan_setCore_other (c : Nat) (x : Core) (j : Nat) : (m.setCore c x).chan j = m.chan j := rfl
@[simp] theorem Mach.chan_modCore_other (c : Nat) (f : Core → Core) (j : Nat) : (m.modCore c f).chan j = m.chan j := rfl
@[simp] theorem Mach.chan_setClu_other (c : Nat) (x : Cluster) (j : Nat) : (m.setClu c x).chan j = m.chan j := rfl
@[simp] theorem Mach.chan_modClu_other (c : Nat) (f : Cluster → Cluster) (j : Nat) : (m.modClu c f).chan j = m.chan j := rfl
@[simp] theorem Mach.chan_setPart_other (p : Nat) (x : Part) (j : Nat) : (m.setPart p x).chan j = m.chan j := rfl
@[simp] theorem Mach.chan_modPart_other (p : Nat) (f : Part → Part) (j : Nat) : (m.modPart p f).chan j = m.chan j := rfl
@[simp] theorem Mach.chan_modSb_other (p : Nat) (f : StepB → StepB) (j : Nat) : (m.modSb p f).chan j = m.chan j := rfl
@[simp] theorem Mach.chan_modMem_other (f : Mem → Mem) (j : Nat) : (m.modMem f).chan j = m.chan j := rfl
@[simp] theorem Mach.chan_setUnit_other (u : Nat) (x : HbmUnit) (j : Nat) : (m.setUnit u x).chan j = m.chan j := rfl
@[simp] theorem Mach.chan_modYlink_other (l : Nat) (f : YLink → YLink) (j : Nat) : (m.modYlink l f).chan j = m.chan j := rfl
@[simp] theorem Mach.chan_modPeer_other (k : Nat) (f : Peer → Peer) (j : Nat) : (m.modPeer k f).chan j = m.chan j := rfl
@[simp] theorem Mach.chan_modLinks_other (f : Links → Links) (j : Nat) : (m.modLinks f).chan j = m.chan j := rfl
@[simp] theorem Mach.chan_modHalf_other (h : Nat) (f : Half → Half) (j : Nat) : (m.modHalf h f).chan j = m.chan j := rfl
@[simp] theorem Mach.chan_modPower_other (f : Power → Power) (j : Nat) : (m.modPower f).chan j = m.chan j := rfl
@[simp] theorem Mach.chan_modCres_other (f : Crescent → Crescent) (j : Nat) : (m.modCres f).chan j = m.chan j := rfl
@[simp] theorem Mach.chan_modRas_other (f : Ras → Ras) (j : Nat) : (m.modRas f).chan j = m.chan j := rfl
@[simp] theorem Mach.chan_modSec_other (f : Sec → Sec) (j : Nat) : (m.modSec f).chan j = m.chan j := rfl
@[simp] theorem Mach.chan_modStart_other (f : Start → Start) (j : Nat) : (m.modStart f).chan j = m.chan j := rfl
@[simp] theorem Mach.chan_modMoon_other (f : Moon → Moon) (j : Nat) : (m.modMoon f).chan j = m.chan j := rfl
@[simp] theorem Mach.chan_setCopyQ_other (e : Nat) (q : List CopyOp) (j : Nat) : (m.setCopyQ e q).chan j = m.chan j := rfl
@[simp] theorem Mach.chan_emit_other (o : Output) (j : Nat) : (m.emit o).chan j = m.chan j := rfl
@[simp] theorem Mach.chan_bumpId_other (j : Nat) : (m.bumpId).chan j = m.chan j := rfl
@[simp] theorem Mach.chan_bumpFree_other (j : Nat) : (m.bumpFree).chan j = m.chan j := rfl
@[simp] theorem Mach.ylink_setGrp_other (g : Nat) (x : Group) (j : Nat) : (m.setGrp g x).ylink j = m.ylink j := rfl
@[simp] theorem Mach.ylink_modGrp_other (g : Nat) (f : Group → Group) (j : Nat) : (m.modGrp g f).ylink j = m.ylink j := rfl
@[simp] theorem Mach.ylink_setBlk_other (b : Nat) (x : Block) (j : Nat) : (m.setBlk b x).ylink j = m.ylink j := rfl
@[simp] theorem Mach.ylink_setKrn_other (k : Nat) (x : Krn) (j : Nat) : (m.setKrn k x).ylink j = m.ylink j := rfl
@[simp] theorem Mach.ylink_modKrn_other (k : Nat) (f : Krn → Krn) (j : Nat) : (m.modKrn k f).ylink j = m.ylink j := rfl
@[simp] theorem Mach.ylink_setCore_other (c : Nat) (x : Core) (j : Nat) : (m.setCore c x).ylink j = m.ylink j := rfl
@[simp] theorem Mach.ylink_modCore_other (c : Nat) (f : Core → Core) (j : Nat) : (m.modCore c f).ylink j = m.ylink j := rfl
@[simp] theorem Mach.ylink_setClu_other (c : Nat) (x : Cluster) (j : Nat) : (m.setClu c x).ylink j = m.ylink j := rfl
@[simp] theorem Mach.ylink_modClu_other (c : Nat) (f : Cluster → Cluster) (j : Nat) : (m.modClu c f).ylink j = m.ylink j := rfl
@[simp] theorem Mach.ylink_setPart_other (p : Nat) (x : Part) (j : Nat) : (m.setPart p x).ylink j = m.ylink j := rfl
@[simp] theorem Mach.ylink_modPart_other (p : Nat) (f : Part → Part) (j : Nat) : (m.modPart p f).ylink j = m.ylink j := rfl
@[simp] theorem Mach.ylink_modSb_other (p : Nat) (f : StepB → StepB) (j : Nat) : (m.modSb p f).ylink j = m.ylink j := rfl
@[simp] theorem Mach.ylink_modMem_other (f : Mem → Mem) (j : Nat) : (m.modMem f).ylink j = m.ylink j := rfl
@[simp] theorem Mach.ylink_setUnit_other (u : Nat) (x : HbmUnit) (j : Nat) : (m.setUnit u x).ylink j = m.ylink j := rfl
@[simp] theorem Mach.ylink_modLink_other (l : Nat) (f : HLink → HLink) (j : Nat) : (m.modLink l f).ylink j = m.ylink j := rfl
@[simp] theorem Mach.ylink_modFn_other (k : Nat) (f : FnState → FnState) (j : Nat) : (m.modFn k f).ylink j = m.ylink j := rfl
@[simp] theorem Mach.ylink_setChan_other (k : Nat) (x : Chan) (j : Nat) : (m.setChan k x).ylink j = m.ylink j := rfl
@[simp] theorem Mach.ylink_modChan_other (k : Nat) (f : Chan → Chan) (j : Nat) : (m.modChan k f).ylink j = m.ylink j := rfl
@[simp] theorem Mach.ylink_modHost_other (f : HostSt → HostSt) (j : Nat) : (m.modHost f).ylink j = m.ylink j := rfl
@[simp] theorem Mach.ylink_modHalf_other (h : Nat) (f : Half → Half) (j : Nat) : (m.modHalf h f).ylink j = m.ylink j := rfl
@[simp] theorem Mach.ylink_modPower_other (f : Power → Power) (j : Nat) : (m.modPower f).ylink j = m.ylink j := rfl
@[simp] theorem Mach.ylink_modCres_other (f : Crescent → Crescent) (j : Nat) : (m.modCres f).ylink j = m.ylink j := rfl
@[simp] theorem Mach.ylink_modRas_other (f : Ras → Ras) (j : Nat) : (m.modRas f).ylink j = m.ylink j := rfl
@[simp] theorem Mach.ylink_modSec_other (f : Sec → Sec) (j : Nat) : (m.modSec f).ylink j = m.ylink j := rfl
@[simp] theorem Mach.ylink_modStart_other (f : Start → Start) (j : Nat) : (m.modStart f).ylink j = m.ylink j := rfl
@[simp] theorem Mach.ylink_modMoon_other (f : Moon → Moon) (j : Nat) : (m.modMoon f).ylink j = m.ylink j := rfl
@[simp] theorem Mach.ylink_setCopyQ_other (e : Nat) (q : List CopyOp) (j : Nat) : (m.setCopyQ e q).ylink j = m.ylink j := rfl
@[simp] theorem Mach.ylink_emit_other (o : Output) (j : Nat) : (m.emit o).ylink j = m.ylink j := rfl
@[simp] theorem Mach.ylink_bumpId_other (j : Nat) : (m.bumpId).ylink j = m.ylink j := rfl
@[simp] theorem Mach.ylink_bumpFree_other (j : Nat) : (m.bumpFree).ylink j = m.ylink j := rfl
@[simp] theorem Mach.peer_setGrp_other (g : Nat) (x : Group) (j : Nat) : (m.setGrp g x).peer j = m.peer j := rfl
@[simp] theorem Mach.peer_modGrp_other (g : Nat) (f : Group → Group) (j : Nat) : (m.modGrp g f).peer j = m.peer j := rfl
@[simp] theorem Mach.peer_setBlk_other (b : Nat) (x : Block) (j : Nat) : (m.setBlk b x).peer j = m.peer j := rfl
@[simp] theorem Mach.peer_setKrn_other (k : Nat) (x : Krn) (j : Nat) : (m.setKrn k x).peer j = m.peer j := rfl
@[simp] theorem Mach.peer_modKrn_other (k : Nat) (f : Krn → Krn) (j : Nat) : (m.modKrn k f).peer j = m.peer j := rfl
@[simp] theorem Mach.peer_setCore_other (c : Nat) (x : Core) (j : Nat) : (m.setCore c x).peer j = m.peer j := rfl
@[simp] theorem Mach.peer_modCore_other (c : Nat) (f : Core → Core) (j : Nat) : (m.modCore c f).peer j = m.peer j := rfl
@[simp] theorem Mach.peer_setClu_other (c : Nat) (x : Cluster) (j : Nat) : (m.setClu c x).peer j = m.peer j := rfl
@[simp] theorem Mach.peer_modClu_other (c : Nat) (f : Cluster → Cluster) (j : Nat) : (m.modClu c f).peer j = m.peer j := rfl
@[simp] theorem Mach.peer_setPart_other (p : Nat) (x : Part) (j : Nat) : (m.setPart p x).peer j = m.peer j := rfl
@[simp] theorem Mach.peer_modPart_other (p : Nat) (f : Part → Part) (j : Nat) : (m.modPart p f).peer j = m.peer j := rfl
@[simp] theorem Mach.peer_modSb_other (p : Nat) (f : StepB → StepB) (j : Nat) : (m.modSb p f).peer j = m.peer j := rfl
@[simp] theorem Mach.peer_modMem_other (f : Mem → Mem) (j : Nat) : (m.modMem f).peer j = m.peer j := rfl
@[simp] theorem Mach.peer_setUnit_other (u : Nat) (x : HbmUnit) (j : Nat) : (m.setUnit u x).peer j = m.peer j := rfl
@[simp] theorem Mach.peer_modLink_other (l : Nat) (f : HLink → HLink) (j : Nat) : (m.modLink l f).peer j = m.peer j := rfl
@[simp] theorem Mach.peer_modFn_other (k : Nat) (f : FnState → FnState) (j : Nat) : (m.modFn k f).peer j = m.peer j := rfl
@[simp] theorem Mach.peer_setChan_other (k : Nat) (x : Chan) (j : Nat) : (m.setChan k x).peer j = m.peer j := rfl
@[simp] theorem Mach.peer_modChan_other (k : Nat) (f : Chan → Chan) (j : Nat) : (m.modChan k f).peer j = m.peer j := rfl
@[simp] theorem Mach.peer_modHost_other (f : HostSt → HostSt) (j : Nat) : (m.modHost f).peer j = m.peer j := rfl
@[simp] theorem Mach.peer_modHalf_other (h : Nat) (f : Half → Half) (j : Nat) : (m.modHalf h f).peer j = m.peer j := rfl
@[simp] theorem Mach.peer_modPower_other (f : Power → Power) (j : Nat) : (m.modPower f).peer j = m.peer j := rfl
@[simp] theorem Mach.peer_modCres_other (f : Crescent → Crescent) (j : Nat) : (m.modCres f).peer j = m.peer j := rfl
@[simp] theorem Mach.peer_modRas_other (f : Ras → Ras) (j : Nat) : (m.modRas f).peer j = m.peer j := rfl
@[simp] theorem Mach.peer_modSec_other (f : Sec → Sec) (j : Nat) : (m.modSec f).peer j = m.peer j := rfl
@[simp] theorem Mach.peer_modStart_other (f : Start → Start) (j : Nat) : (m.modStart f).peer j = m.peer j := rfl
@[simp] theorem Mach.peer_modMoon_other (f : Moon → Moon) (j : Nat) : (m.modMoon f).peer j = m.peer j := rfl
@[simp] theorem Mach.peer_setCopyQ_other (e : Nat) (q : List CopyOp) (j : Nat) : (m.setCopyQ e q).peer j = m.peer j := rfl
@[simp] theorem Mach.peer_emit_other (o : Output) (j : Nat) : (m.emit o).peer j = m.peer j := rfl
@[simp] theorem Mach.peer_bumpId_other (j : Nat) : (m.bumpId).peer j = m.peer j := rfl
@[simp] theorem Mach.peer_bumpFree_other (j : Nat) : (m.bumpFree).peer j = m.peer j := rfl
@[simp] theorem Mach.half_setGrp_other (g : Nat) (x : Group) (j : Nat) : (m.setGrp g x).half j = m.half j := rfl
@[simp] theorem Mach.half_modGrp_other (g : Nat) (f : Group → Group) (j : Nat) : (m.modGrp g f).half j = m.half j := rfl
@[simp] theorem Mach.half_setBlk_other (b : Nat) (x : Block) (j : Nat) : (m.setBlk b x).half j = m.half j := rfl
@[simp] theorem Mach.half_setKrn_other (k : Nat) (x : Krn) (j : Nat) : (m.setKrn k x).half j = m.half j := rfl
@[simp] theorem Mach.half_modKrn_other (k : Nat) (f : Krn → Krn) (j : Nat) : (m.modKrn k f).half j = m.half j := rfl
@[simp] theorem Mach.half_setCore_other (c : Nat) (x : Core) (j : Nat) : (m.setCore c x).half j = m.half j := rfl
@[simp] theorem Mach.half_modCore_other (c : Nat) (f : Core → Core) (j : Nat) : (m.modCore c f).half j = m.half j := rfl
@[simp] theorem Mach.half_setClu_other (c : Nat) (x : Cluster) (j : Nat) : (m.setClu c x).half j = m.half j := rfl
@[simp] theorem Mach.half_modClu_other (c : Nat) (f : Cluster → Cluster) (j : Nat) : (m.modClu c f).half j = m.half j := rfl
@[simp] theorem Mach.half_setPart_other (p : Nat) (x : Part) (j : Nat) : (m.setPart p x).half j = m.half j := rfl
@[simp] theorem Mach.half_modPart_other (p : Nat) (f : Part → Part) (j : Nat) : (m.modPart p f).half j = m.half j := rfl
@[simp] theorem Mach.half_modSb_other (p : Nat) (f : StepB → StepB) (j : Nat) : (m.modSb p f).half j = m.half j := rfl
@[simp] theorem Mach.half_modMem_other (f : Mem → Mem) (j : Nat) : (m.modMem f).half j = m.half j := rfl
@[simp] theorem Mach.half_setUnit_other (u : Nat) (x : HbmUnit) (j : Nat) : (m.setUnit u x).half j = m.half j := rfl
@[simp] theorem Mach.half_modLink_other (l : Nat) (f : HLink → HLink) (j : Nat) : (m.modLink l f).half j = m.half j := rfl
@[simp] theorem Mach.half_modFn_other (k : Nat) (f : FnState → FnState) (j : Nat) : (m.modFn k f).half j = m.half j := rfl
@[simp] theorem Mach.half_setChan_other (k : Nat) (x : Chan) (j : Nat) : (m.setChan k x).half j = m.half j := rfl
@[simp] theorem Mach.half_modChan_other (k : Nat) (f : Chan → Chan) (j : Nat) : (m.modChan k f).half j = m.half j := rfl
@[simp] theorem Mach.half_modHost_other (f : HostSt → HostSt) (j : Nat) : (m.modHost f).half j = m.half j := rfl
@[simp] theorem Mach.half_modYlink_other (l : Nat) (f : YLink → YLink) (j : Nat) : (m.modYlink l f).half j = m.half j := rfl
@[simp] theorem Mach.half_modPeer_other (k : Nat) (f : Peer → Peer) (j : Nat) : (m.modPeer k f).half j = m.half j := rfl
@[simp] theorem Mach.half_modLinks_other (f : Links → Links) (j : Nat) : (m.modLinks f).half j = m.half j := rfl
@[simp] theorem Mach.half_modCres_other (f : Crescent → Crescent) (j : Nat) : (m.modCres f).half j = m.half j := rfl
@[simp] theorem Mach.half_modRas_other (f : Ras → Ras) (j : Nat) : (m.modRas f).half j = m.half j := rfl
@[simp] theorem Mach.half_modSec_other (f : Sec → Sec) (j : Nat) : (m.modSec f).half j = m.half j := rfl
@[simp] theorem Mach.half_modStart_other (f : Start → Start) (j : Nat) : (m.modStart f).half j = m.half j := rfl
@[simp] theorem Mach.half_modMoon_other (f : Moon → Moon) (j : Nat) : (m.modMoon f).half j = m.half j := rfl
@[simp] theorem Mach.half_setCopyQ_other (e : Nat) (q : List CopyOp) (j : Nat) : (m.setCopyQ e q).half j = m.half j := rfl
@[simp] theorem Mach.half_emit_other (o : Output) (j : Nat) : (m.emit o).half j = m.half j := rfl
@[simp] theorem Mach.half_bumpId_other (j : Nat) : (m.bumpId).half j = m.half j := rfl
@[simp] theorem Mach.half_bumpFree_other (j : Nat) : (m.bumpFree).half j = m.half j := rfl
@[simp] theorem Mach.rail_setGrp_other (g : Nat) (x : Group) (j : Nat) : (m.setGrp g x).rail j = m.rail j := rfl
@[simp] theorem Mach.rail_modGrp_other (g : Nat) (f : Group → Group) (j : Nat) : (m.modGrp g f).rail j = m.rail j := rfl
@[simp] theorem Mach.rail_setBlk_other (b : Nat) (x : Block) (j : Nat) : (m.setBlk b x).rail j = m.rail j := rfl
@[simp] theorem Mach.rail_setKrn_other (k : Nat) (x : Krn) (j : Nat) : (m.setKrn k x).rail j = m.rail j := rfl
@[simp] theorem Mach.rail_modKrn_other (k : Nat) (f : Krn → Krn) (j : Nat) : (m.modKrn k f).rail j = m.rail j := rfl
@[simp] theorem Mach.rail_setCore_other (c : Nat) (x : Core) (j : Nat) : (m.setCore c x).rail j = m.rail j := rfl
@[simp] theorem Mach.rail_modCore_other (c : Nat) (f : Core → Core) (j : Nat) : (m.modCore c f).rail j = m.rail j := rfl
@[simp] theorem Mach.rail_setClu_other (c : Nat) (x : Cluster) (j : Nat) : (m.setClu c x).rail j = m.rail j := rfl
@[simp] theorem Mach.rail_modClu_other (c : Nat) (f : Cluster → Cluster) (j : Nat) : (m.modClu c f).rail j = m.rail j := rfl
@[simp] theorem Mach.rail_setPart_other (p : Nat) (x : Part) (j : Nat) : (m.setPart p x).rail j = m.rail j := rfl
@[simp] theorem Mach.rail_modPart_other (p : Nat) (f : Part → Part) (j : Nat) : (m.modPart p f).rail j = m.rail j := rfl
@[simp] theorem Mach.rail_modSb_other (p : Nat) (f : StepB → StepB) (j : Nat) : (m.modSb p f).rail j = m.rail j := rfl
@[simp] theorem Mach.rail_modMem_other (f : Mem → Mem) (j : Nat) : (m.modMem f).rail j = m.rail j := rfl
@[simp] theorem Mach.rail_setUnit_other (u : Nat) (x : HbmUnit) (j : Nat) : (m.setUnit u x).rail j = m.rail j := rfl
@[simp] theorem Mach.rail_modLink_other (l : Nat) (f : HLink → HLink) (j : Nat) : (m.modLink l f).rail j = m.rail j := rfl
@[simp] theorem Mach.rail_modFn_other (k : Nat) (f : FnState → FnState) (j : Nat) : (m.modFn k f).rail j = m.rail j := rfl
@[simp] theorem Mach.rail_setChan_other (k : Nat) (x : Chan) (j : Nat) : (m.setChan k x).rail j = m.rail j := rfl
@[simp] theorem Mach.rail_modChan_other (k : Nat) (f : Chan → Chan) (j : Nat) : (m.modChan k f).rail j = m.rail j := rfl
@[simp] theorem Mach.rail_modHost_other (f : HostSt → HostSt) (j : Nat) : (m.modHost f).rail j = m.rail j := rfl
@[simp] theorem Mach.rail_modYlink_other (l : Nat) (f : YLink → YLink) (j : Nat) : (m.modYlink l f).rail j = m.rail j := rfl
@[simp] theorem Mach.rail_modPeer_other (k : Nat) (f : Peer → Peer) (j : Nat) : (m.modPeer k f).rail j = m.rail j := rfl
@[simp] theorem Mach.rail_modLinks_other (f : Links → Links) (j : Nat) : (m.modLinks f).rail j = m.rail j := rfl
@[simp] theorem Mach.rail_modHalf_other (h : Nat) (f : Half → Half) (j : Nat) : (m.modHalf h f).rail j = m.rail j := rfl
@[simp] theorem Mach.rail_modPower_other (f : Power → Power) (j : Nat) : (m.modPower f).rail j = m.rail j := rfl
@[simp] theorem Mach.rail_modRas_other (f : Ras → Ras) (j : Nat) : (m.modRas f).rail j = m.rail j := rfl
@[simp] theorem Mach.rail_modSec_other (f : Sec → Sec) (j : Nat) : (m.modSec f).rail j = m.rail j := rfl
@[simp] theorem Mach.rail_modStart_other (f : Start → Start) (j : Nat) : (m.modStart f).rail j = m.rail j := rfl
@[simp] theorem Mach.rail_modMoon_other (f : Moon → Moon) (j : Nat) : (m.modMoon f).rail j = m.rail j := rfl
@[simp] theorem Mach.rail_setCopyQ_other (e : Nat) (q : List CopyOp) (j : Nat) : (m.setCopyQ e q).rail j = m.rail j := rfl
@[simp] theorem Mach.rail_emit_other (o : Output) (j : Nat) : (m.emit o).rail j = m.rail j := rfl
@[simp] theorem Mach.rail_bumpId_other (j : Nat) : (m.bumpId).rail j = m.rail j := rfl
@[simp] theorem Mach.rail_bumpFree_other (j : Nat) : (m.bumpFree).rail j = m.rail j := rfl
@[simp] theorem Mach.unit_setGrp_other (g : Nat) (x : Group) (j : Nat) : (m.setGrp g x).unit j = m.unit j := rfl
@[simp] theorem Mach.unit_modGrp_other (g : Nat) (f : Group → Group) (j : Nat) : (m.modGrp g f).unit j = m.unit j := rfl
@[simp] theorem Mach.unit_setBlk_other (b : Nat) (x : Block) (j : Nat) : (m.setBlk b x).unit j = m.unit j := rfl
@[simp] theorem Mach.unit_setKrn_other (k : Nat) (x : Krn) (j : Nat) : (m.setKrn k x).unit j = m.unit j := rfl
@[simp] theorem Mach.unit_modKrn_other (k : Nat) (f : Krn → Krn) (j : Nat) : (m.modKrn k f).unit j = m.unit j := rfl
@[simp] theorem Mach.unit_setCore_other (c : Nat) (x : Core) (j : Nat) : (m.setCore c x).unit j = m.unit j := rfl
@[simp] theorem Mach.unit_modCore_other (c : Nat) (f : Core → Core) (j : Nat) : (m.modCore c f).unit j = m.unit j := rfl
@[simp] theorem Mach.unit_setClu_other (c : Nat) (x : Cluster) (j : Nat) : (m.setClu c x).unit j = m.unit j := rfl
@[simp] theorem Mach.unit_modClu_other (c : Nat) (f : Cluster → Cluster) (j : Nat) : (m.modClu c f).unit j = m.unit j := rfl
@[simp] theorem Mach.unit_setPart_other (p : Nat) (x : Part) (j : Nat) : (m.setPart p x).unit j = m.unit j := rfl
@[simp] theorem Mach.unit_modPart_other (p : Nat) (f : Part → Part) (j : Nat) : (m.modPart p f).unit j = m.unit j := rfl
@[simp] theorem Mach.unit_modSb_other (p : Nat) (f : StepB → StepB) (j : Nat) : (m.modSb p f).unit j = m.unit j := rfl
@[simp] theorem Mach.unit_modLink_other (l : Nat) (f : HLink → HLink) (j : Nat) : (m.modLink l f).unit j = m.unit j := rfl
@[simp] theorem Mach.unit_modFn_other (k : Nat) (f : FnState → FnState) (j : Nat) : (m.modFn k f).unit j = m.unit j := rfl
@[simp] theorem Mach.unit_setChan_other (k : Nat) (x : Chan) (j : Nat) : (m.setChan k x).unit j = m.unit j := rfl
@[simp] theorem Mach.unit_modChan_other (k : Nat) (f : Chan → Chan) (j : Nat) : (m.modChan k f).unit j = m.unit j := rfl
@[simp] theorem Mach.unit_modHost_other (f : HostSt → HostSt) (j : Nat) : (m.modHost f).unit j = m.unit j := rfl
@[simp] theorem Mach.unit_modYlink_other (l : Nat) (f : YLink → YLink) (j : Nat) : (m.modYlink l f).unit j = m.unit j := rfl
@[simp] theorem Mach.unit_modPeer_other (k : Nat) (f : Peer → Peer) (j : Nat) : (m.modPeer k f).unit j = m.unit j := rfl
@[simp] theorem Mach.unit_modLinks_other (f : Links → Links) (j : Nat) : (m.modLinks f).unit j = m.unit j := rfl
@[simp] theorem Mach.unit_modHalf_other (h : Nat) (f : Half → Half) (j : Nat) : (m.modHalf h f).unit j = m.unit j := rfl
@[simp] theorem Mach.unit_modPower_other (f : Power → Power) (j : Nat) : (m.modPower f).unit j = m.unit j := rfl
@[simp] theorem Mach.unit_modCres_other (f : Crescent → Crescent) (j : Nat) : (m.modCres f).unit j = m.unit j := rfl
@[simp] theorem Mach.unit_modRas_other (f : Ras → Ras) (j : Nat) : (m.modRas f).unit j = m.unit j := rfl
@[simp] theorem Mach.unit_modSec_other (f : Sec → Sec) (j : Nat) : (m.modSec f).unit j = m.unit j := rfl
@[simp] theorem Mach.unit_modStart_other (f : Start → Start) (j : Nat) : (m.modStart f).unit j = m.unit j := rfl
@[simp] theorem Mach.unit_modMoon_other (f : Moon → Moon) (j : Nat) : (m.modMoon f).unit j = m.unit j := rfl
@[simp] theorem Mach.unit_setCopyQ_other (e : Nat) (q : List CopyOp) (j : Nat) : (m.setCopyQ e q).unit j = m.unit j := rfl
@[simp] theorem Mach.unit_emit_other (o : Output) (j : Nat) : (m.emit o).unit j = m.unit j := rfl
@[simp] theorem Mach.unit_bumpId_other (j : Nat) : (m.bumpId).unit j = m.unit j := rfl
@[simp] theorem Mach.unit_bumpFree_other (j : Nat) : (m.bumpFree).unit j = m.unit j := rfl
@[simp] theorem Mach.copyQ_setGrp_other (g : Nat) (x : Group) (j : Nat) : (m.setGrp g x).copyQ j = m.copyQ j := rfl
@[simp] theorem Mach.copyQ_modGrp_other (g : Nat) (f : Group → Group) (j : Nat) : (m.modGrp g f).copyQ j = m.copyQ j := rfl
@[simp] theorem Mach.copyQ_setBlk_other (b : Nat) (x : Block) (j : Nat) : (m.setBlk b x).copyQ j = m.copyQ j := rfl
@[simp] theorem Mach.copyQ_setKrn_other (k : Nat) (x : Krn) (j : Nat) : (m.setKrn k x).copyQ j = m.copyQ j := rfl
@[simp] theorem Mach.copyQ_modKrn_other (k : Nat) (f : Krn → Krn) (j : Nat) : (m.modKrn k f).copyQ j = m.copyQ j := rfl
@[simp] theorem Mach.copyQ_setCore_other (c : Nat) (x : Core) (j : Nat) : (m.setCore c x).copyQ j = m.copyQ j := rfl
@[simp] theorem Mach.copyQ_modCore_other (c : Nat) (f : Core → Core) (j : Nat) : (m.modCore c f).copyQ j = m.copyQ j := rfl
@[simp] theorem Mach.copyQ_setClu_other (c : Nat) (x : Cluster) (j : Nat) : (m.setClu c x).copyQ j = m.copyQ j := rfl
@[simp] theorem Mach.copyQ_modClu_other (c : Nat) (f : Cluster → Cluster) (j : Nat) : (m.modClu c f).copyQ j = m.copyQ j := rfl
@[simp] theorem Mach.copyQ_setPart_other (p : Nat) (x : Part) (j : Nat) : (m.setPart p x).copyQ j = m.copyQ j := rfl
@[simp] theorem Mach.copyQ_modPart_other (p : Nat) (f : Part → Part) (j : Nat) : (m.modPart p f).copyQ j = m.copyQ j := rfl
@[simp] theorem Mach.copyQ_modSb_other (p : Nat) (f : StepB → StepB) (j : Nat) : (m.modSb p f).copyQ j = m.copyQ j := rfl
@[simp] theorem Mach.copyQ_modMem_other (f : Mem → Mem) (j : Nat) : (m.modMem f).copyQ j = m.copyQ j := rfl
@[simp] theorem Mach.copyQ_setUnit_other (u : Nat) (x : HbmUnit) (j : Nat) : (m.setUnit u x).copyQ j = m.copyQ j := rfl
@[simp] theorem Mach.copyQ_modLink_other (l : Nat) (f : HLink → HLink) (j : Nat) : (m.modLink l f).copyQ j = m.copyQ j := rfl
@[simp] theorem Mach.copyQ_modFn_other (k : Nat) (f : FnState → FnState) (j : Nat) : (m.modFn k f).copyQ j = m.copyQ j := rfl
@[simp] theorem Mach.copyQ_setChan_other (k : Nat) (x : Chan) (j : Nat) : (m.setChan k x).copyQ j = m.copyQ j := rfl
@[simp] theorem Mach.copyQ_modChan_other (k : Nat) (f : Chan → Chan) (j : Nat) : (m.modChan k f).copyQ j = m.copyQ j := rfl
@[simp] theorem Mach.copyQ_modHost_other (f : HostSt → HostSt) (j : Nat) : (m.modHost f).copyQ j = m.copyQ j := rfl
@[simp] theorem Mach.copyQ_modYlink_other (l : Nat) (f : YLink → YLink) (j : Nat) : (m.modYlink l f).copyQ j = m.copyQ j := rfl
@[simp] theorem Mach.copyQ_modPeer_other (k : Nat) (f : Peer → Peer) (j : Nat) : (m.modPeer k f).copyQ j = m.copyQ j := rfl
@[simp] theorem Mach.copyQ_modLinks_other (f : Links → Links) (j : Nat) : (m.modLinks f).copyQ j = m.copyQ j := rfl
@[simp] theorem Mach.copyQ_modHalf_other (h : Nat) (f : Half → Half) (j : Nat) : (m.modHalf h f).copyQ j = m.copyQ j := rfl
@[simp] theorem Mach.copyQ_modPower_other (f : Power → Power) (j : Nat) : (m.modPower f).copyQ j = m.copyQ j := rfl
@[simp] theorem Mach.copyQ_modCres_other (f : Crescent → Crescent) (j : Nat) : (m.modCres f).copyQ j = m.copyQ j := rfl
@[simp] theorem Mach.copyQ_modRas_other (f : Ras → Ras) (j : Nat) : (m.modRas f).copyQ j = m.copyQ j := rfl
@[simp] theorem Mach.copyQ_modSec_other (f : Sec → Sec) (j : Nat) : (m.modSec f).copyQ j = m.copyQ j := rfl
@[simp] theorem Mach.copyQ_modStart_other (f : Start → Start) (j : Nat) : (m.modStart f).copyQ j = m.copyQ j := rfl
@[simp] theorem Mach.copyQ_modMoon_other (f : Moon → Moon) (j : Nat) : (m.modMoon f).copyQ j = m.copyQ j := rfl
@[simp] theorem Mach.copyQ_emit_other (o : Output) (j : Nat) : (m.emit o).copyQ j = m.copyQ j := rfl
@[simp] theorem Mach.copyQ_bumpId_other (j : Nat) : (m.bumpId).copyQ j = m.copyQ j := rfl
@[simp] theorem Mach.copyQ_bumpFree_other (j : Nat) : (m.bumpFree).copyQ j = m.copyQ j := rfl
@[simp] theorem Mach.tideOf_setGrp_other (g : Nat) (x : Group) (j : Nat) : (m.setGrp g x).tideOf j = m.tideOf j := rfl
@[simp] theorem Mach.tideOf_modGrp_other (g : Nat) (f : Group → Group) (j : Nat) : (m.modGrp g f).tideOf j = m.tideOf j := rfl
@[simp] theorem Mach.tideOf_setBlk_other (b : Nat) (x : Block) (j : Nat) : (m.setBlk b x).tideOf j = m.tideOf j := rfl
@[simp] theorem Mach.tideOf_setKrn_other (k : Nat) (x : Krn) (j : Nat) : (m.setKrn k x).tideOf j = m.tideOf j := rfl
@[simp] theorem Mach.tideOf_modKrn_other (k : Nat) (f : Krn → Krn) (j : Nat) : (m.modKrn k f).tideOf j = m.tideOf j := rfl
@[simp] theorem Mach.tideOf_setCore_other (c : Nat) (x : Core) (j : Nat) : (m.setCore c x).tideOf j = m.tideOf j := rfl
@[simp] theorem Mach.tideOf_modCore_other (c : Nat) (f : Core → Core) (j : Nat) : (m.modCore c f).tideOf j = m.tideOf j := rfl
@[simp] theorem Mach.tideOf_setClu_other (c : Nat) (x : Cluster) (j : Nat) : (m.setClu c x).tideOf j = m.tideOf j := rfl
@[simp] theorem Mach.tideOf_modClu_other (c : Nat) (f : Cluster → Cluster) (j : Nat) : (m.modClu c f).tideOf j = m.tideOf j := rfl
@[simp] theorem Mach.tideOf_setPart_other (p : Nat) (x : Part) (j : Nat) : (m.setPart p x).tideOf j = m.tideOf j := rfl
@[simp] theorem Mach.tideOf_modPart_other (p : Nat) (f : Part → Part) (j : Nat) : (m.modPart p f).tideOf j = m.tideOf j := rfl
@[simp] theorem Mach.tideOf_modSb_other (p : Nat) (f : StepB → StepB) (j : Nat) : (m.modSb p f).tideOf j = m.tideOf j := rfl
@[simp] theorem Mach.tideOf_modMem_other (f : Mem → Mem) (j : Nat) : (m.modMem f).tideOf j = m.tideOf j := rfl
@[simp] theorem Mach.tideOf_setUnit_other (u : Nat) (x : HbmUnit) (j : Nat) : (m.setUnit u x).tideOf j = m.tideOf j := rfl
@[simp] theorem Mach.tideOf_modLink_other (l : Nat) (f : HLink → HLink) (j : Nat) : (m.modLink l f).tideOf j = m.tideOf j := rfl
@[simp] theorem Mach.tideOf_modFn_other (k : Nat) (f : FnState → FnState) (j : Nat) : (m.modFn k f).tideOf j = m.tideOf j := rfl
@[simp] theorem Mach.tideOf_setChan_other (k : Nat) (x : Chan) (j : Nat) : (m.setChan k x).tideOf j = m.tideOf j := rfl
@[simp] theorem Mach.tideOf_modChan_other (k : Nat) (f : Chan → Chan) (j : Nat) : (m.modChan k f).tideOf j = m.tideOf j := rfl
@[simp] theorem Mach.tideOf_modHost_other (f : HostSt → HostSt) (j : Nat) : (m.modHost f).tideOf j = m.tideOf j := rfl
@[simp] theorem Mach.tideOf_modYlink_other (l : Nat) (f : YLink → YLink) (j : Nat) : (m.modYlink l f).tideOf j = m.tideOf j := rfl
@[simp] theorem Mach.tideOf_modPeer_other (k : Nat) (f : Peer → Peer) (j : Nat) : (m.modPeer k f).tideOf j = m.tideOf j := rfl
@[simp] theorem Mach.tideOf_modLinks_other (f : Links → Links) (j : Nat) : (m.modLinks f).tideOf j = m.tideOf j := rfl
@[simp] theorem Mach.tideOf_modHalf_other (h : Nat) (f : Half → Half) (j : Nat) : (m.modHalf h f).tideOf j = m.tideOf j := rfl
@[simp] theorem Mach.tideOf_modPower_other (f : Power → Power) (j : Nat) : (m.modPower f).tideOf j = m.tideOf j := rfl
@[simp] theorem Mach.tideOf_modCres_other (f : Crescent → Crescent) (j : Nat) : (m.modCres f).tideOf j = m.tideOf j := rfl
@[simp] theorem Mach.tideOf_modRas_other (f : Ras → Ras) (j : Nat) : (m.modRas f).tideOf j = m.tideOf j := rfl
@[simp] theorem Mach.tideOf_modSec_other (f : Sec → Sec) (j : Nat) : (m.modSec f).tideOf j = m.tideOf j := rfl
@[simp] theorem Mach.tideOf_modStart_other (f : Start → Start) (j : Nat) : (m.modStart f).tideOf j = m.tideOf j := rfl
@[simp] theorem Mach.tideOf_modMoon_other (f : Moon → Moon) (j : Nat) : (m.modMoon f).tideOf j = m.tideOf j := rfl
@[simp] theorem Mach.tideOf_setCopyQ_other (e : Nat) (q : List CopyOp) (j : Nat) : (m.setCopyQ e q).tideOf j = m.tideOf j := rfl
@[simp] theorem Mach.tideOf_emit_other (o : Output) (j : Nat) : (m.emit o).tideOf j = m.tideOf j := rfl
@[simp] theorem Mach.tideOf_bumpId_other (j : Nat) : (m.bumpId).tideOf j = m.tideOf j := rfl
@[simp] theorem Mach.tideOf_bumpFree_other (j : Nat) : (m.bumpFree).tideOf j = m.tideOf j := rfl
@[simp] theorem Mach.now_setGrp_other (g : Nat) (x : Group) : (m.setGrp g x).now = m.now := rfl
@[simp] theorem Mach.now_modGrp_other (g : Nat) (f : Group → Group) : (m.modGrp g f).now = m.now := rfl
@[simp] theorem Mach.now_setBlk_other (b : Nat) (x : Block) : (m.setBlk b x).now = m.now := rfl
@[simp] theorem Mach.now_setKrn_other (k : Nat) (x : Krn) : (m.setKrn k x).now = m.now := rfl
@[simp] theorem Mach.now_modKrn_other (k : Nat) (f : Krn → Krn) : (m.modKrn k f).now = m.now := rfl
@[simp] theorem Mach.now_setCore_other (c : Nat) (x : Core) : (m.setCore c x).now = m.now := rfl
@[simp] theorem Mach.now_modCore_other (c : Nat) (f : Core → Core) : (m.modCore c f).now = m.now := rfl
@[simp] theorem Mach.now_setClu_other (c : Nat) (x : Cluster) : (m.setClu c x).now = m.now := rfl
@[simp] theorem Mach.now_modClu_other (c : Nat) (f : Cluster → Cluster) : (m.modClu c f).now = m.now := rfl
@[simp] theorem Mach.now_setPart_other (p : Nat) (x : Part) : (m.setPart p x).now = m.now := rfl
@[simp] theorem Mach.now_modPart_other (p : Nat) (f : Part → Part) : (m.modPart p f).now = m.now := rfl
@[simp] theorem Mach.now_modSb_other (p : Nat) (f : StepB → StepB) : (m.modSb p f).now = m.now := rfl
@[simp] theorem Mach.now_modMem_other (f : Mem → Mem) : (m.modMem f).now = m.now := rfl
@[simp] theorem Mach.now_setUnit_other (u : Nat) (x : HbmUnit) : (m.setUnit u x).now = m.now := rfl
@[simp] theorem Mach.now_modLink_other (l : Nat) (f : HLink → HLink) : (m.modLink l f).now = m.now := rfl
@[simp] theorem Mach.now_modFn_other (k : Nat) (f : FnState → FnState) : (m.modFn k f).now = m.now := rfl
@[simp] theorem Mach.now_setChan_other (k : Nat) (x : Chan) : (m.setChan k x).now = m.now := rfl
@[simp] theorem Mach.now_modChan_other (k : Nat) (f : Chan → Chan) : (m.modChan k f).now = m.now := rfl
@[simp] theorem Mach.now_modHost_other (f : HostSt → HostSt) : (m.modHost f).now = m.now := rfl
@[simp] theorem Mach.now_modYlink_other (l : Nat) (f : YLink → YLink) : (m.modYlink l f).now = m.now := rfl
@[simp] theorem Mach.now_modPeer_other (k : Nat) (f : Peer → Peer) : (m.modPeer k f).now = m.now := rfl
@[simp] theorem Mach.now_modLinks_other (f : Links → Links) : (m.modLinks f).now = m.now := rfl
@[simp] theorem Mach.now_modHalf_other (h : Nat) (f : Half → Half) : (m.modHalf h f).now = m.now := rfl
@[simp] theorem Mach.now_modPower_other (f : Power → Power) : (m.modPower f).now = m.now := rfl
@[simp] theorem Mach.now_modCres_other (f : Crescent → Crescent) : (m.modCres f).now = m.now := rfl
@[simp] theorem Mach.now_modRas_other (f : Ras → Ras) : (m.modRas f).now = m.now := rfl
@[simp] theorem Mach.now_modSec_other (f : Sec → Sec) : (m.modSec f).now = m.now := rfl
@[simp] theorem Mach.now_modStart_other (f : Start → Start) : (m.modStart f).now = m.now := rfl
@[simp] theorem Mach.now_modMoon_other (f : Moon → Moon) : (m.modMoon f).now = m.now := rfl
@[simp] theorem Mach.now_setCopyQ_other (e : Nat) (q : List CopyOp) : (m.setCopyQ e q).now = m.now := rfl
@[simp] theorem Mach.now_emit_other (o : Output) : (m.emit o).now = m.now := rfl
@[simp] theorem Mach.now_bumpId_other : (m.bumpId).now = m.now := rfl
@[simp] theorem Mach.now_bumpFree_other : (m.bumpFree).now = m.now := rfl
@[simp] theorem Mach.up_setGrp_other (g : Nat) (x : Group) : (m.setGrp g x).up = m.up := rfl
@[simp] theorem Mach.up_modGrp_other (g : Nat) (f : Group → Group) : (m.modGrp g f).up = m.up := rfl
@[simp] theorem Mach.up_setBlk_other (b : Nat) (x : Block) : (m.setBlk b x).up = m.up := rfl
@[simp] theorem Mach.up_setKrn_other (k : Nat) (x : Krn) : (m.setKrn k x).up = m.up := rfl
@[simp] theorem Mach.up_modKrn_other (k : Nat) (f : Krn → Krn) : (m.modKrn k f).up = m.up := rfl
@[simp] theorem Mach.up_setCore_other (c : Nat) (x : Core) : (m.setCore c x).up = m.up := rfl
@[simp] theorem Mach.up_modCore_other (c : Nat) (f : Core → Core) : (m.modCore c f).up = m.up := rfl
@[simp] theorem Mach.up_setClu_other (c : Nat) (x : Cluster) : (m.setClu c x).up = m.up := rfl
@[simp] theorem Mach.up_modClu_other (c : Nat) (f : Cluster → Cluster) : (m.modClu c f).up = m.up := rfl
@[simp] theorem Mach.up_setPart_other (p : Nat) (x : Part) : (m.setPart p x).up = m.up := rfl
@[simp] theorem Mach.up_modPart_other (p : Nat) (f : Part → Part) : (m.modPart p f).up = m.up := rfl
@[simp] theorem Mach.up_modSb_other (p : Nat) (f : StepB → StepB) : (m.modSb p f).up = m.up := rfl
@[simp] theorem Mach.up_modMem_other (f : Mem → Mem) : (m.modMem f).up = m.up := rfl
@[simp] theorem Mach.up_setUnit_other (u : Nat) (x : HbmUnit) : (m.setUnit u x).up = m.up := rfl
@[simp] theorem Mach.up_modLink_other (l : Nat) (f : HLink → HLink) : (m.modLink l f).up = m.up := rfl
@[simp] theorem Mach.up_modFn_other (k : Nat) (f : FnState → FnState) : (m.modFn k f).up = m.up := rfl
@[simp] theorem Mach.up_setChan_other (k : Nat) (x : Chan) : (m.setChan k x).up = m.up := rfl
@[simp] theorem Mach.up_modChan_other (k : Nat) (f : Chan → Chan) : (m.modChan k f).up = m.up := rfl
@[simp] theorem Mach.up_modHost_other (f : HostSt → HostSt) : (m.modHost f).up = m.up := rfl
@[simp] theorem Mach.up_modYlink_other (l : Nat) (f : YLink → YLink) : (m.modYlink l f).up = m.up := rfl
@[simp] theorem Mach.up_modPeer_other (k : Nat) (f : Peer → Peer) : (m.modPeer k f).up = m.up := rfl
@[simp] theorem Mach.up_modLinks_other (f : Links → Links) : (m.modLinks f).up = m.up := rfl
@[simp] theorem Mach.up_modHalf_other (h : Nat) (f : Half → Half) : (m.modHalf h f).up = m.up := rfl
@[simp] theorem Mach.up_modPower_other (f : Power → Power) : (m.modPower f).up = m.up := rfl
@[simp] theorem Mach.up_modCres_other (f : Crescent → Crescent) : (m.modCres f).up = m.up := rfl
@[simp] theorem Mach.up_modRas_other (f : Ras → Ras) : (m.modRas f).up = m.up := rfl
@[simp] theorem Mach.up_modSec_other (f : Sec → Sec) : (m.modSec f).up = m.up := rfl
@[simp] theorem Mach.up_modMoon_other (f : Moon → Moon) : (m.modMoon f).up = m.up := rfl
@[simp] theorem Mach.up_setCopyQ_other (e : Nat) (q : List CopyOp) : (m.setCopyQ e q).up = m.up := rfl
@[simp] theorem Mach.up_emit_other (o : Output) : (m.emit o).up = m.up := rfl
@[simp] theorem Mach.up_bumpId_other : (m.bumpId).up = m.up := rfl
@[simp] theorem Mach.up_bumpFree_other : (m.bumpFree).up = m.up := rfl

end Sys2Proof.Machine
end

