-- ==== Sys2Proof/Laws/HomeMem.lean ====
section
/-! SUPPORT. Laws/HomeMem.lean: what the operations on memory, records and interrupts can reach, once for each: `MemFrame`. -/

namespace Sys2Proof.Machine

theorem MemFrame.refl (m : Mach) : MemFrame m m := rfl

theorem MemFrame.trans {a b c : Mach} (h : MemFrame a b) (k : MemFrame b c) : MemFrame a c := by
  unfold MemFrame at *
  rw [k, h]

/-- A fold of framed operations is framed. -/
theorem MemFrame.foldl {α : Type} (f : Mach → α → Mach) (h : ∀ m a, MemFrame m (f m a)) (l : List α) (m : Mach) :
    MemFrame m (l.foldl f m) := by
  induction l generalizing m with
  | nil => exact MemFrame.refl m
  | cons a l ih => exact (h m a).trans (ih (f m a))

/-- What is done under a condition is framed. -/
theorem frame_if {c : Prop} [Decidable c] (a : Mach) {b : Mach} (h : MemFrame a b) : MemFrame a (if c then b else a) := by
  split
  · exact h
  · exact MemFrame.refl a

section
variable (m : Mach)

theorem frame_modMem (f : Mem → Mem) : MemFrame m (m.modMem f) := rfl
theorem frame_modPart (p : Nat) (f : Part → Part) : MemFrame m (m.modPart p f) := rfl
theorem frame_modRas (f : Ras → Ras) : MemFrame m (m.modRas f) := rfl
theorem frame_modMoon (f : Moon → Moon) : MemFrame m (m.modMoon f) := rfl
theorem frame_modHost (f : HostSt → HostSt) : MemFrame m (m.modHost f) := rfl
theorem frame_modFn (k : Nat) (f : FnState → FnState) : MemFrame m (m.modFn k f) := rfl
theorem frame_emit (o : Output) : MemFrame m (m.emit o) := rfl
theorem frame_bumpFree : MemFrame m m.bumpFree := rfl

theorem frame_account (p i n : Nat) : MemFrame m (m.account p i n) := by unfold Mach.account; split <;> rfl
theorem frame_spend (p r q n : Nat) : MemFrame m (m.spend p r q n) := by unfold Mach.spend; dsimp only; split <;> rfl
theorem frame_sendMsix (k l v : Nat) : MemFrame m (m.sendMsix k l v) := by
  unfold Mach.sendMsix; dsimp only
  split
  · rfl
  · split <;> rfl
theorem frame_raisePf (v : Nat) : MemFrame m (m.raisePf v) := frame_sendMsix m 0 0 v
theorem frame_raiseVf (p r : Nat) : MemFrame m (m.raiseVf p r) := by
  unfold Mach.raiseVf
  split
  · exact (frame_modPart m p _).trans (frame_sendMsix _ _ _ _)
  · exact MemFrame.refl m
theorem frame_logPartNow (p : Nat) (r : RasRec) : MemFrame m (m.logPartNow p r) := rfl
theorem frame_logDev (r : RasRec) : MemFrame m (m.logDev r) := by unfold Mach.logDev; split <;> rfl
theorem frame_logPart (p : Nat) (r : RasRec) : MemFrame m (m.logPart p r) := by
  unfold Mach.logPart
  split
  · exact (frame_logPartNow m p r).trans (frame_raiseVf _ _ _)
  · rfl
theorem frame_notice (p num st : Nat) : MemFrame m (m.notice p num st) := by
  unfold Mach.notice
  dsimp only
  split
  · exact (frame_logDev m _).trans (frame_raisePf _ 1)
  · exact (frame_logDev m _).trans (frame_logPart _ _ _)
theorem frame_logAer (k c : Nat) : MemFrame m (m.logAer k c) := rfl
theorem frame_cxlError : MemFrame m m.cxlError := rfl
theorem frame_contained (c pa : Nat) : MemFrame m (m.contained c pa) := by
  unfold Mach.contained
  dsimp only
  split
  · exact frame_logDev m _
  · exact (frame_logDev m _).trans (frame_logPart _ _ _)
theorem frame_event (c v : Nat) : MemFrame m (m.event c v) := frame_logDev m _
theorem frame_eventAt (c v d p k : Nat) : MemFrame m (m.eventAt c v d p k) := frame_logDev m _
theorem frame_mapUpdate (d : Nat) : MemFrame m (m.mapUpdate d) := rfl
theorem frame_retirePage (p : Nat) : MemFrame m (m.retirePage p) := by
  unfold Mach.retirePage
  split
  · exact MemFrame.refl m
  · split
    · rfl
    · exact (frame_modMem m _).trans ((frame_mapUpdate _ _).trans (frame_contained _ _ _))
theorem frame_retireFreed : MemFrame m m.retireFreed := MemFrame.foldl _ (fun m g => frame_retirePage m g) _ m
theorem frame_notePoison (p : Nat) : MemFrame m (m.notePoison p) := by
  unfold Mach.notePoison
  split
  · exact frame_retirePage m p
  · rfl
theorem frame_poisonEvent (l s : Nat) : MemFrame m (m.poisonEvent l s) := by
  unfold Mach.poisonEvent
  dsimp only
  refine MemFrame.trans ?_ (frame_if (c := (decide (s ≤ 3) || s == 6) = true) _ (frame_notePoison _ _))
  split
  · exact (frame_logDev m _).trans (frame_raisePf _ _)
  · exact (frame_logDev m _).trans (frame_logPart _ _ _)
theorem frame_deferred (c l p n : Nat) : MemFrame m (m.deferred c l p n) := by
  unfold Mach.deferred
  dsimp only
  split
  · exact (frame_logDev m _).trans (frame_raisePf _ _)
  · exact (frame_logDev m _).trans (frame_logPart _ _ _)

/-! HBM, the slices and the directory. -/

theorem frame_hbmStore (l : Nat) (d : LineData) (p : Bool) : MemFrame m (m.hbmStore l d p) := rfl
theorem frame_hbmWriteFor (l : Nat) (d : LineData) (p c : Bool) : MemFrame m (m.hbmWriteFor l d p c) := by
  unfold Mach.hbmWriteFor
  dsimp only
  split
  · exact (frame_hbmStore m l d p).trans ((frame_account _ _ _ _).trans (frame_spend _ _ _ _ _))
  · exact frame_hbmStore m l d p
theorem frame_hbmWrite (l : Nat) (d : LineData) (p : Bool) : MemFrame m (m.hbmWrite l d p) := frame_hbmWriteFor m l d p true
theorem frame_hbmRowEvent (l : Nat) : MemFrame m (m.hbmRowEvent l) := by
  unfold Mach.hbmRowEvent
  dsimp only
  split
  · exact frame_modRas m _
  · split
    · exact (frame_modRas m _).trans ((frame_modRas _ _).trans (frame_mapUpdate _ _))
    · split
      · exact (frame_modRas m _).trans (frame_retirePage _ _)
      · exact (frame_modRas m _).trans (frame_modMem _ _)
theorem frame_hbmRead (l p : Nat) : MemFrame m (m.hbmRead l p).2 := by
  have h0 := (frame_account m p 2 64).trans (frame_spend _ p 0 (controllerOf l) 64)
  unfold Mach.hbmRead
  dsimp only
  split
  · exact h0
  · exact h0.trans ((frame_modMem _ _).trans (frame_logDev _ _))
  · split
    · exact h0.trans ((frame_hbmRowEvent _ _).trans ((frame_hbmStore _ _ _ _).trans (frame_logDev _ _)))
    · exact h0.trans ((frame_hbmRowEvent _ l).trans ((frame_modMem _ _).trans (frame_poisonEvent _ l 3)))
theorem frame_chargeRa (r : Nat) : MemFrame m (m.chargeRa r) := by
  unfold Mach.chargeRa
  split
  · exact MemFrame.refl m
  · exact frame_account _ _ _ _
theorem frame_tickLru : MemFrame m m.tickLru := rfl
theorem frame_sliceEvict (k : Nat) (l : LlcLine) : MemFrame m (m.sliceEvict k l) := by
  have h0 := (frame_modMem m (fun a => { a with llc := tdel a.llc k })).trans (frame_chargeRa _ l.ra)
  unfold Mach.sliceEvict
  dsimp only
  split
  · exact h0
  · split
    · exact h0.trans (frame_hbmWrite _ _ _ _)
    · exact h0.trans (frame_emit _ _)
theorem frame_sliceFill (k : Nat) (w : BitVec 16) (l : LlcLine) : MemFrame m (m.sliceFill k w l) := by
  unfold Mach.sliceFill
  dsimp only
  refine (frame_tickLru m).trans ?_
  split
  · exact frame_modMem _ _
  · split
    · exact (frame_sliceEvict _ _ _).trans (frame_modMem _ _)
    · exact MemFrame.refl _
theorem frame_sliceTouch (k p : Nat) (l : LlcLine) : MemFrame m (m.sliceTouch k p l) := by
  unfold Mach.sliceTouch
  dsimp only
  refine (frame_tickLru m).trans (MemFrame.trans ?_ (frame_modMem _ _))
  split
  · exact frame_account _ _ _ _
  · exact MemFrame.refl _
theorem frame_homeFetch (l p : Nat) (a : Bool) : MemFrame m (m.homeFetch l p a).2 := by
  unfold Mach.homeFetch
  split
  · exact frame_sliceTouch _ _ _ _
  · dsimp only
    split
    · exact (frame_hbmRead m l p).trans (frame_sliceFill _ _ _ _)
    · exact frame_hbmRead m l p
theorem frame_homeStore (l p : Nat) (d : LineData) (po a : Bool) : MemFrame m (m.homeStore l p d po a) := by
  unfold Mach.homeStore
  split
  · exact frame_sliceTouch _ _ _ _
  · split
    · exact frame_sliceFill _ _ _ _
    · exact frame_hbmWrite _ _ _ _
theorem frame_rlcSetLine (h l : Nat) (x : RlcLine) : MemFrame m (m.rlcSetLine h l x) := rfl
theorem frame_rlcDrop (h l : Nat) : MemFrame m (m.rlcDrop h l) := by
  unfold Mach.rlcDrop
  split
  · exact (frame_modMem m _).trans (frame_chargeRa _ _)
  · exact MemFrame.refl m
theorem frame_dirDrop (l : Nat) : MemFrame m (m.dirDrop l) := rfl
theorem frame_takeBack (l p : Nat) : MemFrame m (m.takeBack l p) := by
  have h0 : MemFrame m ((List.range 8).foldl (fun m h =>
      match m.rlcLine h l with
      | some x => (if x.st == .m then m.homeStore l p x.data x.poison true else m).rlcDrop h l
      | none => m) m) := by
    apply MemFrame.foldl
    intro m h
    split
    · split
      · exact (frame_homeStore _ _ _ _ _ _).trans (frame_rlcDrop _ _ _)
      · exact frame_rlcDrop _ _ _
    · exact MemFrame.refl m
  unfold Mach.takeBack
  dsimp only
  split
  · split
    · exact h0.trans (frame_modMem _ _)
    · exact h0.trans (frame_dirDrop _ _)
  · exact h0
theorem frame_snpOwner (l p : Nat) (e : DirEntry) : MemFrame m (m.snpOwner l p e) := by
  unfold Mach.snpOwner
  dsimp only
  split
  · split
    · exact (frame_homeStore _ _ _ _ _ _).trans ((frame_rlcSetLine _ _ _ _).trans (frame_modMem _ _))
    · exact (frame_rlcSetLine _ _ _ _).trans (frame_modMem _ _)
  · exact frame_dirDrop _ _
theorem frame_dirPut (l : Nat) (e : DirEntry) : MemFrame m (m.dirPut l e) := by
  unfold Mach.dirPut
  exact (frame_tickLru m).trans (frame_modMem _ _)
theorem frame_openTxn (t : Txn) : MemFrame m (m.openTxn t) := rfl
theorem frame_post (c : CohMsg) : MemFrame m (m.post c) := rfl
theorem frame_snoopAll (q : HomeReq) (k : SnoopKind) (l : List Nat) (h i : Bool) : MemFrame m (m.snoopAll q k l h i) := by
  unfold Mach.snoopAll
  dsimp only
  exact (frame_openTxn m _).trans ((MemFrame.foldl _ (fun m _ => frame_post m _) l _).trans (frame_if _ (frame_post _ _)))
theorem frame_evictEntry (l : Nat) : MemFrame m (m.evictEntry l) := by
  unfold Mach.evictEntry
  split
  · exact MemFrame.refl m
  · split
    · exact MemFrame.refl m
    · dsimp only
      split
      · exact MemFrame.refl m
      · split
        · exact frame_snoopAll _ _ _ _ _ _
        · exact frame_snoopAll _ _ _ _ _ _
theorem frame_askHost (l : Nat) (i : Bool) : MemFrame m (m.askHost l i) := by
  unfold Mach.askHost
  split
  · exact frame_snoopAll _ _ _ _ _ _
  · exact MemFrame.refl m
theorem frame_logWrite (l : Nat) : MemFrame m (m.logWrite l) := by
  unfold Mach.logWrite
  dsimp only
  split
  · exact frame_modPart _ _ _
  · exact MemFrame.refl m
end

/-! Accesses performed whole at the coherence point. -/

/-- What an access at a home leaves. -/
def Perf.mach {α : Type} : Perf α → Mach
  | .done _ m => m
  | .waits m => m

section
variable (m : Mach)

theorem frame_cohRead (l p : Nat) (a : Bool) : MemFrame m (m.cohRead l p a).mach := by
  have h (n : Mach) (k : MemFrame m n) : MemFrame m (n.homeFetch l p a).2 := k.trans (frame_homeFetch _ _ _ _)
  unfold Mach.cohRead
  dsimp only
  split
  · exact h m (MemFrame.refl m)
  · split
    · exact MemFrame.refl m
    · split
      · split
        · exact frame_askHost _ _ _
        · split
          · exact MemFrame.refl m
          · split
            · exact h _ (frame_takeBack _ _ _)
            · exact h _ (frame_snpOwner _ _ _ _)
        · exact h m (MemFrame.refl m)
      · exact h m (MemFrame.refl m)
theorem frame_discarded (l p n : Nat) : MemFrame m (m.discarded l p n) := frame_deferred _ _ _ _ _
theorem frame_writeHome (l p n : Nat) (d : LineData) (k : DWord) (b a : Bool) (s : Nat) : MemFrame m (m.writeHome l p n d k b a s) := by
  unfold Mach.writeHome
  dsimp only
  refine MemFrame.trans (b := (if m.mem.injectWrite == l + 1 then (m.modMem (fun a => { a with injectWrite := 0 })).modRas (fun r => { r with injGo := false }) else m)) ?_ ?_
  · split
    · rfl
    · exact MemFrame.refl m
  · generalize (if m.mem.injectWrite == l + 1 then (m.modMem (fun a => { a with injectWrite := 0 })).modRas (fun r => { r with injGo := false }) else m) = x
    generalize (b || (m.mem.injectWrite == l + 1)) = b
    split
    · split
      · exact (frame_homeStore _ _ _ _ _ _).trans ((frame_logWrite _ _).trans (frame_poisonEvent _ _ _))
      · exact (frame_homeStore _ _ _ _ _ _).trans (frame_logWrite _ _)
    · split
      · exact (frame_homeFetch _ _ _ _).trans (frame_discarded _ _ _ _)
      · split
        · exact (frame_homeFetch _ _ _ _).trans ((frame_homeStore _ _ _ _ _ _).trans ((frame_logWrite _ _).trans (frame_poisonEvent _ _ _)))
        · exact (frame_homeFetch _ _ _ _).trans ((frame_homeStore _ _ _ _ _ _).trans (frame_logWrite _ _))
theorem frame_writeWaits (l : Nat) (n : Mach) (h : m.writeWaits l = some n) : MemFrame m n := by
  unfold Mach.writeWaits at h
  split at h
  · cases h; exact MemFrame.refl m
  · split at h
    · cases h; exact frame_askHost _ _ _
    · split at h
      · cases h; exact MemFrame.refl m
      · cases h
theorem frame_cohWriteFrom (l p n : Nat) (d : LineData) (k : DWord) (b a : Bool) (s : Nat) :
    MemFrame m (m.cohWriteFrom l p n d k b a s).mach := by
  unfold Mach.cohWriteFrom
  split
  · rename_i h; exact frame_writeWaits _ _ _ h
  · exact (frame_takeBack _ _ _).trans (frame_writeHome _ _ _ _ _ _ _ _ _)
theorem frame_cohWrite (l p n : Nat) (d : LineData) (k : DWord) (b a : Bool) : MemFrame m (m.cohWrite l p n d k b a).mach :=
  frame_cohWriteFrom m l p n d k b a 4
theorem frame_atomHome (l p : Nat) (op : AtomOp) (fa : Nat → Nat → Nat) (o b v c : Nat) (bad : Bool) :
    MemFrame m (m.atomHome l p op fa o b v c bad).2 := by
  unfold Mach.atomHome
  split
  · exact MemFrame.refl m
  · dsimp only
    split
    · exact frame_homeFetch _ _ _ _
    · exact (frame_homeFetch _ _ _ _).trans ((frame_homeStore _ _ _ _ _ _).trans (frame_logWrite _ _))
theorem frame_cohAtom (l p : Nat) (op : AtomOp) (fa : Nat → Nat → Nat) (o b v c : Nat) (bad : Bool) :
    MemFrame m (m.cohAtom l p op fa o b v c bad).mach := by
  unfold Mach.cohAtom
  split
  · rename_i h; exact frame_writeWaits _ _ _ h
  · exact (frame_takeBack _ _ _).trans (frame_atomHome _ _ _ _ _ _ _ _ _ _)

/-! Remote-line caches. -/

theorem frame_noteMiss (r l p : Nat) : MemFrame m (m.noteMiss r l p) := by
  unfold Mach.noteMiss
  dsimp only
  split
  · rfl
  · split <;> rfl
theorem frame_rlcTouch (h l : Nat) (x : RlcLine) : MemFrame m (m.rlcTouch h l x) := by
  unfold Mach.rlcTouch
  dsimp only
  refine (frame_tickLru m).trans (MemFrame.trans ?_ (frame_modMem _ _))
  split
  · exact MemFrame.refl _
  · exact frame_account _ _ _ _
theorem frame_rlcStore (h l p n : Nat) (x : RlcLine) (d : LineData) (k : DWord) (b : Bool) :
    MemFrame m (m.rlcStore h l p n x d k b) := by
  unfold Mach.rlcStore
  dsimp only
  split
  · exact frame_discarded _ _ _ _
  · split
    · exact (frame_rlcTouch m h l x).trans ((frame_rlcSetLine _ _ _ _).trans ((frame_logWrite _ _).trans (frame_poisonEvent _ _ _)))
    · exact (frame_rlcTouch m h l x).trans ((frame_rlcSetLine _ _ _ _).trans (frame_logWrite _ _))
theorem frame_rlcEvict (r l : Nat) (x : RlcLine) : MemFrame m (m.rlcEvict r l x) := by
  unfold Mach.rlcEvict
  dsimp only
  split
  · exact (frame_rlcDrop _ _ _).trans ((frame_post _ _).trans (frame_modMem _ _))
  · exact frame_rlcDrop _ _ _
theorem frame_rlcFill (r l : Nat) (v : Nat × Option (Nat × RlcLine)) (st : RlcSt) (d : LineData × Bool) (ra : Nat) :
    MemFrame m (m.rlcFill r l v st d ra) := by
  unfold Mach.rlcFill
  dsimp only
  refine MemFrame.trans ?_ ((frame_tickLru _).trans (frame_rlcSetLine _ _ _ _))
  split
  · exact frame_rlcEvict _ _ _ _
  · exact MemFrame.refl m
theorem frame_rlcState (r l : Nat) (st : RlcSt) : MemFrame m (m.rlcState r l st) := by
  unfold Mach.rlcState
  split
  · exact frame_rlcSetLine _ _ _ _
  · exact MemFrame.refl m
theorem frame_grantRead (h l p : Nat) : MemFrame m (m.grantRead h l p).2.2 := by
  have home (e : DirEntry) : MemFrame m ((m.homeFetch l p true).2.dirPut l e) := (frame_homeFetch m l p true).trans (frame_dirPut _ _ _)
  unfold Mach.grantRead
  dsimp only
  split
  · split
    · exact (frame_rlcDrop _ _ _).trans (frame_dirPut _ _ _)
    · split
      · exact (frame_homeStore _ _ _ _ _ _).trans ((frame_rlcState _ _ _ _).trans (frame_dirPut _ _ _))
      · exact (frame_rlcState _ _ _ _).trans (frame_dirPut _ _ _)
  · exact home _
  · split
    · exact home _
    · split
      · exact home _
      · split
        · exact (frame_rlcState _ _ _ _).trans (frame_dirPut _ _ _)
        · exact home _
theorem frame_rlcRead (h l p : Nat) : MemFrame m (m.rlcRead h l p).mach := by
  unfold Mach.rlcRead
  split
  · exact frame_rlcTouch _ _ _ _
  · split
    · exact MemFrame.refl m
    · split
      · exact frame_askHost _ _ _
      · split
        · exact frame_evictEntry _ _
        · split
          · exact MemFrame.refl m
          · exact (frame_noteMiss m h l p).trans ((frame_grantRead _ _ _ _).trans (frame_rlcFill _ _ _ _ _ _ _))
theorem frame_lineRead (h : Option Nat) (l p : Nat) : MemFrame m (m.lineRead h l p).mach := by
  unfold Mach.lineRead
  split
  · split
    · exact frame_rlcRead _ _ _ _
    · exact frame_cohRead _ _ _ _
  · exact frame_cohRead _ _ _ _
theorem frame_lineWrite (h : Option Nat) (l p n : Nat) (d : LineData) (k : DWord) (a : Bool) : MemFrame m (m.lineWrite h l p n d k a).mach := by
  unfold Mach.lineWrite
  split
  · exact frame_rlcStore _ _ _ _ _ _ _ _ _
  · exact frame_cohWrite _ _ _ _ _ _ _ _
theorem frame_lineWaits (h : Option Nat) (l : Nat) (n : Mach) (e : m.lineWaits h l = some n) : MemFrame m n := by
  unfold Mach.lineWaits at e
  split at e
  · cases e
  · exact frame_writeWaits _ _ _ e

/-! Ranges. -/

/-- What a search for a first waiting line answers is framed where each line's answer is. -/
theorem frame_findSome {β : Type} (f : β → Option Mach) (h : ∀ b n, f b = some n → MemFrame m n) (l : List β) (n : Mach)
    (e : l.findSome? f = some n) : MemFrame m n := by
  obtain ⟨b, -, hb⟩ := List.exists_of_findSome?_eq_some e
  exact h b n hb

/-- A fold of accesses that go on where each is performed is framed. -/
theorem frame_perfFold {α β : Type} (f : Perf α → β → Perf α) (hw : ∀ m b, f (.waits m) b = .waits m)
    (hd : ∀ a m b, MemFrame m (f (.done a m) b).mach) (l : List β) (p : Perf α) : MemFrame p.mach (l.foldl f p).mach := by
  induction l generalizing p with
  | nil => exact MemFrame.refl _
  | cons b l ih =>
    cases p with
    | done a m => exact (hd a m b).trans (ih _)
    | waits m => rw [List.foldl_cons, hw]; exact ih (.waits m)

theorem frame_cohBytesFor (h : Option Nat) (num pa n p : Nat) : MemFrame m (m.cohBytesFor h num pa n p).mach := by
  unfold Mach.cohBytesFor
  dsimp only
  have h0 := frame_perfFold (fun (acc : Perf (List Byte × Bool)) line =>
    match acc with
    | .waits m => .waits m
    | .done (bs, po) m =>
      match m.lineRead h line p with
      | .done (d, q) m => .done (bs ++ lineBytes d, po || q) (if q && !po then m.deferred 0x11 line p num else m)
      | .waits m => .waits m) (fun _ _ => rfl) (by
        intro a m b
        have k := frame_lineRead m h b p
        dsimp only
        split
        · rename_i d q m' e
          rw [e] at k
          split
          · exact k.trans (frame_deferred _ _ _ _ _)
          · exact k
        · rename_i m' e
          rw [e] at k
          exact k) (linesOf pa n) (.done ([], false) m)
  generalize hg : List.foldl _ _ _ = go
  have h1 : MemFrame m go.mach := by rw [← hg]; exact h0
  cases go <;> exact h1
theorem frame_cohPutFor (h : Option Nat) (pa : Nat) (b : List Byte) (p n : Nat) (a : Bool) : MemFrame m (m.cohPutFor h pa b p n a).mach := by
  unfold Mach.cohPutFor
  split
  · rename_i e
    exact frame_findSome m _ (fun b n => frame_lineWaits m h b n) _ _ e
  · exact frame_perfFold _ (fun _ _ => rfl) (fun _ m b => frame_lineWrite _ _ _ _ _ _ _ _) (linesOf pa b.length) (.done () m)
theorem frame_ownerToF (l : Nat) : MemFrame m (m.ownerToF l) := by
  unfold Mach.ownerToF
  split
  · split
    · exact frame_snpOwner _ _ _ _
    · exact MemFrame.refl m
  · exact MemFrame.refl m
theorem frame_writeBackLine (l : Nat) (c : Bool) : MemFrame m (m.writeBackLine l c) := by
  unfold Mach.writeBackLine
  split
  · split
    · exact (frame_hbmWriteFor _ _ _ _ _).trans (frame_modMem _ _)
    · exact MemFrame.refl m
  · exact MemFrame.refl m
theorem frame_cohFlush (l : Nat) (c : Bool) : MemFrame m (m.cohFlush l c).mach := by
  unfold Mach.cohFlush
  split
  · exact MemFrame.refl m
  · split
    · exact frame_askHost _ _ _
    · exact (frame_ownerToF m l).trans (frame_writeBackLine _ _ _)
theorem frame_flushPa (pa n : Nat) (c : Bool) : MemFrame m (m.flushPa pa n c).mach := by
  unfold Mach.flushPa
  exact frame_perfFold _ (fun _ _ => rfl) (fun _ m b => frame_cohFlush m b c) _ (.done () m)
theorem frame_askCache (h p : Nat) (o : Bool) : MemFrame m (m.askCache h p o) := by
  unfold Mach.askCache
  split <;> rfl
theorem frame_hostWaits (p : Nat) (o : Bool) (h : Nat) (n : Mach) (e : m.hostWaits p o h = some n) : MemFrame m n := by
  unfold Mach.hostWaits at e
  split at e
  · cases e; exact MemFrame.refl m
  · split at e
    · split at e
      · cases e; exact frame_askCache _ _ _ _
      · cases e
    · cases e; exact frame_askCache _ _ _ _
theorem frame_hostLine (h p : Nat) (o : Bool) : MemFrame m (m.hostLine h p o).mach := by
  unfold Mach.hostLine
  split
  · rename_i e; exact frame_hostWaits _ _ _ _ _ e
  · exact frame_sliceTouch _ _ _ _
  · exact MemFrame.refl m
theorem frame_hostLinePut (h : Nat) (d : LineData) (p : Bool) : MemFrame m (m.hostLinePut h d p) := by
  unfold Mach.hostLinePut
  split <;> rfl
theorem frame_hostPoison (h p n : Nat) : MemFrame m (m.hostPoison h p n) := by
  unfold Mach.hostPoison
  dsimp only
  split
  · exact (frame_logDev m _).trans (frame_raisePf _ _)
  · exact (frame_logDev m _).trans (frame_logPart _ _ _)
theorem frame_hostRead (k h n p : Nat) : MemFrame m (m.hostRead k h n p).mach := by
  unfold Mach.hostRead
  split
  · exact MemFrame.refl m
  split
  · dsimp only
    have h0 := frame_perfFold (fun (acc : Perf (List Byte × Bool)) hl =>
      match acc with
      | .waits m => .waits m
      | .done (bs, po) m =>
        match m.hostLine hl p false with
        | .done (d, q) m => .done (bs ++ lineBytes d, po || q) m
        | .waits m => .waits m) (fun _ _ => rfl) (by
          intro a m b
          have h := frame_hostLine m b p false
          dsimp only
          split
          · rename_i d q m' e
            rw [e] at h
            exact h
          · rename_i m' e
            rw [e] at h
            exact h) (linesOf h n) (.done ([], false) m)
    generalize hg : List.foldl _ _ _ = go
    have h1 : MemFrame m go.mach := by rw [← hg]; exact h0
    cases go <;> exact h1
  · exact (frame_emit m _).trans ((frame_bumpFree _).trans ((frame_account _ _ _ _).trans (frame_spend _ _ _ _ _)))
theorem frame_hostWrite (k h : Nat) (b : List Byte) (p : Nat) : MemFrame m (m.hostWrite k h b p).mach := by
  unfold Mach.hostWrite
  split
  · rename_i e
    unfold Mach.hostPutWaits at e
    split at e
    · exact frame_findSome m _ (fun b n => frame_hostWaits m p true b n) _ _ e
    · cases e
  split
  · exact MemFrame.refl m
  split
  · refine frame_perfFold _ (fun _ _ => rfl) ?_ _ (.done () m)
    intro _ m b
    dsimp only
    split
    · rename_i d q m' e
      have h := frame_hostLine m b p true
      rw [e] at h
      have h' : MemFrame m m' := h
      repeat' split
      all_goals first
        | exact h'
        | exact h'.trans (frame_hostLinePut _ _ _ _)
    · rename_i m' e
      have h := frame_hostLine m b p true
      rw [e] at h
      exact h
  · exact (frame_emit m _).trans ((frame_account _ _ _ _).trans (frame_spend _ _ _ _ _))
theorem frame_askAts (s p : Nat) : MemFrame m (m.askAts s p) := by
  unfold Mach.askAts
  split
  · exact MemFrame.refl m
  · rfl
end

end Sys2Proof.Machine
end

