-- ==== Sys2Proof/Laws/Run.lean ====
section
/-! SUPPORT. Laws/Run.lean: what running a meaning over the device says. -/

namespace Sys2Proof.Machine

/-- A meaning run over the device answers a next state exactly where it answers a next device. -/
theorem State.run_next (s t : State) (f : Mach → Res) : s.run f = .next t ↔ ∃ m, f s.m = .next m ∧ t = { s with m := m } := by
  unfold State.run
  cases f s.m with
  | next m => simp [eq_comm]
  | fault r => simp
  | refused r => simp

/-- A meaning that answers a next device. -/
@[simp] theorem State.run_of_next (s : State) (f : Mach → Res) (m : Mach) (h : f s.m = .next m) : s.run f = .next { s with m := m } :=
  (State.run_next s _ f).mpr ⟨m, h, rfl⟩

/-- No meaning touches the queue. -/
theorem State.run_pending (s t : State) (f : Mach → Res) (h : s.run f = .next t) : t.pending = s.pending := by
  obtain ⟨m, -, rfl⟩ := (State.run_next s t f).mp h
  rfl

/-- An event that is due has its effect. -/
@[simp] theorem gate_due (m t : Mach) : gate m true t = .next t := rfl

/-- An event that is not due leaves the device as it is. -/
@[simp] theorem gate_idle (m t : Mach) : gate m false t = .next m := rfl

/-- What a meaning does to the device does not depend on the queue. -/
theorem State.run_queue (m : Mach) (q r : List Instr) (t : State) (f : Mach → Res) (h : State.run ⟨m, q⟩ f = .next t) :
    State.run ⟨m, r⟩ f = .next ⟨t.m, r⟩ := by
  obtain ⟨m', hm, rfl⟩ := (State.run_next _ t f).mp h
  exact (State.run_next _ _ f).mpr ⟨m', hm, rfl⟩

end Sys2Proof.Machine
end

