-- ==== Sys2Proof/Laws/Issue.lean ====
section
/-! SUPPORT. Laws/Issue.lean: everything that issuing a core instruction can do, once: what the instruction finds, and the next state. -/

namespace Sys2Proof.Machine

@[simp] theorem Mach.noteIssue_grp (m : Mach) (c g : Nat) : (m.noteIssue c).grp g = m.grp g := rfl

@[simp] theorem Mach.noteIssue_krn (m : Mach) (c k : Nat) : (m.noteIssue c).krn k = m.krn k := rfl

/-- What noting an issue leaves of the device: all but the cores. -/
theorem Mach.noteIssue_eq (m : Mach) (c : Nat) : m.noteIssue c = { m with cores := (m.noteIssue c).cores } := rfl

/-- The cores after an issue is noted. -/
theorem Mach.core_noteIssue (m : Mach) (c d : Nat) :
    (m.noteIssue c).core d = if d = c then { m.core c with issueTide := m.coreTide c } else m.core d :=
  Mach.core_modCore _ _ _ _

/-- The cores of an instruction that touches none but notes its issue. -/
theorem Mach.noteIssue_coreFrame (m : Mach) (g : Nat) : CoreFrame g m (m.noteIssue (coreOf g)) :=
  ⟨fun c hc => by rw [Mach.core_noteIssue]; simp [hc], by rw [Mach.core_noteIssue]; simp⟩

/-- An instruction that can issue, and whose registers are free unless its guard is false in every lane, issues: the next state is
what it does to the device, with the issue noted. -/
theorem issue_runs (g : Nat) (i : Instr) (rs : List Nat) (wide : Bool) (pi : BitVec 3) (pn : Bool) (eff : Mach → Word → Eff) (s : State)
    (h : CanIssue g i s.m) (hr : s.m.guards g pi pn = 0 ∨ s.m.regsFree g rs = true) :
    issue g i rs wide pi pn eff s =
      .next { s with m := (s.m.commit g (guarded s.m g i wide (pi == 0 && pn) (s.m.guards g pi pn) eff)).noteIssue (coreOf g) } := by
  obtain ⟨hg, hw, hrun, hk, hf⟩ := h
  have hg' : ¬ 49152 ≤ g := by omega
  have hgo : (s.m.guards g pi pn != 0 && !s.m.regsFree g rs) = false := by
    rcases hr with h0 | h0 <;> simp [h0]
  refine State.run_of_next _ _ _ ?_
  simp only [hg', if_false, hw, hrun, hk, hf, hgo, Bool.not_true, Bool.false_eq_true]

/-- The same instruction where its line is not in the instruction cache and its home gives it (R210): the line enters the cache, and nothing
else than the read of it takes place. -/
theorem issue_fills (g : Nat) (i : Instr) (rs : List Nat) (wide : Bool) (pi : BitVec 3) (pn : Bool) (eff : Mach → Word → Eff) (s : State)
    (hg : g < 49152) (hw : i.wf = true) (hr : s.m.runnable g = true) (hk : kernelAllows (s.m.krn (s.m.krnOf g)).desc i = true)
    {line : Nat} {d : LineData} {m' : Mach} (hf : s.m.fetch g = .fill line d m') :
    issue g i rs wide pi pn eff s = .next { s with m := m'.fillIcache (coreOf g) line d } := by
  have hg' : ¬ 49152 ≤ g := by omega
  refine State.run_of_next _ _ _ ?_
  simp only [hg', if_false, hw, hr, hk, hf, Bool.not_true, Bool.false_eq_true]

end Sys2Proof.Machine
end

