-- ==== Sys2Proof/Laws/Memory.lean ====
section
/-! SUPPORT. Laws/Memory.lean: every memory operation keeps the canonical form of the device's memories, and reset has it. -/

namespace Sys2Proof.Machine

section
variable {α : Type} [DecidableEq α]

/-- Leaving entries out keeps the canonical form. -/
theorem twfFrom_filter (d : α) (f : Nat × α → Bool) (t : Tbl α) (n : Nat) (h : twfFrom d n t = true) : twfFrom d n (t.filter f) = true := by
  induction t generalizing n with
  | nil => rfl
  | cons e t ih =>
    simp only [twfFrom, Bool.and_eq_true, decide_eq_true_eq] at h
    have k := ih (e.1 + 1) h.2
    cases hf : f e with
    | true => simp [List.filter, hf, twfFrom, h.1, k]
    | false => simpa [List.filter, hf] using twfFrom_mono d _ _ n k (by omega)

theorem twf_filter (d : α) (f : Nat × α → Bool) (t : Tbl α) (h : twf d t = true) : twf d (t.filter f) = true := twfFrom_filter d f t 0 h

/-- What a written table lists is what it listed before, or the written entry. -/
theorem mem_tput (d : α) (t : Tbl α) (i : Nat) (v : α) (e : Nat × α) (h : e ∈ tput d t i v) : e ∈ t ∨ e = (i, v) := by
  have place : ∀ u : Tbl α, e ∈ tplace u i v → e ∈ u ∨ e = (i, v) := by
    intro u
    induction u with
    | nil => simp [tplace]
    | cons x u ih =>
      simp only [tplace]
      split
      · simp only [List.mem_cons]; rintro (h | h | h) <;> simp [h]
      · simp only [List.mem_cons]
        rintro (h | h)
        · simp [h]
        · rcases ih h with h | h <;> simp [h]
  unfold tput at h
  split at h
  · exact .inl (List.mem_filter.mp h).1
  · rcases place _ h with h | h
    · exact .inl (List.mem_filter.mp h).1
    · exact .inr h

end

/-- A key reads as a listed value or as the default. -/
theorem tget_listed {α : Type} (d : α) (t : Tbl α) (i : Nat) : tget d t i = d ∨ ∃ k, (k, tget d t i) ∈ t := by
  induction t with
  | nil => exact .inl rfl
  | cons e t ih =>
    obtain ⟨k, v⟩ := e
    by_cases h : i = k
    · exact .inr ⟨k, by simp [tget, h]⟩
    · rcases ih with h' | ⟨j, h'⟩
      · exact .inl (by simp [tget, h, h'])
      · exact .inr ⟨j, by simp [tget, h, h']⟩

/-- Writing bytes keeps the canonical form. -/
theorem twf_putBytes (t : Tbl Byte) (a : Nat) (l : List Byte) (h : twf 0 t = true) : twf 0 (putBytes t a l) = true := by
  induction l generalizing t a with
  | nil => exact h
  | cons b l ih => exact ih _ _ (twf_tput 0 t a b h)

variable (m : Mach)

/-- The canonical form, memory by memory. -/
theorem memory_wf_iff : Memory.wf m = true ↔ twf 0 m.mem.hbm = true ∧ twf 0 m.moon.sram = true ∧ ∀ e ∈ m.cores, twf 0 e.2.loc = true := by
  simp [Memory.wf, and_assoc]

/-- A core's local memory is canonical. -/
theorem Memory.wf_core (h : Memory.wf m = true) (c : Nat) : twf 0 (m.core c).loc = true := by
  rcases tget_listed Core.reset m.cores c with k | ⟨j, k⟩
  · show twf 0 (tget Core.reset m.cores c).loc = true
    rw [k]; rfl
  · exact ((memory_wf_iff m).mp h).2.2 _ k

/-- A change that leaves the three kinds of memory alone keeps the form. -/
theorem memory_wf_same (t : Mach) (h : Memory.wf m = true) (a : t.mem.hbm = m.mem.hbm) (b : t.moon.sram = m.moon.sram) (c : t.cores = m.cores) :
    Memory.wf t = true := by simpa [Memory.wf, a, b, c] using h

/-- A change of a core that keeps its local memory canonical keeps the form. -/
theorem memory_wf_modCore (c : Nat) (f : Core → Core) (h : Memory.wf m = true) (hf : twf 0 (m.core c).loc = true → twf 0 (f (m.core c)).loc = true) :
    Memory.wf (m.modCore c f) = true := by
  have k := (memory_wf_iff m).mp h
  refine (memory_wf_iff _).mpr ⟨k.1, k.2.1, fun e he => ?_⟩
  rcases mem_tput _ _ _ _ _ he with he | he
  · exact k.2.2 e he
  · rw [he]; exact hf (Memory.wf_core m h c)

/-- A store of bytes to a core's local memory keeps the form. -/
theorem memory_wf_putLocal (c a : Nat) (l : List Byte) (h : Memory.wf m = true) :
    Memory.wf (m.modCore c (fun x => { x with loc := putBytes x.loc a l })) = true :=
  memory_wf_modCore m c _ h (twf_putBytes _ _ _)

/-- A change of the memory system that keeps HBM canonical keeps the form. -/
theorem memory_wf_modMem (f : Mem → Mem) (h : Memory.wf m = true) (hf : twf 0 m.mem.hbm = true → twf 0 (f m.mem).hbm = true) :
    Memory.wf (m.modMem f) = true := by
  have k := (memory_wf_iff m).mp h
  exact (memory_wf_iff _).mpr ⟨hf k.1, k.2⟩

/-- The count of free values is no memory. -/
theorem memory_wf_bumpFree (h : Memory.wf m = true) : Memory.wf m.bumpFree = true := memory_wf_same m _ h rfl rfl rfl

/-- A partition's accounts are no memory. -/
theorem memory_wf_account (p i n : Nat) (h : Memory.wf m = true) : Memory.wf (m.account p i n) = true := by
  unfold Mach.account; split
  · exact h
  · exact memory_wf_same m _ h rfl rfl rfl

/-- A partition's buckets are no memory. -/
theorem memory_wf_spend (p r a n : Nat) (h : Memory.wf m = true) : Memory.wf (m.spend p r a n) = true := by
  unfold Mach.spend; dsimp only; split
  · exact h
  · exact memory_wf_same m _ h rfl rfl rfl

/-- A write of a line to HBM keeps the form. -/
theorem memory_wf_hbmWrite (line : Nat) (d : LineData) (poison : Bool) (h : Memory.wf m = true) : Memory.wf (m.hbmWrite line d poison) = true :=
  memory_wf_spend _ _ _ _ _ (memory_wf_account _ _ _ _ (memory_wf_modMem m _ h (twf_putBytes _ _ _)))

/-- Initialising HBM keeps the form. -/
theorem memory_wf_initHbm (h : Memory.wf m = true) : Memory.wf m.initHbm = true := memory_wf_modMem m _ h (twf_filter _ _ _)

/-- The push of a Moon core's exception frame keeps the form. -/
theorem memory_wf_moonException (c : Nat) (cause addr : DWord) (w : Bool) (h : Memory.wf m = true) : Memory.wf (m.moonException c cause addr w) = true := by
  have k := (memory_wf_iff m).mp h
  unfold Mach.moonException
  dsimp only
  split
  · exact memory_wf_same m _ h rfl rfl rfl
  · split
    · exact (memory_wf_iff _).mpr ⟨k.1, twf_putBytes _ _ _ k.2.1, k.2.2⟩
    · exact memory_wf_same m _ h rfl rfl rfl

/-- A tensor instruction keeps a local memory canonical. -/
theorem twf_runTensor (t : TOp) (c : Core) (h : twf 0 c.loc = true) : twf 0 (m.runTensor t c).loc = true := by
  unfold Mach.runTensor
  dsimp only
  split
  · exact h
  · exact h
  · exact h
  · exact twf_putBytes _ _ _ h

/-- A mixture of two tables is canonical where the old one is. -/
theorem twf_tmix {α : Type} [DecidableEq α] (d : α) (pick : Nat → Bool) (old new : Tbl α) (h : twf d old = true) :
    twf d (tmix d pick old new) = true := by
  unfold tmix
  generalize (tkeys new ++ tkeys old) = l
  induction l generalizing old with
  | nil => exact h
  | cons i l ih =>
    simp only [List.foldl_cons]
    split
    · exact ih _ (twf_tput d old i _ h)
    · exact ih _ h

/-- A core's local memory after the engine is stopped stays canonical. -/
theorem memory_wf_stopTensor (core : Nat) (hit : TOp → Bool) (h : Memory.wf m = true) : Memory.wf (m.stopTensor core hit) = true := by
  unfold Mach.stopTensor
  dsimp only
  refine memory_wf_modCore _ _ _ ?_ id
  split
  · split
    · exact memory_wf_bumpFree _ (memory_wf_modCore m core _ h (twf_tmix 0 _ _ _))
    · exact h
  · exact h

/-- Every memory is canonical at reset. -/
theorem memory_wf_reset : Memory.wf State.reset.m = true := rfl

end Sys2Proof.Machine
end

