-- ==== Sys2Proof/Laws/Registers.lean ====
section
/-! SUPPORT. Laws/Registers.lean: reading a group's registers after writing them, and what the register writes leave alone. -/

namespace Sys2Proof.Machine

/-- A change of one group, its launch facts apart: what registers are read through. -/
theorem Mach.allot_modGrp (m : Mach) (g : Nat) (f : Group → Group) (h : (f (m.grp g)).block = (m.grp g).block) :
    (m.modGrp g f).allot g = m.allot g := by
  simp [Mach.allot, Mach.krnOf, Mach.blk, Mach.krn, h]

@[simp] theorem Mach.allot_vPut (m : Mach) (g r l x : Nat) : (m.vPut g r l x).allot g = m.allot g := by
  unfold Mach.vPut
  split
  · exact Mach.allot_modGrp m g _ rfl
  · rfl

/-- Writing a v-register of a lane changes that register of that lane, and no other (R77). -/
theorem Mach.vGet_vPut (m : Mach) (g r l x r' l' : Nat) (hl : l < 32) (hl' : l' < 32) :
    (m.vPut g r l x).vGet g r' l' = if r' < m.allot g ∧ r' = r ∧ l' = l then x % 2 ^ 32 else m.vGet g r' l' := by
  unfold Mach.vGet
  rw [Mach.allot_vPut]
  by_cases hr' : r' < m.allot g
  · simp only [hr', if_true, true_and]
    unfold Mach.vPut
    split
    · simp only [Mach.grp_modGrp_same, tget_tput]
      by_cases hk : 32 * r' + l' = 32 * r + l
      · have h1 : r' = r := by omega
        have h2 : l' = l := by omega
        simp [h1, h2]
      · have h1 : ¬ (r' = r ∧ l' = l) := by omega
        simp [hk, h1]
    · have h1 : ¬ (r' = r ∧ l' = l) := by omega
      simp [h1]
  · simp [hr']

/-- Group `g` after a write to one of its v-registers: only the v-registers differ. -/
theorem Mach.grp_vPut (m : Mach) (g r l x : Nat) : (m.vPut g r l x).grp g = { m.grp g with v := ((m.vPut g r l x).grp g).v } := by
  unfold Mach.vPut
  split <;> simp

/-- A write to a v-register touches no other group and nothing else of the device. -/
theorem Mach.vPut_frame (m : Mach) (g r l x : Nat) :
    m.vPut g r l x = { m with groups := (m.vPut g r l x).groups } ∧ ∀ h, h ≠ g → (m.vPut g r l x).grp h = m.grp h := by
  unfold Mach.vPut
  split
  · exact ⟨rfl, fun h hh => by simp [Mach.grp_modGrp, hh]⟩
  · exact ⟨rfl, fun _ _ => rfl⟩

/-- Reading a u-register after a write to one. -/
theorem Mach.uGet_uPut (m : Mach) (g r x r' : Nat) : (m.uPut g r x).uGet g r' = if r' % 64 = r % 64 then x % 2 ^ 32 else m.uGet g r' := by
  unfold Mach.uGet Mach.uPut
  simp only [Mach.grp_modGrp_same, tget_tput]
  split <;> simp

/-- Reading a predicate after a write to one (R110). -/
theorem Mach.pGet_pPut (m : Mach) (g p q : Nat) (w : Word) :
    (m.pPut g p w).pGet g q = if q = 0 then 0xFFFFFFFF else if q = p then w else m.pGet g q := by
  unfold Mach.pGet Mach.pPut
  by_cases hq : q = 0
  · simp [hq]
  · simp only [hq, if_false]
    by_cases hp : p = 0
    · have : q ≠ p := by omega
      simp [hp, hq]
    · simp only [hp, if_false, Mach.grp_modGrp_same, tget_tput]

/-- The lanes of a mask are below 32, each once. -/
theorem mem_lanesOf (w : Word) (l : Nat) : l ∈ lanesOf w ↔ l < 32 ∧ w.getLsbD l = true := by simp [lanesOf]

theorem lanesOf_nodup (w : Word) : (lanesOf w).Nodup := List.nodup_range.filter _

/-- What register `r` of a lane reads as once the result `x` has been written to `vd`. -/
def resultAt (vd : Nat) (wide : Bool) (x r old : Nat) : Nat :=
  if wide = true ∧ r = vd + 1 then x / 2 ^ 32 % 2 ^ 32 else if r = vd then x % 2 ^ 32 else old

@[simp] theorem Mach.allot_vResult (m : Mach) (g vd l : Nat) (wide : Bool) (x : Nat) : (m.vResult g vd l wide x).allot g = m.allot g := by
  unfold Mach.vResult
  cases wide <;> simp

/-- Reading a v-register after a 32- or 64-bit result. -/
theorem Mach.vGet_vResult (m : Mach) (g vd l : Nat) (wide : Bool) (x r l' : Nat) (hl : l < 32) (hl' : l' < 32) :
    (m.vResult g vd l wide x).vGet g r l' = if r < m.allot g ∧ l' = l then resultAt vd wide x r (m.vGet g r l') else m.vGet g r l' := by
  unfold Mach.vResult resultAt
  cases wide
  · simp only [Bool.false_eq_true, if_false, false_and]
    rw [Mach.vGet_vPut m g vd l x r l' hl hl']
    by_cases h1 : r < m.allot g <;> by_cases h2 : l' = l <;> by_cases h3 : r = vd <;> simp [h1, h2, h3]
  · simp only [if_true, true_and]
    rw [Mach.vGet_vPut _ g (vd + 1) l _ r l' hl hl', Mach.vGet_vPut m g vd l x r l' hl hl', Mach.allot_vPut]
    by_cases h1 : r < m.allot g <;> by_cases h2 : l' = l <;> by_cases h3 : r = vd + 1 <;> simp [h1, h2, h3]

/-- A 32- or 64-bit result touches no other group and nothing else of the device, and of its group the v-registers alone. -/
theorem Mach.vResult_frame (m : Mach) (g vd l : Nat) (wide : Bool) (x : Nat) :
    m.vResult g vd l wide x = { m with groups := (m.vResult g vd l wide x).groups } ∧
      (∀ h, h ≠ g → (m.vResult g vd l wide x).grp h = m.grp h) ∧
      (m.vResult g vd l wide x).grp g = { m.grp g with v := ((m.vResult g vd l wide x).grp g).v } := by
  have h1 := Mach.vPut_frame m g vd l x
  have e1 := Mach.grp_vPut m g vd l x
  unfold Mach.vResult
  cases wide
  · exact ⟨h1.1, h1.2, e1⟩
  · have h2 := Mach.vPut_frame (m.vPut g vd l x) g (vd + 1) l (x / 2 ^ 32)
    have e2 := Mach.grp_vPut (m.vPut g vd l x) g (vd + 1) l (x / 2 ^ 32)
    simp only [if_true]
    refine ⟨?_, fun h hh => (h2.2 h hh).trans (h1.2 h hh), ?_⟩
    · rw [h2.1, h1.1]
    · rw [e2, e1]

/-- Results written lane by lane. -/
theorem Mach.vGet_results (g vd : Nat) (wide : Bool) (res : Nat → Nat) (ls : List Nat) (m : Mach) (r l' : Nat) (hls : ∀ l ∈ ls, l < 32)
    (hn : ls.Nodup) (hl' : l' < 32) :
    ((ls.map (fun l => (l, res l))).foldl (fun m e => m.vResult g vd e.1 wide e.2) m).vGet g r l' =
      if r < m.allot g ∧ l' ∈ ls then resultAt vd wide (res l') r (m.vGet g r l') else m.vGet g r l' := by
  induction ls generalizing m with
  | nil => simp
  | cons a ls ih =>
    have ha : a < 32 := hls a (by simp)
    have hn' := List.nodup_cons.mp hn
    simp only [List.map_cons, List.foldl_cons]
    rw [ih _ (fun l hl => hls l (by simp [hl])) hn'.2, Mach.allot_vResult, Mach.vGet_vResult m g vd a wide _ r l' ha hl']
    by_cases h1 : r < m.allot g <;> by_cases h2 : l' = a
    · subst h2; simp [h1, hn'.1]
    · simp [h1, h2]
    · simp [h1]
    · simp [h1]

/-- The frame of results written lane by lane. -/
theorem Mach.results_frame (g vd : Nat) (wide : Bool) (ls : List (Nat × Nat)) (m : Mach) :
    let t := ls.foldl (fun (m : Mach) e => m.vResult g vd e.1 wide e.2) m
    t = { m with groups := t.groups } ∧ (∀ h, h ≠ g → t.grp h = m.grp h) ∧ t.grp g = { m.grp g with v := (t.grp g).v } := by
  induction ls generalizing m with
  | nil => exact ⟨rfl, fun _ _ => rfl, rfl⟩
  | cons a ls ih =>
    have h1 := Mach.vResult_frame m g vd a.1 wide a.2
    have h2 := ih (m.vResult g vd a.1 wide a.2)
    simp only [List.foldl_cons]
    refine ⟨?_, fun h hh => (h2.2.1 h hh).trans (h1.2.1 h hh), ?_⟩
    · rw [h2.1, h1.1]
    · rw [h2.2.2, h1.2.2]

end Sys2Proof.Machine
end

