-- ==== Sys2Proof/Tests/Slice0.lean ====
section
/-! SUPPORT. Tests/Slice0.lean: the model's own tests.  `test_wf_…` hand an ill-formed word to each check, `test_decode_…` decode words
written out from Tables 05.1 to 05.7, `test_witness_<X>` show concrete states and operands that meet the hypotheses of `Obligations.<X>`,
clause by clause. -/

open Sys2Proof Sys2Proof.Machine Sys2Proof.Claims

namespace Sys2Proof.Tests

set_option Elab.async false

/-- A function with Memory Space Enable, and a link that is up with one VF enabled. -/
def enabled : FnState := { FnState.reset with mse := true }
def hostUp : HLink := { HLink.reset with up := true, cfgReady := true, rate := 128, width := 16, perst := false, vfEnable := true, numVfs := 1 }

/-- A device that serves commands, with partition 1 (one unit, cluster 0), launch 1 resident on core 0 with block 0 and group 0. -/
def base : Mach :=
  { Mach.reset with
    start := { Start.reset with phase := .ready }
    moon := { Moon.reset with ready := true }
    host := { HostSt.reset with fns := [(0, enabled), (5, enabled)], links := [(0, hostUp)] }
    mem := { Mem.reset with units := [(0, ⟨.part 1, false, false⟩)] }
    parts := [(1, { Part.reset with
      st := .running, ways := 0xFFFF, granules := 1, clusters := 1, msix := 8, keyed := true,
      maps := [{ va := 0, len := 65536, target := 0, tgt := 0, access := 1, ownerOrd := false, large := false, stopped := false, aperture := 0 }] })]
    krns := [(1, { Krn.reset with
      live := true, part := 1, num := 7, clusters := 1, total := 1, next := 1, banks := [(0, 1)], recv := [(0, 65)]
      desc := { KernelDesc.reset with length := 16, n := 16, g := 1, usesAcc := true, localBytes := 65536, recvBytes := 4096, blocks := 1, counters := 0x1E }})]
    clusters := [(0, { Cluster.reset with owner := 1, live := 0xFFFF, bank0 := 2 })]
    blocks := [(0, { Block.reset with live := true, krn := 1, granules := 64, usesAcc := true })]
    groups := [(0, { Group.reset with live := true })]
    cores := [(0, { Core.reset with icache := [(0, 0)] })] }

def at_ (m : Mach) : State := { m := m, pending := [] }

def fa : FmtA := { pi := 0, pn := false, vd := 2, vs1 := 4, vs2 := 6, vs3 := 8, dk := false, sk := false, pd := 1, ty := .s32, rnd := .nearest }
def fb : FmtB := { pi := 0, pn := false, vd := 2, vs1 := 0, uk := false, imm := 5 }
def fm : FmtM := { pi := 0, pn := false, vds := 4, ub := 2, vo := 0, novo := true, size := 2, space := .global, ord := .plain, eve := true, ec := 1, lc := false, disp := 0 }
def ft : FmtT := { pi := 0, pn := false, acc := 0, abase := 0, bbase := 0, afmt := .mxfp4, bfmt := .mxfp4, shape := 0, accz := false, opt := 0 }
def fc : FmtC := { pi := 0, pn := false, ck := .always, cp := 0, cu := 0, cmp := .eqz, tgt := 1 }
def fs : FmtS := { pi := 0, pn := false, ua := 2, ub := 4, vx := 2, ec := 1, pd := 1, eve := true, cons := false, dle := false, lc := false, scope := .device, imm := 3 }

/-- The base device with group 0 changed. -/
def withGrp (f : Group → Group) : Mach := base.modGrp 0 f

theorem can {g : Nat} {i : Instr} {m : Mach} (hf : m.fetch g = .hit)
    (h : (decide (g < 49152) && i.wf && m.runnable g && kernelAllows (m.krn (m.krnOf g)).desc i) = true) : CanIssue g i m := by
  simp only [Bool.and_eq_true, decide_eq_true_eq] at h
  exact ⟨h.1.1.1, h.1.1.2, h.1.2, h.2, hf⟩

theorem guard_base (wide : Bool) : GuardOpen 0 0 false wide base := ⟨by decide, fun _ => by decide⟩

theorem draw_base (rnd : Rnd) : CanDraw 0 rnd base := fun _ => by decide

theorem alu_ready (e : AluRow) (f : FmtA)
    (h : ((e.ctor 0 f).wf && kernelAllows (base.krn 1).desc (e.ctor 0 f) && base.regsFree 0 (e.regs f) && f.pi == 0 && !f.pn) = true) :
    ∃ f, CanIssue 0 (e.ctor 0 f) base ∧ base.regsFree 0 (e.regs f) = true ∧ GuardOpen 0 f.pi f.pn f.dk base ∧ CanDraw 0 f.rnd base := by
  simp only [Bool.and_eq_true, beq_iff_eq, Bool.not_eq_true'] at h
  obtain ⟨⟨⟨⟨h1, h2⟩, h3⟩, h4⟩, h5⟩ := h
  refine ⟨f, ⟨by decide, h1, by decide, h2, rfl⟩, h3, ?_, draw_base _⟩
  rw [h4, h5]; exact guard_base _

theorem test_witness_AluResults : ∀ e ∈ aluRows, ∃ f,
    CanIssue 0 (e.ctor 0 f) base ∧ base.regsFree 0 (e.regs f) = true ∧ GuardOpen 0 f.pi f.pn f.dk base ∧ CanDraw 0 f.rnd base := by
  intro e he
  let fx : Ty → FmtA := fun t => { fa with ty := t, vs2 := if t = .s8x4 then 6 else 0, vs3 := 0 }
  simp only [aluRows, List.mem_cons, List.not_mem_nil, or_false] at he
  rcases he with rfl | rfl | rfl | rfl | rfl | rfl | rfl | rfl | rfl | rfl | rfl | rfl | rfl | rfl | rfl | rfl | rfl | rfl | rfl | rfl | rfl |
    rfl | rfl | rfl | rfl | rfl | rfl | rfl | rfl | rfl | rfl <;>
  first
    | exact alu_ready _ (fx .s32) (by decide)
    | exact alu_ready _ (fx .f32) (by decide)
    | exact alu_ready _ (fx .s8x4) (by decide)

theorem test_witness_ComparesAndReductions :
    (CanIssue 0 (.ballot 0 { fa with ty := .b32 }) base ∧ CanIssue 0 (.redadd 0 fa) base ∧ CanIssue 0 (.redmax 0 fa) base ∧
      base.regsFree 0 [fa.vs1.toNat] = true ∧ GuardOpen 0 0 false true base ∧ ∀ r, CanDraw 0 r base) ∧
    (∀ e ∈ cmpRows, CanIssue 0 (e.1 0 fa) base) ∧ ∀ c, CanIssue 0 (.cmpFImmediate 0 c fb) base ∧ CanIssue 0 (.cmpIntImmediate 0 c fb) base := by
  refine ⟨⟨can rfl (by decide), can rfl (by decide), can rfl (by decide), by decide, guard_base _, draw_base⟩, ?_, fun c => ?_⟩
  · simp only [cmpRows, List.forall_mem_cons]
    exact ⟨can rfl (by decide), can rfl (by decide), can rfl (by decide), can rfl (by decide), can rfl (by decide), can rfl (by decide), by simp⟩
  · exact ⟨can rfl (by cases c <;> decide), can rfl (by cases c <;> decide)⟩

theorem test_witness_ImmediateForms : (∀ o, CanIssue 0 (.immediateAluForm 0 o fb) base) ∧ CanIssue 0 (.movi 0 fb) base ∧
    base.regsFree 0 (bRegs fb) = true ∧ base.regsFree 0 [fb.vd.toNat] = true ∧ GuardOpen 0 0 false fb.uk base :=
  ⟨fun o => can rfl (by cases o <;> decide), can rfl (by decide), by decide, by decide, guard_base _⟩

theorem test_witness_JumpsAndExit :
    (∀ e ∈ jumpRows, CanIssue 0 (e.1 0 fc) base ∧ branchTaken 0 fc base ∧ inKernel 0 (e.2 fc base 0) base) ∧
    (∀ e ∈ jumpRows, CanIssue 0 (e.1 0 { fc with ck := .any, cp := 1 }) base) ∧ ¬ branchTaken 0 { fc with ck := .any, cp := 1 } base ∧
    CanIssue 0 (.nop 0 fc) base ∧ CanIssue 0 (.exit 0 fc) base ∧ GuardOpen 0 0 false true base := by
  refine ⟨?_, ?_, ?_, can rfl (by decide), can rfl (by decide), guard_base _⟩
  · simp only [jumpRows, List.forall_mem_cons]
    exact ⟨⟨can rfl (by decide), trivial, by decide, by decide⟩, ⟨can rfl (by decide), trivial, by decide, by decide⟩, ⟨can rfl (by decide), trivial, by decide, by decide⟩,
      ⟨can rfl (by decide), trivial, by decide, by decide⟩, by simp⟩
  · simp only [jumpRows, List.forall_mem_cons]
    exact ⟨can rfl (by decide), can rfl (by decide), can rfl (by decide), can rfl (by decide), by simp⟩
  · rintro ⟨l, _, h⟩
    rw [show base.pGet 0 _ = 0 by decide] at h
    simp at h

/-- The base device whose core 0 has fetched nothing, with its code pages of an access code and its memory system changed. -/
def unfetched (access : Nat) (f : Mem → Mem) : Mach :=
  ({ base with mem := f base.mem, cores := [] } : Mach).modPart 1 (fun q => { q with maps := q.maps.map (fun (r : MapRange) => { r with access := access }) })

/-- Which outcome a fetch has. -/
def outcome : Fetch → Nat
  | .hit => 0
  | .fill _ _ _ => 1
  | .poison _ _ => 2
  | .fault _ => 3
  | .waits _ => 4

theorem fetched (x : Fetch) : (outcome x = 1 → ∃ l d m, x = .fill l d m) ∧ (outcome x = 2 → ∃ a m, x = .poison a m) ∧ (outcome x = 3 → ∃ a, x = .fault a) ∧
    (outcome x = 4 → ∃ m, x = .waits m) := by
  cases x <;> simp [outcome]

theorem test_witness_Guards :
    (guardOf (.add 0 { fa with pn := true }) = some (0, 0, true, false) ∧ CanIssue 0 (.add 0 { fa with pn := true }) base ∧
      ∀ l, l < 32 → (base.pGet 0 0).getLsbD l = true) ∧
    (guardOf (.nop 0 { fc with pi := 1 }) = some (0, 1, false, true) ∧ CanIssue 0 (.nop 0 { fc with pi := 1 }) (withGrp (fun x => { x with p := [(1, 1)] })) ∧
      ((withGrp (fun x => { x with p := [(1, 1)] })).pGet 0 1).getLsbD 0 = true ∧ ((withGrp (fun x => { x with p := [(1, 1)] })).pGet 0 1).getLsbD 31 = false ∧
      (withGrp (fun x => { x with p := [(1, 1)] })).ops = [] ∧ LaunchLives 0 (withGrp (fun x => { x with p := [(1, 1)] }))) ∧
    ((MayFetch 0 (.nop 0 fc) (unfetched 2 id) ∧ ∃ l d m, (unfetched 2 id).fetch 0 = .fill l d m) ∧
      (let m := unfetched 2 (fun a => { a with msgs := [.cmp 2 0], dir := [(0, ⟨.ownedRlc, 0, 4, false, false, 0⟩)] })
       MayFetch 0 (.nop 0 fc) m ∧ ∃ m1, m.fetch 0 = .waits m1) ∧
      (MayFetch 0 (.nop 0 fc) (unfetched 1 id) ∧ LaunchLives 0 (unfetched 1 id) ∧ ∃ a, (unfetched 1 id).fetch 0 = .fault a) ∧
      (let m := unfetched 2 (fun a => { a with hbmPoison := [(0, true)] })
       MayFetch 0 (.nop 0 fc) m ∧ LaunchLives 0 m ∧ ∃ a m1, m.fetch 0 = .poison a m1)) ∧
    ((Instr.shl 0 { fa with ty := .s8x4 }).wf = false ∧ (withGrp (fun x => { x with exited := true })).runnable 0 = false ∧
      (let m := base.modKrn 1 (fun x => { x with desc := { x.desc with usesAcc := false } })
       m.runnable 0 = true ∧ kernelAllows (m.krn (m.krnOf 0)).desc (.tmma 0 ft) = false)) ∧
    ¬ inKernel 0 ((withGrp (fun x => { x with pc := 16 })).grp 0).pc.toNat (withGrp (fun x => { x with pc := 16 })) := by
  refine ⟨⟨rfl, can rfl (by decide), by decide⟩, ⟨rfl, can rfl (by decide), by decide, by decide, by decide, ?_⟩, ⟨⟨?_, ?_⟩, ⟨?_, ?_⟩, ⟨?_, ?_, ?_⟩, ?_, ?_, ?_⟩, ?_, ?_⟩
  · simp only [LaunchLives]; decide
  · simp only [MayFetch]; decide
  · exact (fetched _).1 (by decide +kernel)
  · simp only [MayFetch]; decide
  · exact (fetched _).2.2.2 (by decide +kernel)
  · simp only [MayFetch]; decide
  · simp only [LaunchLives]; decide
  · exact (fetched _).2.2.1 (by decide +kernel)
  · simp only [MayFetch]; decide
  · simp only [LaunchLives]; decide
  · exact (fetched _).2.1 (by decide +kernel)
  · decide
  · simp only [inKernel]; decide

theorem test_witness_OperationResults : fa.ty = .s32 ∧ ({ fa with ty := .u64 }).ty = .u64 ∧ f32.decode 0x7FC00000 = .nan ∧ f32.decode 0 ≠ .nan := by
  decide

theorem test_witness_CountersAndTide : GuardOpen 0 0 false true base ∧ base.mayAccess 0 = true ∧ base.bankOf (base.krnOf 0) (clusterOf (coreOf 0)) = some 0 ∧
    base.coreLive (coreOf 0) = true ∧ CanIssue 0 (.evtInc 0 fs) base ∧ CanIssue 0 (.evtRead 0 fs) base ∧ CanIssue 0 (.tideRd 0 fs) base :=
  ⟨guard_base _, by decide, by decide, by decide, can rfl (by decide), can rfl (by decide), can rfl (by decide)⟩

/-- Group 0 waits for counter 1 to reach 2, until the deadline `d`. -/
def waiting (d : Option Nat) : Mach := withGrp (fun x => { x with wait := .event 1 2 true d 3 0 })

theorem test_witness_EventWaits :
    (CanIssue 0 (.evtWait 0 fs) base ∧ base.uGet 0 2 ≤ (base.ctrVal 0 1).toNat) ∧
    (let m := withGrp (fun x => { x with u := [(2, 1)] })
     CanIssue 0 (.evtWait 0 { fs with dle := true }) m ∧ (m.ctrVal 0 1).toNat < m.uGet 0 2 ∧ m.uPair 0 4 ≤ m.coreTide 0) ∧
    (let m := withGrp (fun x => { x with u := [(2, 1), (4, 9)] })
     CanIssue 0 (.evtWait 0 { fs with dle := true }) m ∧ (m.ctrVal 0 1).toNat < m.uGet 0 2 ∧ m.coreTide 0 < m.uPair 0 4) ∧
    (let m := (waiting none).modCore 0 (fun c => { c with ctr := [(1, 2)] })
     (m.grp 0).live = true ∧ (m.grp 0).wait = .event 1 2 true none 3 0 ∧ 2#32 ≤ m.ctrVal 0 1 ∧
       ∀ h ∈ groupSlots 0, h ≠ 0 → (m.grp h).live = false) ∧
    ((waiting (some 0)).grp 0).live = true ∧ ((waiting (some 0)).grp 0).wait = .event 1 2 true (some 0) 3 0 ∧
      0 ≤ (waiting (some 0)).coreTide 0 ∧ (waiting (some 0)).ctrVal 0 1 < 2 :=
  ⟨⟨can rfl (by decide), by decide⟩, ⟨can rfl (by decide), by decide, by decide⟩, ⟨can rfl (by decide), by decide, by decide⟩,
    ⟨by decide, by decide, by decide, by decide⟩, by decide, by decide, by decide, by decide⟩

/-- An EVT.SIG of launch 1 to counter 1 of core 0. -/
def sig : Sig := { id := 4, krn := 1, part := 1, src := 0, core := 0, ec := 1, n := 3, lc := false }

theorem test_witness_RemoteSignals :
    (CanIssue 0 (.evtSig 0 fs) base ∧ (base.part 1).clusters.getLsbD (base.uGet 0 2 / 256 % 64) = true) ∧
    (let m := withGrp (fun x => { x with u := [(2, 0x3F00)] })
     CanIssue 0 (.evtSig 0 fs) m ∧ (m.part 1).clusters.getLsbD (m.uGet 0 2 / 256 % 64) = false ∧ (m.part 1).st = .running ∧
       (m.krn (m.krnOf 0)).part = 1 ∧ m.moon.restart = 0) ∧
    (let m : Mach := { base with sigs := [sig] }
     m.sigs.find? (fun y => y.id == sig.id) = some sig ∧ m.coreLive sig.core = true ∧ m.moon.restart = 0 ∧
       ((m.modKrn 1 (fun x => { x with live := false })).krn sig.krn).live = false ∧
       (m.modClu 0 (fun c => { c with bank0 := 0 })).bankOf sig.krn (clusterOf sig.core) = none) ∧
    ({ base with sigs := [sig] } : Mach).sigs.find? (fun y => y.id == sig.id) = some sig ∧ (base.krn sig.krn).live = true :=
  ⟨⟨can rfl (by decide), by decide⟩, ⟨can rfl (by decide), by decide, by decide, by decide, by decide⟩, by decide, by decide, by decide⟩

theorem test_witness_FencesAndInterrupts :
    CanIssue 0 (.fenceRel 0 fs) base ∧ base.allPerformed 0 base.nextId false = true ∧
    (let m := withGrp (fun x => { x with u := [(2, 7)] })
     CanIssue 0 (.irqRaise 0 fs) m ∧ m.storesPerformed 0 = true ∧ 5 ≤ m.uGet 0 2 ∧ m.uGet 0 2 < (m.part 1).msix ∧ (m.part 1).st = .running) :=
  ⟨can rfl (by decide), by decide, can rfl (by decide), by decide, by decide, by decide, by decide⟩

theorem test_witness_RandomDraws :
    (∀ e ∈ rngRows, CanIssue 0 (e.1 0 fs) base) ∧ base.regsFree 0 [fs.vx.toNat] = true ∧ CanDraw 0 .stochastic base ∧
    CanIssue 0 (.rngKey 0 fs) base ∧ (base.grp 0).lent = false ∧ GuardOpen 0 0 false true base := by
  refine ⟨?_, by decide, draw_base _, can rfl (by decide), by decide, guard_base _⟩
  simp only [rngRows, List.forall_mem_cons]
  exact ⟨can rfl (by decide), can rfl (by decide), can rfl (by decide), can rfl (by decide), can rfl (by decide), by simp⟩

/-- A lane's access lands, outside the link windows. -/
theorem lands {m : Mach} {f : FmtM} {k : MemKind} {l : Nat}
    (h : (match m.placeLane 0 f k l with | .ok _ (.window _ _ _) => false | .ok _ _ => true | _ => false) = true) :
    ∃ a x, m.placeLane 0 f k l = .ok a x ∧ ∀ w p va, x ≠ .window w p va := by
  split at h
  · cases h
  · rename_i a x hx he
    exact ⟨a, x, he, fun w p va e => hx w p va e⟩
  · cases h

theorem test_witness_MemoryAccessesIssue : FreshIds base ∧ base.mayAccess 0 = true ∧ GuardOpen 0 0 false false base ∧
    ∀ e ∈ memRows, CanIssue 0 (e.1 0 fm) base ∧ base.regsFree 0 (mRegs fm (if e.2 = .atomic .cas then 2 else 1)) = true ∧
      ∀ l, l < 32 → ∃ a x, base.placeLane 0 fm e.2 l = .ok a x ∧ ∀ w p va, x ≠ .window w p va := by
  refine ⟨fun o h => (List.not_mem_nil h).elim, by decide, guard_base _, fun e he => ?_⟩
  simp only [memRows, List.mem_cons, List.not_mem_nil, or_false] at he
  rcases he with rfl | rfl | rfl | rfl | rfl | rfl | rfl | rfl | rfl | rfl | rfl | rfl | rfl | rfl | rfl | rfl | rfl | rfl | rfl | rfl | rfl | rfl <;>
    exact ⟨can rfl (by decide), by decide, fun l hl => lands (by revert l; decide)⟩

/-- A local access of group 0 to byte 16, as operation 5. -/
def lop (k : MemKind) : MemOp :=
  { id := 5, gid := 0, krn := 1, core := 0, block := 0, part := 1, kind := k, bytes := 4, vds := 4,
    lanes := [{ lane := 0, addr := 16, tgt := .localMem 16, data := 9, swap := 0, sent := true, done := false, noFill := false }],
    space := .localMem, ord := .plain, eve := false, ec := 0, lc := false, retried := false }

/-- The base device with `lop k` in flight. -/
def withOp (k : MemKind) : Mach := { base with ops := [lop k] }

theorem test_witness_LocalAccessesPerformed :
    (∀ k ∈ ([.store, .load, .atomic .add, .red .add] : List MemKind),
      (withOp k).ops.find? (fun x => x.id == (lop k).id) = some (lop k) ∧ (lop k).isLocal = true ∧ (withOp k).released (lop k) = true ∧
      (∀ l ∈ (lop k).lanes, l.done = false ∧ l.sent = true ∧ (withOp k).inOrder (lop k) l = true ∧ ∃ off, l.tgt = .localMem off) ∧
      ((lop k).lanes.map (·.lane)).Nodup ∧ (lop k).lanes ≠ []) ∧
    (0 < hbmLines ∧ (lop .load).retried = false ∧ (lop .load).bytes ∈ [4, 8, 16] ∧ (∀ l ∈ (lop .load).lanes, l.lane < 32) ∧ ((withOp .load).grp 0).live = true ∧ (withOp .load).krnOf 0 = 1) := by
  refine ⟨fun k hk => ⟨?_, ?_, ?_, ?_, ?_, ?_⟩, by decide⟩
  · simp [withOp, lop]
  · rfl
  · rfl
  · intro l hl
    simp only [lop, List.mem_cons, List.not_mem_nil, or_false] at hl
    subst hl
    simp only [List.mem_cons, List.not_mem_nil, or_false] at hk
    rcases hk with rfl | rfl | rfl | rfl <;> exact ⟨rfl, rfl, by decide, 16, rfl⟩
  · simp [lop]
  · simp [lop]

/-- A TMMA of two 128 x 128 MXFP4 tiles. -/
def tensorOp : TOp := { id := 3, gid := 0, krn := 1, block := 0, kind := .tmma, f := { ft with bbase := 100 }, lanes := [] }

theorem test_witness_TensorIssue :
    CanIssue 0 (.tmma 0 ft) base ∧ CanIssue 0 (.tzero 0 ft) base ∧ CanIssue 0 (.tload 0 { ft with afmt := .int8 }) base ∧
    CanIssue 0 (.tstore 0 { ft with afmt := .int8, opt := 1 }) base ∧ CanDraw 0 .stochastic base ∧
    base.tileFault 0 .tmma ft = none ∧ base.tileFault 0 .tzero ft = none ∧ base.tileFault 0 .tload { ft with afmt := .int8 } = none ∧
    base.tileFault 0 .tstore { ft with afmt := .int8, opt := 1 } = none ∧ (base.core 0).tq.length < 4 ∧ GuardOpen 0 0 false true base :=
  ⟨can rfl (by decide), can rfl (by decide), can rfl (by decide), can rfl (by decide), draw_base _, by decide, by decide, by decide, by decide,
    by decide, guard_base _⟩

theorem test_witness_TensorEngineRuns : ((base.modCore 0 (fun c => { c with tq := [tensorOp] })).core 0).tq = tensorOp :: [] ∧
    (base.modCore 0 (fun c => { c with tq := [tensorOp] })).ops = [] ∧ (base.modCore 0 (fun c => { c with tq := [tensorOp] })).coreLive 0 = true ∧
    tensorOp.kind = .tmma ∧ tensorOp.f.accz = false ∧ ({ tensorOp with kind := .tstore } : TOp).kind = .tstore := by
  decide

/-- A FLUSH of one line by group 0. -/
def flushOp : FlushOp := { id := 4, gid := 0, krn := 1, core := 0, part := 1, va := 0, len := 64, eve := true, ec := 1 }

theorem test_witness_FencesAndFlushes :
    (∀ sc, CanIssue 0 (.fenceAcq 0 { fs with scope := sc }) base) ∧ base.loadsPerformed 0 = true ∧ base.uGet 0 4 = 0 ∧
    (let m := withGrp (fun x => { x with u := [(4, 64)] })
     CanIssue 0 (.fenceAcq 0 fs) m ∧ CanIssue 0 (.flush 0 fs) m ∧ m.uGet 0 4 ≠ 0 ∧ m.uPair 0 2 + m.uGet 0 4 ≤ 2 ^ 52 ∧ m.codePage 1 (m.uPair 0 2) (m.uGet 0 4) = none) ∧
    CanIssue 0 (.flush 0 fs) base ∧ base.storesPerformed 0 = true ∧
    (let m : Mach := { base with flushes := [flushOp] }
     m.flushes.find? (fun x => x.id == flushOp.id) = some flushOp ∧ (∀ pc ∈ pieces 0 64, m.translate 1 .read pc.1 ≠ .fault) ∧ ∃ m1, m.vflush 1 0 64 .read = .ok m1) :=
  ⟨fun sc => can rfl (by cases sc <;> decide), by decide, by decide, ⟨can rfl (by decide), can rfl (by decide), by decide, by decide, by decide⟩,
    can rfl (by decide), by decide, by decide, by decide, _, rfl⟩

/-- Whether a write reaches memory. -/
def wrote : VWrite → Bool
  | .ok _ => true
  | _ => false

/-- A write that reaches memory leaves a next device; a read that finds its bytes too. -/
theorem stored {w : VWrite} (h : wrote w = true) : ∃ m1, w = .ok m1 := by
  cases w with
  | ok m1 => exact ⟨m1, rfl⟩
  | fault => cases h
  | waits _ => cases h

theorem poisoned {r : VRead} (h : (match r with | .poisoned _ => true | _ => false) = true) : ∃ m1, r = .poisoned m1 := by
  cases r with
  | poisoned m1 => exact ⟨m1, rfl⟩
  | fault => cases h
  | ok _ _ => cases h
  | waits _ => cases h

theorem readable {r : VRead} (h : (match r with | .ok _ _ => true | _ => false) = true) : ∃ b m1, r = .ok b m1 := by
  cases r with
  | ok b m1 => exact ⟨b, m1, rfl⟩
  | fault => cases h
  | poisoned _ => cases h
  | waits _ => cases h

/-- A copy of 64 bytes of local memory from 0 to 128. -/
def copyOp : CopyOp :=
  { id := 6, gid := 0, krn := 1, core := 0, base := 0, part := 1, va := 0, src := 0, dst := 128, len := 64, rows := 1, ctrl := 3, spitch := 0,
    dpitch := 0, eve := true, ec := 1, pos := 0, status := none, faultAt := none }

theorem noFault (c : Tbl Core) (q : Tbl (List CopyOp)) (x : Nat) :
    ({ base.setCopyQ 0 [copyOp] with cores := c, copies := q } : Mach).vwriteFor copyOp.half 7 1 0 (statusBytes x) ≠ .fault := by
  unfold Mach.vwriteFor
  split
  · simp
  · rw [show (statusBytes x).length = 8 by simp [statusBytes, leBytes], show pieces 0 8 = [(0, 8)] by decide]
    simp only [List.foldl_cons, List.foldl_nil]
    rw [show ({ base.setCopyQ 0 [copyOp] with cores := c, copies := q } : Mach).translate 1 .write 0 = .ok (.hbm 0) from rfl]
    simp only []
    split <;> simp

theorem test_witness_CopyEngines :
    (CanIssue 0 (.ceCopy 0 fs) base ∧ base.storesPerformed 0 = true ∧ (base.copyQ (base.copyEngine 0)).length < 8 ∧ base.uPair 0 2 % 64 = 0 ∧
      base.mappedFor 1 .write (base.uPair 0 2) 64 = true ∧ ∃ b m1, base.vreadFor (some 0) 7 1 (base.uPair 0 2) 64 .read = .ok b m1) ∧
    (∀ o ∈ [{ copyOp with status := some (3, 0) }, { copyOp with status := some (9, 2), faultAt := some 0 }, { copyOp with pos := 64 }],
     let m := base.setCopyQ 0 [o]
     m.copyQ 0 = o :: [] ∧ (o.status ≠ none ∨ (o.len * o.rows ≤ o.pos ∧ m.copyAnswered o.id = true)) ∧
       wrote (m.vwriteFor o.half (m.krn o.krn).num o.part o.va
         (statusBytes ((o.status.getD (0, 0)).1 % 65536 + 65536 * ((o.status.getD (0, 0)).2 % 65536)))) = true) ∧
    (let o := { copyOp with ctrl := 2, src := 64 }
     let m := base.setCopyQ 0 [o]
     m.copyQ 0 = o :: [] ∧ o.pos < o.len * o.rows ∧ o.srcLocal = false ∧
       (match m.copyRead o o.pos (o.piece (m.copyRemote o)) with
        | .bytes _ _ m1 => wrote ((m1.modCopy o.id (fun x => { x with status := some (7, 1) })).vwriteFor o.half (m1.krn o.krn).num o.part o.va (statusBytes (7 + 65536)))
        | _ => false) = true) ∧
    (let m := base.setCopyQ 0 [copyOp]
     m.copyQ 0 = copyOp :: [] ∧ copyOp.srcLocal = true ∧ copyOp.dstLocal = true ∧ copyOp.status = none ∧ copyOp.pos = 0 ∧ 0 < copyOp.len ∧ 0 < copyOp.rows ∧
       copyOp.faultAt = none ∧ copyOp.src + (copyOp.rows - 1) * copyOp.spitch + copyOp.len ≤ copyOp.dst ∧
       ∀ c q x, ({ m with cores := c, copies := q } : Mach).vwriteFor copyOp.half (m.krn 1).num 1 0 (statusBytes x) ≠ .fault) :=
  ⟨⟨can rfl (by decide), by decide, by decide, by decide, by decide, readable (by decide +kernel)⟩, by decide +kernel, by decide +kernel,
    by decide, by decide, by decide, by decide, by decide, by decide, by decide, by decide, by decide, fun c q x => noFault c q x⟩

/-- The base device with these bytes in HBM. -/
def withBytes (l : Tbl Byte) : Mach := { base with mem := { base.mem with hbm := l } }

/-- A multicast of one packet to core 0, and the state of its target. -/
def mcastOp (x : McTarget) : McastOp :=
  { id := 7, gid := 0, krn := 1, core := 0, part := 1, targets := [0], ctr := 1, dst := 0, packets := 1, invalid := false,
    payload := List.replicate 256 1, record := 0, state := [(0, x)], eve := true, ec := 1 }

theorem test_witness_Multicasts :
    (let m := withBytes [(0, 1), (8, 1), (13, 1)]
     CanIssue 0 (.mcast 0 fs) m ∧ m.uPair 0 2 % 64 = 0 ∧ m.ops = [] ∧ (m.core 0).tq = [] ∧ ∃ b m1, m.vread 1 (m.uPair 0 2) 64 .read = .ok b m1 ∧
       fieldAt b 12 4 = 256 ∧ fieldAt b 16 4 + 256 ≤ 1024 * (m.blk (m.grp 0).block).granules ∧ fieldAt b 20 4 + 256 ≤ (m.krn 1).desc.recvBytes ∧
       (∀ c, c < 64 → (fieldAt b 0 8).testBit c = true → (m.part 1).clusters.getLsbD c = true) ∧ (fieldAt b 0 8).testBit 0 = true ∧ (fieldAt b 8 2).testBit 0 = true) ∧
    (let o := mcastOp ⟨[], false, 0, 0⟩
     let m : Mach := { base with mcasts := [o] }
     let full := m.modCore 0 (fun c => { c with halted := true, ejected := Config.ejectBuffer })
     (m.mcasts.find? (fun x => x.id == o.id) = some o ∧ 0 ∈ o.targets ∧ (tget mcTarget0 o.state 0).undelivered = false ∧ o.invalid = false ∧
       0 < o.packets ∧ 0 ∉ (tget mcTarget0 o.state 0).got ∧ o.passes 0 0 = true ∧ o.payload.length = 256 * o.packets) ∧
     ((m.core 0).halted = false ∧ tget 0 (m.krn o.krn).recv 0 ≠ 0 ∧ m.coreLive 0 = true) ∧
     (full.mcasts = [o] ∧ (full.core 0).halted = true ∧ Config.ejectBuffer ≤ (full.core 0).ejected ∧ tget 0 (full.krn o.krn).recv 0 ≠ 0 ∧ full.coreLive 0 = true)) ∧
    (let o := mcastOp ⟨[], false, 1, 0⟩
     let m : Mach := { base with mcasts := [o], clk := { base.clk with tide := [(4, 16000)] } }
     m.mcasts.find? (fun x => x.id == o.id) = some o ∧ (tget mcTarget0 o.state 0).blocked ≠ 0 ∧ (tget mcTarget0 o.state 0).undelivered = false ∧
       (tget mcTarget0 o.state 0).blocked - 1 + 16000 ≤ m.now) ∧
    (let o := mcastOp ⟨[0], false, 0, 0⟩
     let m : Mach := { base with mcasts := [o] }
     m.mcasts.find? (fun x => x.id == o.id) = some o ∧ (∀ k ∈ o.targets, o.packets ≤ (tget mcTarget0 o.state k).got.length) ∧
       ∃ m1, m.vwrite 1 0 (statusBytes 0 ++ leBytes 8 0 ++ List.replicate 112 0 ++ leBytes 128 0) = .ok m1) :=
  ⟨⟨can rfl (by decide), by decide, by decide, by decide, _, _, rfl, by decide +kernel, by decide +kernel, by decide +kernel, by decide +kernel, by decide +kernel, by decide +kernel⟩,
    ⟨by decide +kernel, by decide +kernel, rfl, rfl, Nat.le_refl _, by decide +kernel, rfl⟩, by decide +kernel, by decide +kernel, by decide +kernel, stored (by decide +kernel)⟩

/-- A SAMPLE descriptor of one row of one binary32 element at temperature 1. -/
def ordBytes : Tbl Byte := [(8, 0x40), (16, 0x80), (40, 1), (50, 1), (58, 0x80), (59, 0x3F), (60, 4)]

theorem test_witness_OrderingIssue :
    (∀ e ∈ ordRows, CanIssue 0 (e.1 0 fs) (withBytes ordBytes)) ∧ (withBytes ordBytes).storesPerformed 0 = true ∧
    ((withBytes ordBytes).clu 0).ordq.length < 32 ∧ (withBytes ordBytes).mappedFor 1 .write 0 64 = true ∧ CanDraw 0 .stochastic (withBytes ordBytes) ∧
    ∃ b m1, (withBytes ordBytes).vreadFor (some (halfOfCore 0)) 7 1 0 64 .read = .ok b m1 ∧ ordBad .sample (ordFields b) = none ∧
      ordDraws .sample (ordFields b) = true := by
  refine ⟨?_, by decide, by decide, by decide, fun _ => by decide, _, _, rfl, by decide +kernel, by decide +kernel⟩
  simp only [ordRows, List.forall_mem_cons]
  exact ⟨can rfl (by decide), can rfl (by decide), can rfl (by decide), can rfl (by decide), can rfl (by decide), can rfl (by decide), by simp⟩

theorem test_witness_OrderKeys : (0x7FC00000 : Nat) < 2 ^ (8 * OrdTy.f32.bytes) ∧ ordVal .f32 0x7FC00000 = .nan ∧ ordVal .f32 0 ≠ .nan := by decide

/-- A descriptor in the Ordering Unit of cluster 0: one row of one element at 64, the result at 128. -/
def ordDesc (op : OrdOp) (row : Nat) (temp : Word) (lanes : Tbl RngLane) : OrdDesc :=
  { id := 8, op := op, gid := 0, krn := 1, core := 0, va := 0, row := row, status := none, eve := true, ec := 1, lanes := lanes, unseeded := false
    f := { inp := 64, out := 128, aux := 64, scratch := 0, n := 1, k := 1, d := 0, rows := 1, ctrl := 0, temp := temp, stride := 4 } }

/-- The base device with one descriptor in that queue. -/
def withOrd (d : OrdDesc) : Mach := base.modClu 0 (fun c => { c with ordq := [d] })

theorem next_ord (op : OrdOp) : comesNext (withOrd (ordDesc op 0 0 [])) ((withOrd (ordDesc op 0 0 [])).clu 0).ordq (ordDesc op 0 0 []) :=
  ⟨[], [], rfl, rfl, by simp, by simp⟩

theorem test_witness_OrderingRows :
    (let d := ordDesc .argmax 0 0 []
     (withOrd d).ordOverlaps 1 d = false) ∧
    (let d := ordDesc .argmax 0 0 []
     let m := (withOrd d).modMem (fun a => { a with hbmPoison := [(1, true)] })
     (m.clu 0).ordq = [d] ∧ ∃ m1, m.vreadFor d.half 7 1 64 4 .read = .poisoned m1) ∧
    (let d := ordDesc .argmax 0 0 []
     comesNext (withOrd d) ((withOrd d).clu 0).ordq d ∧ d.f.ty = some .f32 ∧ 1 ≤ d.f.n ∧ d.f.n ≤ 2 ^ 31 ∧
     ∃ b m1 m2 m3 m4, (withOrd d).vreadFor d.half 7 1 64 4 .read = .ok b m1 ∧
       firstInOrder ((elemsOf 4 1 b).map (orderKey .f32 true)) [0] 1 ∧ m1.rowOut 1 d [0] = ([0], m3) ∧ m3.useScratch 1 d = .ok m4 ∧
       m4.vwriteFor d.half 7 1 128 (leBytes 4 0) = .ok m2) ∧
    (let d := ordDesc .search 0 0 []
     comesNext (withOrd d) ((withOrd d).clu 0).ordq d ∧
     ∃ b q m1 m2 m3 m4, (withOrd d).vreadFor d.half 7 1 64 4 .read = .ok b m1 ∧ ((elemsOf 4 1 b).map (orderKey .f32 true)).Pairwise (· ≤ ·) ∧
       m1.vreadFor d.half 7 1 64 4 .read = .ok q m3 ∧ m3.rowOut 1 d [0] = ([0], m4) ∧ m4.vwriteFor d.half 7 1 128 (leBytes 4 0) = .ok m2) :=
  ⟨by decide +kernel, ⟨by decide, poisoned (by decide +kernel)⟩,
    ⟨next_ord _, rfl, by decide, by decide, _, _, _, _, _, rfl,
      ⟨by decide +kernel, by decide +kernel, by simp, fun i hi hn => absurd (Nat.lt_one_iff.mp hi) (by simpa using hn)⟩, rfl, rfl, rfl⟩,
    next_ord _, _, _, _, _, _, _, rfl, by decide +kernel, rfl, rfl, rfl⟩

theorem test_witness_OrderingEnds :
    (let d := ordDesc .argmax 1 0 []
     ((withOrd d).clu 0).ordq = [] ++ d :: [] ∧ d.finished = true ∧ d.lanes = [] ∧ ∃ m1, (withOrd d).vwriteFor d.half 7 1 0 (statusBytes 0) = .ok m1) ∧
    (let d := ordDesc .sample 1 0x3F800000 [(0, ⟨1, 1, 0⟩)]
     ((withOrd d).clu 0).ordq = [] ++ d :: [] ∧ d.finished = true ∧ d.f.temp.toNat % 2 ^ 31 ≠ 0 ∧ d.lanes ≠ [] ∧ ((withOrd d).grp 0).live = true ∧
       (withOrd d).krnOf 0 = 1) ∧
    ((base.clu 0).ordq = [] ∧ base.moon.restart = 0) ∧
    (let d := ordDesc .argmax 0 0 []
     comesNext (withOrd d) ((withOrd d).clu 0).ordq d ∧ (withOrd d).moon.restart = 0) :=
  ⟨⟨rfl, rfl, rfl, _, rfl⟩, by decide, by decide, next_ord _, rfl⟩

/-- The base device with channel 0 of the port 0 physical function as `c`. -/
def withChan (f : Chan → Chan) : Mach := base.modChan 0 f

theorem test_witness_MailboxReadsAndTurns :
    chanOk (.pf 0) 0 = true ∧ base.barGate (.pf 0) = .open_ ∧ base.behind (.pf 0) = false ∧
    (let m := { withChan (fun c => { c with next := 1 }) with clk := { base.clk with tide := [(4, 100000000)] } }
     (m.chan 0).next ≠ (m.chan 0).serving ∧ (m.chan 0).servingTide + 100000000 ≤ m.now) ∧
    ((withChan (fun c => { c with overrun := true })).chan 0).overrun = true ∧ ((withChan (fun c => { c with overrun := true })).chan 0).need = 0 ∧
    (let m := { withChan (fun c => { c with inq := [0x01010001], need := 1, overrun := true }) with clk := { base.clk with tide := [(4, 10000000)] } }
     framed (m.chan 0) [] [0x01010001] ∧ (m.chan 0).overrun = true ∧ m.behind (.pf 0) = false ∧ (m.chan 0).headerTide + 10000000 ≤ m.now) := by
  refine ⟨by decide, by decide, by decide, by decide, by decide, by decide, ?_⟩
  simp only [framed]
  decide

theorem test_witness_MailboxWrites :
    (let m := base.queueHost (.pf 0) (.reg 0x10024 4 0)
     m.barGate (.pf 0) = .open_ ∧ m.behind (.pf 0) = true) ∧
    chanOk (.pf 0) 0 = true ∧ base.barGate (.pf 0) = .open_ ∧ base.behind (.pf 0) = false ∧
    ((base.chan 0).mode = false ∧ (base.chan 0).enable = true ∧ (base.chan 0).overrun = false ∧
      (base.chan 0).inq = [] ∧ (base.chan 0).need = 0 ∧ base.moon.restart = 0) ∧
    ({ base with moon := { base.moon with restart := 1 } }.moon.restart ≠ 0 ∧ hdrLen 0x01010000 = 0) ∧
    ((withChan (fun c => { c with overrun := true })).chan 0).overrun = true ∧ ((withChan (fun c => { c with enable := false })).chan 0).enable = false ∧
    ((withChan (fun c => { c with mode := true })).chan 0).mode = true ∧ Chan.quiet (base.chan 8) := by
  refine ⟨by decide, by decide, by decide, by decide, by decide, by decide, by decide, by decide, by decide, ?_⟩
  simp only [Chan.quiet]
  decide

/-- A reply of DEV.INFO, in Q mode or in P mode. -/
def rep (pmode written : Bool) : Reply :=
  { opcode := 0x101, tag := 3, status := 0, detail := 0, result := [1, 2, 3, 4], seq := 0, ptr := 0, pmode := pmode, written := written }

theorem test_witness_MailboxErrorsAndPosting :
    chanOk (.pf 0) 0 = true ∧ base.moon.restart = 0 ∧
    (let m := withChan (fun c => { c with inq := [0x02030301, 1] })
     (m.chan 0).mode = false ∧ (m.chan 0).inq = [0x02030301, 1] ++ [] ∧ ([0x02030301, 1] : List Word).length = hdrLen 0x02030301 + 1 ∧ (m.chan 0).need = 0) ∧
    ((withChan (fun c => { c with dbq := [(0, 0)] })).chan 0).dbq ≠ [] ∧ ((withChan (fun c => { c with outq := [1] })).chan 0).outq ≠ [] ∧
    (let m := withChan (fun c => { c with held := [rep false false] })
     m.served = true ∧ (m.chan 0).inq = [] ∧ (m.chan 0).dbq = [] ∧ (m.chan 0).held = rep false false :: [] ∧ (rep false false).activates = false ∧
       (m.chan 0).outq.length + (qWords (rep false false)).length ≤ 16 ∧ (m.chan 0).irqEn = false) ∧
    16 < ((withChan (fun c => { c with outq := List.replicate 16 0, held := [rep false false] })).chan 0).outq.length + (qWords (rep false false)).length ∧
    (let m := (withChan (fun c => { c with held := [rep false false], irqEn := true })).modFn 0 (fun f => { f with msixEn := true, table := [(0, ⟨64, 5, false⟩)] })
     (m.chan 0).outq = [] ∧ (m.chan 0).irqEn = true ∧ (m.hlink 0).up = true ∧ (m.fnSt 0).msixEn = true ∧ (m.fnSt 0).msixMask = false ∧ (m.fnSt 0).d3hot = false ∧
       (tget (⟨0, 0, true⟩ : MsixEntry) (m.fnSt 0).table 0).masked = false) ∧
    ((rep true true).pmode = true ∧ (rep true true).written = true ∧ (rep true true).unread = false) ∧
    (let m := base.modChan 40 (fun c => { c with mode := true, held := [rep true false], notices := [1, 2, 3, 4, 5, 6, 7, 8] })
     8 ≤ (m.chan 40).notices.length ∧ keySpace 40 = 1 ∧ (rep true false).hw = false ∧ (rep true false).status ≠ 3 ∧
       ∃ m1 m2 m3 m4, m.serviceWdog.vwrite 1 64 [1, 2, 3, 4] = .ok m1 ∧ m1.vwrite 1 16 (leBytes 4 4) = .ok m2 ∧
       m2.vwrite 1 8 (statusBytes 0) = .ok m3 ∧ m3.vwrite 1 20 (leBytes 4 1) = .ok m4) :=
  ⟨by decide, by decide, by decide, by decide, by decide, by decide, by decide, by decide, by decide, by decide, by decide, by decide, by decide, _, _, _, _, rfl, rfl, rfl, rfl⟩

/-- The base device with a Q-mode command (or its first words) in channel 0 of a function. -/
def mbox (fn : Fn) (ws : List Word) : Mach := base.modChan (chanKey fn 0) (fun c => { c with inq := ws })

/-- The command at the head of a channel of `fn`, with its layout, and what else must hold of it. -/
def heads (fn : Fn) (m : Mach) (op plen rlen : Nat) (fields : List (Nat × Nat)) (p : Cmd → Mach → Bool) : Bool :=
  chanOk fn 0 && m.mayTake fn 0 && !m.stateDenies op &&
    match m.peek (chanKey fn 0) with
    | .cmd c m1 => c.opcode == op && !m.aborted fn (chanKey fn 0) c && (c.pmode || (decide (plen ≤ 60) && decide (rlen ≤ 56))) &&
        c.params.length == (plen + 3) / 4 * 4 &&
        (List.range c.params.length).all (fun i => fields.any (fun f => decide (f.1 ≤ i) && decide (i < f.1 + f.2)) || nth 0 c.params i == 0) && p c m1
    | _ => false

theorem sent {fn : Fn} {m : Mach} {op plen rlen : Nat} {fields : List (Nat × Nat)} {P : Cmd → Mach → Prop} [∀ c x, Decidable (P c x)]
    (h : heads fn m op plen rlen fields (fun c x => decide (P c x)) = true) :
    ∃ c m1, Sent op fn 0 c m m1 ∧ Framed plen rlen fields c ∧ P c m1 := by
  simp only [heads, Bool.and_eq_true, Bool.not_eq_true'] at h
  obtain ⟨⟨⟨h1, h2⟩, h3⟩, h4⟩ := h
  split at h4
  · rename_i c m1 hp
    simp only [Bool.and_eq_true, Bool.or_eq_true, Bool.not_eq_true', beq_iff_eq, decide_eq_true_eq, List.all_eq_true, List.mem_range, List.any_eq_true] at h4
    obtain ⟨⟨⟨⟨⟨h5, ha⟩, h6⟩, h7⟩, h8⟩, h9⟩ := h4
    refine ⟨c, m1, ⟨h1, h2, hp, h5, h3, ha⟩, ⟨fun e => ?_, h7, fun i hi hf => ?_⟩, h9⟩
    · exact h6.resolve_left (by simp [e])
    · rcases h8 i hi with ⟨f, hf1, hf2⟩ | h
      · rcases hf f hf1 with h | h <;> omega
      · exact h
  · cases h4

/-- What the head of a channel is. -/
theorem peeked {m : Mach} {key : Nat} {P : Cmd → Prop} [∀ c, Decidable (P c)]
    (h : (match m.peek key with | .cmd c _ => decide (P c) | _ => false) = true) : ∃ c m1, m.peek key = .cmd c m1 ∧ P c := by
  split at h
  · rename_i c m1 hp
    exact ⟨c, m1, hp, by simpa using h⟩
  · cases h

theorem test_witness_CommandsNotAdmitted :
    (let m := mbox (.vf 0 1) [0x07010001, 0]
     chanOk (.vf 0 1) 0 = true ∧ m.mayTake (.vf 0 1) 0 = true ∧ ∃ c m1, m.peek (chanKey (.vf 0 1) 0) = .cmd c m1 ∧ c.opcode = 0x0701) ∧
    (let m := { mbox (.pf 0) [0x05010000] with sec := { Sec.reset with recovery := true } }
     m.mayTake (.pf 0) 0 = true ∧ m.stateDenies 0x0501 = true ∧ ∃ c m1, m.peek 0 = .cmd c m1 ∧ c.opcode = 0x0501) ∧
    (let m := (mbox (.pf 0) [0x02050003, 1, 0, 0]).modChan 0 (fun c => { c with abort := [(1, 1)] })
     m.mayTake (.pf 0) 0 = true ∧ m.stateDenies 0x0205 = false ∧ ∃ c m1, m.peek 0 = .cmd c m1 ∧ (c.opcode = 0x0205 ∧ m.aborted (.pf 0) 0 c = true)) ∧
    (let m := (withBytes [(0, 1), (1, 1), (3, 9)]).modChan 40 (fun c => { c with mode := true, dbq := [(0, 0)] })
     m.mayTake (.vf 0 1) 0 = true ∧ ∃ c m1, m.peek 40 = .cmd c m1 ∧ c.opcode = 0x0101 ∧ m.aborted (.vf 0 1) 40 c = false ∧ 4033 ≤ c.params.length) :=
  ⟨⟨by decide, by decide, peeked (by decide)⟩, ⟨by decide, by decide, peeked (by decide)⟩, ⟨by decide, by decide, peeked (by decide)⟩,
    by decide +kernel, peeked (by decide +kernel)⟩

/-- EXIT: FMT 4 and OPC 4 (Tables 05.1 and 05.7). -/
def exitWord : List Byte := [0, 0, 0, 0, 0, 0, 0, 0x81]

/-- A graph image of one kernel, one EXIT word and an empty GRAPH section (R131 to R133); its SHA-384 comes from another program. -/
def image : List Byte :=
  let z := fun n => List.replicate n (0 : Byte)
  let sec := fun t off size => leBytes 4 t ++ z 4 ++ leBytes 8 off ++ leBytes 8 size ++ leBytes 4 8 ++ z 4
  let hash := 0x8a9d8b83e777b3794fff1a36a485aa0d7e9c3f75575ec5b370ebb0e56c750af61e4b5f8b561194e6c4bc942539315d3b
  leBytes 4 0x3149474B ++ leBytes 2 0x100 ++ z 6 ++ leBytes 4 3 ++ leBytes 8 424 ++ leBytes 4 1 ++ z 4 ++ (leBytes 48 hash).reverse ++ z 176 ++
    sec 1 352 8 ++ sec 2 360 64 ++ sec 5 424 0 ++ exitWord ++ (z 4 ++ leBytes 4 1 ++ [1, 1] ++ z 54)

/-- HBM holds the image from address 0, and KGI.LOAD of it as handle 9 waits in channel 0 of VF 1. -/
def loading : Mach :=
  { mbox (.vf 0 1) [0x04010006, 9, 0, 0, 0, 424, 0] with mem := { base.mem with hbm := ((List.range 424).zip image).filter (fun e => e.2 != 0) } }

/-- The outcome of the checks of an image. -/
def loads (r : KgiLoad) : Option Nat := match r with | .good off _ _ => some off | .bad _ => none

/-- What a read of memory found. -/
def found (v : VRead) : Option (List Byte) := match v with | .ok b _ => some b | _ => none

theorem test_image_loads : loads (checkKgi image 424) = some 352 := by decide +kernel

theorem test_witness_KernelImages :
    (∃ c m1, Sent 0x0401 (.vf 0 1) 0 c loading m1 ∧ Framed 24 8 [(0, 4), (8, 8), (16, 8)] c ∧
      (m1.part 1).kgis = [] ∧ c.f 16 8 = 424 ∧ c.f 8 8 = 0 ∧ m1.mappedFor 1 .image 0 424 = true ∧ found (m1.vread 1 0 424 .image) = some image) ∧
    (∃ c m1, Sent 0x0402 (.pf 0) 0 c ((mbox (.pf 0) [0x04020001, 9]).modPart 65 (fun q => { q with kgis := [⟨9, 0, [], []⟩] })) m1 ∧ Framed 4 0 [(0, 4)] c ∧
      (∃ k ∈ (m1.part 65).kgis, k.handle = c.f 0 4) ∧ (∀ e ∈ m1.krns, e.2.part ≠ 65) ∧ (m1.part 65).sb.conf = false) :=
  ⟨sent (by decide +kernel), sent (by decide +kernel)⟩

/-- VF 1's channel 0 holds a command, and partition 1 has loaded an image with the base device's kernel as handle 9. -/
def sends (ws : List Word) : Mach := (mbox (.vf 0 1) ws).modPart 1 (fun q => { q with kgis := [⟨9, 0, [(base.krn 1).desc], []⟩] })

theorem test_witness_LaunchCommands :
    (∃ c m1, Sent 0x0501 (.vf 0 1) 0 c (sends [0x0501000E, 5, 9, 0, 0, 1, 0, 0x100, 0, 1, 2, 3, 4, 0, 3]) m1 ∧
      Framed 56 0 [(0, 4), (4, 4), (8, 4), (16, 8), (24, 8), (32, 16), (48, 4), (52, 4)] c ∧
      (m1.part 1).kgis.find? (fun k => k.handle == c.f 4 4) = some ⟨9, 0, [(base.krn 1).desc], []⟩ ∧ c.f 8 4 = 0 ∧ c.f 16 8 = 1 ∧ (m1.part 1).clusters = 1 ∧
      c.f 24 8 < 2 ^ 52 ∧ c.f 52 4 < 4 ∧ m1.krnByNum 1 (c.f 0 4) = none ∧ (m1.mciKrns 1).length < 256) ∧
    (∃ c m1, Sent 0x0502 (.vf 0 1) 0 c (sends [0x05020002, 7, 9]) m1 ∧ Framed 8 12 [(0, 4), (4, 4)] c ∧ m1.krnByNum 1 (c.f 0 4) = some 1) ∧
    (∃ c m1, Sent 0x0502 (.vf 0 1) 0 c ((sends [0x05020002, 6, 0]).modPart 1 (fun q => { q with ends := [⟨6, 0, 3, false⟩] })) m1 ∧ Framed 8 12 [(0, 4), (4, 4)] c ∧
      m1.krnByNum 1 (c.f 0 4) = none ∧ (m1.part 1).ends.find? (fun e => e.num == c.f 0 4) = some ⟨6, 0, 3, false⟩) ∧
    (∃ c m1, Sent 0x0502 (.vf 0 1) 0 c (sends [0x05020002, 8, 0]) m1 ∧ Framed 8 12 [(0, 4), (4, 4)] c ∧ m1.krnByNum 1 (c.f 0 4) = none ∧ (m1.part 1).ends = []) ∧
    (let m := withChan (fun c => { c with cur := some (⟨0x502, 1, [], 0, 0, false⟩, .krn 1 7 (some 0)) })
     (m.chan 0).cur = some (⟨0x502, 1, [], 0, 0, false⟩, .krn 1 7 (some 0)) ∧ 0 ≤ m.now ∧ m.moonServes = true) ∧
    (∃ c m1, Sent 0x0503 (.vf 0 1) 0 c (sends [0x05030001, 7]) m1 ∧ Framed 4 0 [(0, 4)] c ∧ m1.krnByNum 1 (c.f 0 4) = some 1 ∧
      ((m1.krn 1).live = true ∧ m1.moon.restart = 0 ∧ (m1.part (m1.krn 1).part).st ≠ .resetting) ∧ m1.waiting (fun _ => true) = []) ∧
    (∃ c m1, Sent 0x0504 (.vf 0 1) 0 c (sends [0x05040002, 7, 1]) m1 ∧ Framed 5 0 [(0, 4), (4, 1)] c ∧ c.f 4 1 ≤ 1 ∧ m1.krnByNum 1 (c.f 0 4) = some 1) ∧
    (∃ c m1, Sent 0x0504 (.vf 0 1) 0 c (sends [0x05040002, 8, 1]) m1 ∧ Framed 5 0 [(0, 4), (4, 1)] c ∧ c.f 4 1 ≤ 1 ∧ m1.krnByNum 1 (c.f 0 4) = none) :=
  ⟨sent (by decide +kernel), sent (by decide +kernel), sent (by decide +kernel), sent (by decide +kernel), by decide, sent (by decide +kernel), sent (by decide +kernel),
    sent (by decide +kernel)⟩

/-- The base device before launch 1 has a block on core 0: `held` says whether it holds bank 0 of cluster 0. -/
def before_ (held : Bool) : Mach :=
  ({ base with groups := [], blocks := [] } : Mach).modKrn 1 (fun x => { x with next := 0, banks := if held then [(0, 1)] else [], recv := if held then x.recv else [] })
    |>.modClu 0 (fun c => { c with bank0 := if held then 2 else 0 })

theorem no_krn (h : Bool) (j : Nat) (hj : j ≠ 1) : (before_ h).krn j = Krn.reset := by
  have e : (before_ h).krns = [(1, ((before_ h).krn 1))] := by cases h <;> rfl
  unfold Mach.krn tget
  rw [e]
  simp [tget, hj]

theorem test_witness_BanksAndBlocks :
    (let m := before_ false
     m.mayIssue = true ∧ (m.clu 0).gated = false ∧ (m.clu 0).fenced = false ∧ (m.clu 0).bank0 = 0 ∧ wantsBank 1 0 m ∧ (∀ j, j ≠ 1 → ¬ wantsBank j 0 m) ∧
       ∀ i ∈ coresOfCluster 0, m.granulesUsed i + granulesOf (m.krn 1).desc.recvBytes ≤ 512) ∧
    (let m := before_ true
     m.mayIssue = true ∧ m.considered 0 = [1] ∧ m.place (m.krn 1).desc 0 = some 0 ∧ (m.krn 1).replay = [] ∧ (m.krn 1).next = 0) ∧
    (let m := (before_ true).modKrn 1 (fun x => { x with next := 1, replay := [(0, 0)] })
     m.considered 0 = [1] ∧ m.place (m.krn 1).desc 0 = some 0 ∧ (0, 0) ∈ (m.krn 1).replay ∧ ∀ r ∈ (m.krn 1).replay, r.1 = 0 → 0 ≤ r.2) ∧
    (let m := { ((before_ true).modClu 0 (fun c => { c with live := 0 })).modKrn 1 (fun x => { x with holdSince := [(0, 1)] }) with clk := { base.clk with tide := [(4, 1000000)] } }
     1 ∈ m.considered 0 ∧ tget 0 (m.krn 1).holdSince 0 ≠ 0 ∧ tget 0 (m.krn 1).holdSince 0 - 1 + 1000000 ≤ m.now ∧ m.place (m.krn 1).desc 0 = none) := by
  refine ⟨⟨by decide, by decide, by decide, by decide, ⟨by decide, by decide, by decide⟩, fun j hj h => ?_, by decide +kernel⟩, by decide +kernel, by decide +kernel,
    by decide +kernel⟩
  have := h.1
  rw [no_krn false j hj] at this
  cases this

/-- Group 0 waits for counter `e`, of kind 1 or 2, to reach 1. -/
def starved (e : Nat) (tide : Tbl Nat) : Mach := { withGrp (fun x => { x with wait := .event e 1 false none 0 0 }) with clk := { base.clk with tide := tide } }

theorem test_witness_LaunchEnds :
    ((withGrp (fun x => { x with exited := true })).blockDone 0 = true ∧ (base.krn (base.blk 0).krn).live = true) ∧
    (let m := ({ base with groups := [], blocks := [] } : Mach).modKrn 1 (fun x => { x with ended := 1 })
     let x := m.krn 1
     x.live = true ∧ x.stopped = false ∧ x.next = x.total ∧ x.replay = [] ∧ x.total ≤ x.ended ∧ m.blocks = [] ∧ (m.part x.part).st ≠ .resetting ∧ x.fromStep = false ∧
       (m.modChan 40 (fun c => { c with cur := some (⟨0x0502, 1, [], 0, 0, false⟩, .krn 1 7 none) })).waiting
         (fun d => match d with | .krn p n _ => p == x.part && n == x.num | _ => false) = [(40, ⟨0x0502, 1, [], 0, 0, false⟩)]) ∧
    (let m := starved 2 [(0, 4001)]
     (m.core 0).halted = false ∧ m.busyOps 1 0 = false ∧ m.groupsOn 1 0 = [0] ∧ (m.grp 0).exited = false ∧
       (m.grp 0).waitsSince (m.krn 1) (m.core 0) [1] (m.coreTide 0 - 4000) = true ∧ tget 0 (m.krn 1).opTide 0 < m.coreTide 0 - 4000 ∧
       tget 0 (m.krn 1).leftTide 0 < m.coreTide 0 - 4000) ∧
    (let m := starved 0 [(0, 64001), (4, 64001)]
     (m.krn 1).netTide + 64000 < m.now ∧ m.sigs = [] ∧ m.mcasts = [] ∧ (m.krn 1).clusters = 1 ∧ 0 ∈ m.groupsOn 1 0 ∧ (m.grp 0).exited = false ∧
       ∀ l, l < 16 → m.busyOps 1 l = false ∧ (m.core l).halted = false ∧ tget 0 (m.krn 1).opTide l < m.coreTide l - 64000 ∧
         tget 0 (m.krn 1).leftTide l < m.coreTide l - 64000 ∧
         ∀ g ∈ m.groupsOn 1 l, (m.grp g).waitsSince (m.krn 1) (m.core l) [0, 1, 2] (m.coreTide l - 64000) = true) ∧
    (let m := { base.modClu 0 (fun c => { c with steps := 256000 }) with clk := { base.clk with tide := [(0, 200001), (4, 1)] } }
     (m.blk 0).live = true ∧ (m.core 0).halted = false ∧ (m.blk 0).launched + (m.blk 0).paused + 200000 < m.coreTide 0 ∧ (m.clu 0).stepsTide < m.now ∧
       (m.blk 0).stepsAt + (m.blk 0).pausedSteps + 256000 ≤ (m.clu 0).steps) :=
  ⟨by decide, by decide, by decide, by decide +kernel, by decide⟩

/-- The base device with its memory system changed. -/
def withMem (f : Mem → Mem) : Mach := { base with mem := f base.mem }

/-- A directory entry, an RLC line and a slice line of zeros. -/
def dirE (st : DirSt) (sharers : BitVec 8) (f : Nat) (host own : Bool) : DirEntry := ⟨st, sharers, f, host, own, 0⟩
def rl (st : RlcSt) : RlcLine := ⟨st, 0, false, 0, 0, 0⟩
def slice0 : LlcLine := ⟨5, true, false, 0, 0, 0, .invalid⟩

/-- A full directory set: 16 owned lines that share line 0's set. -/
def fullSet : Tbl DirEntry := (List.range 16).map (fun i => ((2 ^ 28 + 2 ^ 21) * (i + 1), dirE .ownedRlc 0 4 false false))

theorem test_witness_CoherenceRequests :
    (let m := withMem id
     CanAsk 2 0 m ∧ LineIdle 0 m ∧ m.rlcLine 2 0 = none ∧ m.dirOf 0 = none ∧ m.dirRoom 0 = true ∧ (homeValue m 0).2 = false ∧ m.moon.restart = 0) ∧
    (let m := withMem (fun a => { a with dir := fullSet })
     LineIdle 0 m ∧ m.rlcLine 2 0 = none ∧ m.dirOf 0 = none ∧ m.dirRoom 0 = false) ∧
    (let m := withMem (fun a => { a with dir := [(0, dirE .ownedRlc 0 4 false true)] })
     CanAsk 2 0 m ∧ LineIdle 0 m ∧ m.rlcLine 2 0 = none ∧ m.dirOf 0 = some (dirE .ownedRlc 0 4 false true)) ∧
    (let m := withMem (fun a => { a with rlc := [(rlcKey 2 0, rl .s)], dir := [(0, dirE .shared 0x0C 0 false false)] })
     CanAsk 2 0 m ∧ LineIdle 0 m ∧ m.rlcLine 2 0 = some (rl .s) ∧ m.dirOf 0 = some (dirE .shared 0x0C 0 false false) ∧
       (0x0C#8).getLsbD 2 = true ∧ (0x0C#8).getLsbD 3 = true) ∧
    (let m := withMem (fun a => { a with llc := [(0, slice0)] })
     LineIdle 0 m ∧ m.dirOf 0 = none ∧ tfind m.mem.llc 0 = some slice0 ∧ slice0.dirty = true) := by
  simp only [CanAsk, LineIdle]
  exact ⟨by decide +kernel, by decide +kernel, by decide +kernel, by decide +kernel, by decide +kernel⟩

/-- A snoop of RLC 2 for line 0 on behalf of RLC 3. -/
def snp (k : SnoopKind) : CohMsg := .snoop k 2 0 3 false 0

theorem test_witness_CoherenceHolders :
    (∀ k ∈ [SnoopKind.snpInv, .snpData, .recall],
      (let m := withMem (fun a => { a with msgs := [snp k], rlc := [(rlcKey 2 0, rl .m)] })
       m.snoopTo [k] 2 0 = some (snp k) ∧ NotGranted 2 0 m ∧ m.rlcLine 2 0 = some (rl .m)) ∧
      (let m := withMem (fun a => { a with msgs := [snp k], reqs := [⟨2, 0, .upgr, true, 1, 0, 0, false⟩] })
       m.snoopTo [k] 2 0 = some (snp k) ∧ ∃ r, m.mem.reqs.find? (fun r => r.rlc == 2 && r.line == 0) = some r ∧ r.served = true) ∧
      (let m := withMem (fun a => { a with msgs := [snp k], evicting := [(2, 0, .wb)] })
       m.snoopTo [k] 2 0 = some (snp k) ∧ NotGranted 2 0 m ∧ m.rlcLine 2 0 = none ∧ m.evictKind 2 0 = some .wb)) ∧
    (∀ k ∈ [SnoopKind.fwdS, .fwdX],
      let m := withMem (fun a => { a with msgs := [snp k], rlc := [(rlcKey 2 0, rl .m)],
                                          txns := [{ Txn.of ⟨.rdx, 3, 0⟩ with waits := [2], dataWait := true, forwarded := true }] })
      NotGranted 2 0 m ∧ m.firstDue 2 0 = false ∧ m.rlcLine 2 0 = some (rl .m) ∧ m.mem.homeQ = [] ∧ m.host.posted = [] ∧ m.snoopTo [.fwdS, .fwdX] 2 0 = some (snp k)) ∧
    (let m := withMem (fun a => { a with msgs := [.snoop .fwdX 2 0 3 true 0], rlc := [(rlcKey 2 0, rl .m)] })
     m.snoopTo [.fwdS, .fwdX] 2 0 = some (.snoop .fwdX 2 0 3 true 0) ∧ m.mem.txns = []) ∧
    (let m := withMem (fun a => { a with msgs := [.data .e 2 0 5 false 1], reqs := [⟨2, 0, .rds true, true, 1, 0, 0, false⟩] })
     m.mem.msgs.find? (fun c => match c with | .data _ h l _ _ _ => h == 2 && l == 0 | _ => false) = some (.data .e 2 0 5 false 1) ∧ m.mem.homeQ = [] ∧
       m.mem.txns = [] ∧ m.host.posted = [] ∧ m.mem.rlc = []) ∧
    (let m := withMem (fun a => { a with msgs := [.cmp 2 0, .wback 2 0], reqs := [⟨2, 0, .upgr, true, 1, 0, 0, false⟩], rlc := [(rlcKey 2 0, rl .f)],
                                         txns := [{ Txn.of ⟨.upgr, 2, 0⟩ with dataWait := true }] })
     .cmp 2 0 ∈ m.mem.msgs ∧ .wback 2 0 ∈ m.mem.msgs ∧ m.rlcLine 2 0 = some (rl .f) ∧ m.mem.homeQ = [] ∧ m.host.posted = []) := by
  refine ⟨fun k hk => ⟨?_, ⟨?_, ⟨_, rfl, rfl⟩⟩, ?_⟩, ?_, by decide +kernel, by decide +kernel, by decide +kernel⟩
  · simp only [NotGranted]; revert k; decide +kernel
  · revert k; decide +kernel
  · simp only [NotGranted]; revert k; decide +kernel
  · simp only [NotGranted]; decide +kernel

/-- A home that waits for one holder on line 0, with one message on the way. -/
def awaiting (q : HomeReq) (h : Nat) (c : CohMsg) (d : Option DirEntry) : Mach :=
  withMem (fun a => { a with msgs := [c], dir := d.toList.map (fun e => (0, e)), txns := [{ Txn.of q with waits := [h] }] })

theorem test_witness_CoherenceHomes :
    (let e := dirE .shared 0x04 0 false false
     let m := awaiting ⟨.rdx, 3, 0⟩ 2 (.rspI 2 0 0) (some e)
     m.dirOf 0 = some e ∧ e.sharers = 1#8 <<< 2 ∧ AwaitsOnly ⟨.rdx, 3, 0⟩ 2 m ∧ m.mem.msgs = [.rspI 2 0 0]) ∧
    (∀ c ∈ [CohMsg.rspS 2 0 0, .rspData 2 0 5 false 0],
      let e := dirE .ownedRlc 0 3 false false
      let m := awaiting ⟨.rdcur, 9, 0⟩ 2 c (some e)
      m.dirOf 0 = some e ∧ e.f = 2 + 1 ∧ AwaitsOnly ⟨.rdcur, 9, 0⟩ 2 m ∧ m.mem.msgs = [c] ∧ m.rlcLine 2 0 = none) ∧
    (∀ k ∈ [EvictKind.wb, .eve],
      let m := withMem (fun a => { a with msgs := [.evict k 2 0 5 false], dir := [(0, dirE .ownedRlc 0 3 false false)] })
      Owner 2 0 m ∧ m.mem.homeQ = [] ∧ m.host.posted = [] ∧ m.mem.msgs = [.evict k 2 0 5 false]) ∧
    (let e := dirE .shared 0x04 3 true false
     let m := withMem (fun a => { a with msgs := [.evict .evf 2 0 5 false], dir := [(0, e)] })
     m.dirOf 0 = some e ∧ e.host = true ∧ m.mem.msgs = [.evict .evf 2 0 5 false]) ∧
    (let m := awaiting ⟨.rdcur, 9, 0⟩ 2 (.wbInFlight 2 0 9 .m false 0) none
     m.dirOf 0 = none ∧ AwaitsOnly ⟨.rdcur, 9, 0⟩ 2 m ∧ m.mem.msgs = [.wbInFlight 2 0 9 .m false 0]) ∧
    (let m := withMem (fun a => { a with dir := [(0, dirE .shared 0x04 0 false false)] })
     m.up = true ∧ LineIdle 0 m ∧ m.dirOf 0 ≠ none) ∧
    (∀ c ∈ [CohMsg.rspI 2 0 0, .rspData 2 0 5 false 0],
      let m := withMem (fun a => { a with msgs := [c], txns := [{ Txn.of ⟨.rebuild, 9, 0⟩ with waits := [2], dirties := 1 }] })
      m.mem.homeQ = [] ∧ m.host.posted = [] ∧ tget 0 m.mem.hbmErr 0 = 0 ∧ m.moon.restart = 0 ∧ m.mem.msgs = [c]) ∧
    (let x : Tracker := ⟨2, 0, 1, 3, 4, false, 0⟩
     let m := { withMem (fun a => { a with trackers := [x] }) with clk := { base.clk with tide := [(4, 4000)] } }
     m.mem.trackers = [x] ∧ 4 ≤ x.count ∧ x.triggered = false ∧ x.lastMiss + 4000 ≤ m.now) ∧
    (let m := { withMem (fun a => { a with msgs := [.rspI 2 0 0] }) with clk := { base.clk with tide := [(4, 100000)] } }
     CohMsg.rspI 2 0 0 ∈ m.mem.msgs ∧ (CohMsg.rspI 2 0 0).since = some 0 ∧ 0 + 100000 ≤ m.now ∧ m.start.warmAt = 0 ∧
       m.pins.thermtrip = true ∧ m.start.phase = .ready) := by
  simp only [AwaitsOnly, LineIdle]
  refine ⟨by decide, by decide +kernel, ?_, by decide +kernel, by decide +kernel, by decide +kernel, by decide +kernel, by decide +kernel, by decide⟩
  intro k hk
  exact ⟨⟨_, rfl, rfl, rfl⟩, rfl, rfl, rfl⟩

/-- The base device with host port 0 in CXL configuration, and its memory system changed. -/
def cxl (f : Mem → Mem) : Mach := (withMem f).modLink 0 (fun h => { h with cxl := true })

theorem test_witness_HostCoherence :
    (let m := (cxl (fun a => { a with units := [(0, ⟨.hostPool, false, false⟩)] })).modHost (fun h => { h with hdm0 := ⟨true, false, 0, 2 ^ 30, 0⟩ })
     m.cxlUp = true ∧ m.hdmMaps 0 = true ∧ LineIdle 0 m ∧ m.dirOf 0 = none ∧ m.dirRoom 0 = true ∧ (homeValue m 0).2 = false ∧ m.bisnpOf 0 true = none ∧
       tget 0 m.mem.hbmErr 0 = 0 ∧ tfind m.mem.llc (hostKey 0) = none) ∧
    (∀ inv, (cxl (fun a => { a with msgs := [.bisnp inv 0 0 false] })).bisnpOf 0 false = some (.bisnp inv 0 0 false)) ∧
    (∀ inv,
      let e := dirE .ownedHost 0 0 true false
      let m := { cxl (fun a => { a with msgs := [.bisnp inv 0 0 true], dir := [(0, e)], txns := [{ Txn.of ⟨.rdcur, 9, 0⟩ with waits := [8] }] }) with clk := { base.clk with tide := [(4, 1000000)] } }
      m.bisnpOf 0 true = some (.bisnp inv 0 0 true) ∧ m.dirOf 0 = some e ∧ AwaitsOnly ⟨.rdcur, 9, 0⟩ 8 m ∧ 0 + 1000000 ≤ m.now) ∧
    (let m := cxl (fun a => { a with llc := [(hostKey 0, slice0)] })
     m.cxlUp = true ∧ tfind m.mem.llc (hostKey 0) = some slice0) ∧
    (let x : Txn := { Txn.of ⟨.rdcur, 9, hostKey 0⟩ with waits := [8] }
     (cxl (fun a => { a with txns := [x] })).txnOf (hostKey 0) = some x) := by
  simp only [LineIdle, AwaitsOnly]
  decide +kernel

/-- No block beyond slot 0 is resident in the base device. -/
theorem one_block {b : Nat} (h : (base.blk b).live = true) : b = 0 := by
  refine Decidable.byContradiction fun hb => ?_
  have e : base.blk b = Block.reset := by
    unfold Mach.blk tget
    simp [base, tget, hb]
  rw [e] at h
  cases h

theorem test_witness_FencesAndSpares :
    (base.up = true ∧ base.coreLive 0 = true ∧ base.coreLive 1 = true ∧ base.moon.restart = 0 ∧
      (∀ b, blockCore b = 0 → (base.blk b).live = true → (base.krn (base.blk b).krn).live = true) ∧ ∀ b, blockCore b = 1 → (base.blk b).live = false) ∧
    (let m : Mach := { base with clk := { base.clk with tide := [(0, 20000)] } }
     (m.core 0).halted = false ∧ (m.core 0).issueTide + 20000 ≤ m.coreTide 0 ∧ blockCore 0 = 0 ∧ (m.blk 0).live = true ∧ (m.blk 0).launched + 20000 ≤ m.coreTide 0) ∧
    (let m := base.modClu 1 (fun c => { c with live := 0x7FFF, pending := 15, pendingValid := true, spare := 16, spareValid := true, bank0 := 2 })
     (m.clu 1).fenced = false ∧ (m.clu 1).pendingValid = true ∧ (m.clu 1).spareValid = true ∧ m.blocksOfCluster 1 = [] ∧ 1 ∈ m.holders 1 ∧
       0 < granulesOf (m.krn 1).desc.recvBytes) ∧
    ((base.clu 1).fenced = false ∧ (∀ b, (base.blk b).live = true → clusterOf (blockCore b) ≠ 1) ∧ (base.krn 1).replay = []) ∧
    (let m := withGrp (fun x => { x with seeding := .seeded })
     (m.grp 0).live = true ∧ m.krnOf 0 = 1 ∧ CanAbort 1 m) := by
  refine ⟨⟨by decide, by decide, by decide, by decide, fun b _ h => ?_, fun b hb => ?_⟩, by decide, by decide, ⟨by decide, fun b h => ?_, by decide⟩, ?_⟩
  · rw [one_block h]; decide
  · cases h : (base.blk b).live with
    | false => rfl
    | true => rw [one_block h] at hb; cases hb
  · rw [one_block h]; decide
  · simp only [CanAbort]; decide

/-- The base device at a Tide of X0. -/
def atTide (m : Mach) (n : Nat) : Mach := { m with clk := { m.clk with tide := [(4, n)], locked := true } }

/-- A command of the port 0 physical function, whose address space maps partition 1's first pages; HBM holds these bytes. -/
def manager (ws : List Word) (l : Tbl Byte) : Mach :=
  { (mbox (.pf 0) ws).modPart 65 (fun q => { q with maps := [{ va := 0, len := 65536, target := 0, tgt := 0, access := 1, ownerOrd := false, large := false, stopped := false, aperture := 2 }] }) with
    mem := { base.mem with hbm := l } }

/-- A read that succeeds, with bytes that satisfy a condition. -/
def reads (v : VRead) (p : List Byte → Bool) : Bool := match v with | .ok b _ => p b | _ => false

/-- A write that succeeds. -/
def writes (v : VWrite) : Bool := match v with | .ok _ => true | _ => false

theorem test_witness_PatrolsAndRecords :
    (base.up = true ∧ base.patrolLine = 0 ∧ (base.unit 0).scrub = false ∧ tget 0 base.mem.hbmErr 0 = 0 ∧ base.goodCopy 0 = none ∧ base.moon.restart = 0 ∧
      (withMem (fun a => { a with llc := [(0, slice0)] })).goodCopy 0 = some 5) ∧
    ((∀ a ∈ [ArrayRef.slice 0, .rlc 7 0, .directory 0, .l1 1023 0, .localMemory 1023 0, .keyTable 0 1], arrayOk a = true ∧ arrayLineOk a = true) ∧
      (let m := withMem (fun a => { a with llc := [(0, slice0)] })
       m.settled 0 = true ∧ tfind m.mem.llc 0 = some slice0 ∧ slice0.dirty = true ∧ ∀ h, h < 8 → m.rlcLine h 0 = none) ∧
      (base.core 0).l1Way 0 = none ∧ (base.part 1).st = .running ∧
      (let m := (withMem (fun a => { a with rlc := [(rlcKey 2 0, rl .s)] })).modCore 256 (·.l1Fill 0 5)
       (m.core 256).l1Way 0 ≠ none ∧ halfOfCore 256 = 2 ∧ remoteFor 2 0 = true ∧ m.rlcLine 2 0 = some (rl .s))) ∧
    (let m := atTide { base with ras := { Ras.reset with mapDue := [(3, 1)], mapFails := [(3, 59)] } } 1000000000
     m.moonServes = true ∧ tget 0 m.ras.mapDue 3 ≠ 0 ∧ tget 0 m.ras.mapFails 3 = 59 ∧ tget 0 m.ras.mapDue 3 - 1 + 1000000000 ≤ m.now) ∧
    (∃ c m1, Sent 0x0901 (.pf 0) 0 c (manager [0x09010006, 0, 0, 64, 0, 128, 0] []) m1 ∧ Framed 24 4 [(0, 4), (8, 8), (16, 8)] c ∧
      writes (m1.vwrite 65 (c.f 8 8) ((fitRecs (c.f 16 8) (m1.logFor (.pf 0) (c.f 0 4))).flatMap RasRec.bytes)) = true) ∧
    ({ base with ras := { Ras.reset with oldest := 2 } } : Mach).ras.oldest = 2 ∧
    (∃ c m1, Sent 0x0902 (.pf 0) 0 c (mbox (.pf 0) [0x09020001, 3]) m1 ∧ Framed 4 0 [(0, 4)] c ∧ True) ∧
    (let r : CrashRec := ⟨0, 1, 2, 3, 4, [], 0⟩
     ∃ c m1, Sent 0x0903 (.pf 0) 0 c { manager [0x09030004, 0, 0, 0, 0] [] with moon := { base.moon with crashes := [r] } } m1 ∧ Framed 16 0 [(0, 2), (8, 8)] c ∧
       m1.moon.crashes.find? (fun r => r.index == c.f 0 2) = some r ∧ writes (m1.vwrite 65 (c.f 8 8) (List.replicate 192 0)) = true) :=
  ⟨by decide +kernel, by decide +kernel, by decide, sent (by decide +kernel), by decide, sent (by decide +kernel), sent (by decide +kernel)⟩

theorem test_witness_TideAndTelemetry :
    ((atTide base 0).clk.locked = true ∧ (atTide base 0).powered = true ∧ (atTide base 0).start.warmAt = 0 ∧ (atTide base 0).up = true) ∧
    (let fast : Half := { Half.reset with op := 4, tj := 95 }
     let m : Mach := { base with power := { base.power with halves := [(0, fast), (6, fast), (7, fast)] }, clk := { base.clk with tide := [(3, 403)] } }
     (∀ h ∈ [7, 6], 4 ≤ (m.half h).op ∧ (m.half h).tj ≤ 95) ∧ 0 + 120 + 2 < m.tideOf (7 / 2) ∧ (∀ h ∈ [7, 0], 4 ≤ (m.half h).op ∧ (m.half h).tj ≤ 95) ∧
       0 + 400 + 2 < m.tideOf (7 / 2) ∧ (m.half 5).op < 4) ∧
    ((atTide base 10000).now % 10000 = 0 ∧ deviates 2 60 0 = true ∧ (base.clu 0).gated = false ∧ (base.clu 0).poweredAt + 10000 ≤ (atTide base 10000).now ∧
      (base.half 0).op = 2 ∧ (atTide base 10000).opMoved 0 = false ∧ deviates 4 75 12820 = false) ∧
    (let m := atTide base 100000
     (m.clu 63).gated = false ∧ m.blocksOfCluster 63 = [] ∧ (∀ l, l < 16 → (m.core (16 * 63 + l)).halted = false) ∧ (m.clu 63).idleSince + 100000 ≤ m.now ∧
       (m.part (m.clu 63).owner).sb.running = false) ∧
    (let m := (before_ false).modClu 0 (fun c => { c with gated := true })
     (m.clu 0).gated = true ∧ m.start.d3hot = false ∧ (m.krn 1).more 0 = true ∧ m.mayLaunch (m.krn 1) = true) := by
  decide +kernel

/-- The base device with its security state changed. -/
def withSec (m : Mach) (f : Sec → Sec) : Mach := { m with sec := f m.sec }

/-- A key package (R501) of generation 2 for serial number 0. -/
def package : Tbl Byte := [(0, 0x48), (1, 0x50), (2, 0x4B), (3, 0x55), (5, 1), (8, 2)]

theorem test_witness_SecurityStates :
    (base.sec.trngOk = true ∧ (withSec base (fun x => { x with trngOk := false })).sec.trngOk = false ∧ ∀ p, p < 65 → (base.part p).flr = .none) ∧
    (∃ c m1, Sent 0x0A01 (.pf 0) 0 c (withSec (manager [0x0A010003, 0, 0, 7668] package) (fun x => { x with life := .deployed, vaultA := { VaultSlot.reset with gen := 1, valid := true } })) m1 ∧
      Framed 12 0 [(0, 8), (8, 4)] c ∧ m1.sec.life = .deployed ∧ c.f 8 4 = 7668 ∧
      reads (m1.vread 65 (c.f 0 8) 7668 .read) (fun p => packageShape p && fieldAt p 16 16 == m1.sec.serial.toNat && fieldAt p 8 8 == 2) = true ∧
      m1.sec.recovery = false ∧ m1.sec.best = 1) ∧
    (∃ c m1, Sent 0x0A02 (.pf 0) 0 c (manager [0x0A020004, 0, 0, 4819, 1] []) m1 ∧ Framed 13 0 [(0, 8), (8, 4), (12, 1)] c ∧ m1.flrRuns = false ∧
      m1.sec.life ≠ .deployed ∧ m1.sec.level = .none ∧ c.f 8 4 = 4819 ∧ c.f 12 1 = 1 ∧ (m1.fnSt 0).d3hot = false ∧
      reads (m1.vread 65 (c.f 0 8) 4819 .read) (fun tok => !m1.tokenOk 1 m1.sec.life.debugSigner tok) = true) ∧
    (∃ c m1, Sent 0x0A03 (.pf 0) 0 c (withSec (mbox (.pf 0) [0x0A030000]) (fun x => { x with level := .observe })) m1 ∧ Framed 0 0 [] c ∧ m1.sec.level ≠ .none ∧
      m1.start.warmAt = 0 ∧ m1.pins.thermtrip = true ∧ m1.start.phase = .ready) ∧
    (let m := withSec (atTide base 5) (fun x => { x with level := .invasive, expiry := 5 })
     m.sec.level ≠ .none ∧ m.sec.expiry ≠ 0 ∧ m.sec.expiry ≤ m.now) ∧
    (∃ c m1, Sent 0x0A04 (.pf 0) 0 c (manager [0x0A040005, 1, 0, 0, 0, 4819] []) m1 ∧ Framed 20 0 [(0, 1), (8, 8), (16, 4)] c ∧ m1.flrRuns = false ∧
      lifeOf (c.f 0 1) = some .provisioned ∧ (m1.fnSt 0).d3hot = false ∧ moveSigner m1.sec.life .provisioned = some .umaeno ∧ c.f 16 4 = 4819 ∧
      m1.mappedFor 65 .read (c.f 8 8) (c.f 16 4) = true) ∧
    (∃ c m1, Sent 0x0A04 (.pf 0) 0 c (manager [0x0A040005, 2, 0, 0, 0, 4819] []) m1 ∧ Framed 20 0 [(0, 1), (8, 8), (16, 4)] c ∧
      lifeOf (c.f 0 1) = some .deployed ∧ moveSigner m1.sec.life .deployed = none) :=
  ⟨by decide, sent (by decide +kernel), sent (by decide +kernel), sent (by decide +kernel), by decide, sent (by decide +kernel), sent (by decide +kernel)⟩

theorem test_witness_PagesMapped :
    (∃ c m1, Sent 0x0301 (.vf 0 1) 0 c (sends [0x03010007, 0x20000, 0, 0x20000, 0, 0x10000, 0, 4]) m1 ∧ Framed 28 0 [(0, 8), (8, 8), (16, 8), (24, 4)] c ∧
      m1.mapInvalid 1 (newRange c).va (newRange c).tgt (newRange c).len (c.f 24 4) = none ∧ (newRange c).target = 0 ∧
      (∀ g ∈ m1.allotPages 1 (newRange c).tgt (newRange c).len, (m1.unit (g / 16384)).scrub = false) ∧
      (match m1.recallPages ((m1.allotPages 1 (newRange c).tgt (newRange c).len).filter (fun g => tget false m1.mem.pageOrd g != (newRange c).ownerOrd)) with
        | .done _ _ => true | .waits _ => false) = true) ∧
    (∃ c m1, Sent 0x0301 (.vf 0 1) 0 c (sends [0x03010007, 0x20000, 0, 0x20000, 0, 0x10000, 0, 5]) m1 ∧ Framed 28 0 [(0, 8), (8, 8), (16, 8), (24, 4)] c ∧
      m1.mapInvalid 1 (newRange c).va (newRange c).tgt (newRange c).len (c.f 24 4) = none ∧ (newRange c).target ≠ 0 ∧ tableRanges (m1.part 1).maps < 4096) ∧
    (∃ c m1, Sent 0x0301 (.vf 0 1) 0 c (sends [0x03010007, 1, 0, 0, 0, 0x10000, 0, 4]) m1 ∧ Framed 28 0 [(0, 8), (8, 8), (16, 8), (24, 4)] c ∧
      m1.mapInvalid 1 (newRange c).va (newRange c).tgt (newRange c).len (c.f 24 4) = some 0) ∧
    (∃ c m1, Sent 0x0302 (.vf 0 1) 0 c (sends [0x03020004, 0, 0, 0x10000, 0]) m1 ∧ Framed 16 0 [(0, 8), (8, 8)] c ∧ m1.rangeInvalid 1 (c.f 0 8) (c.f 8 8) = none ∧
      tableRanges (editMaps (m1.part 1).maps (c.f 0 8) (c.f 8 8) (fun _ => none)) ≤ 4096) ∧
    (∃ c m1, Sent 0x0303 (.vf 0 1) 0 c (sends [0x03030005, 0, 0, 0x10000, 0, 2]) m1 ∧ Framed 20 0 [(0, 8), (8, 8), (16, 4)] c ∧ c.f 16 4 ≤ 2 ∧
      m1.rangeInvalid 1 (c.f 0 8) (c.f 8 8) = none ∧ tableRanges (editMaps (m1.part 1).maps (c.f 0 8) (c.f 8 8) some) ≤ 4096) ∧
    (∃ c m1, Sent 0x0304 (.vf 0 1) 0 c (sends [0x03040004, 0, 0, 128, 0]) m1 ∧ Framed 16 0 [(0, 8), (8, 8)] c ∧ c.f 0 8 + c.f 8 8 ≤ 2 ^ 52 ∧
      m1.mappedFor 1 .read (c.f 0 8) (c.f 8 8) = true ∧ writes (m1.vflush 1 (c.f 0 8) (c.f 8 8) .read) = true) :=
  ⟨sent (by decide +kernel), sent (by decide +kernel), sent (by decide +kernel), sent (by decide +kernel), sent (by decide +kernel), sent (by decide +kernel)⟩

theorem test_witness_PagesReleased :
    (let x : Shoot := ⟨4, 1, 0, 65536, .unmap (.vf 0 1) 0, [5], [(2, 9)]⟩
     (let m := withMem (fun a => { a with shoots := [x] })
      m.mem.shoots.find? (fun y => y.id == x.id) = some x ∧ m.ops = [] ∧ m.mem.reqs = []) ∧
     (let m := { withMem (fun a => { a with shoots := [x] }) with ops := [lop .load] }
      m.mem.shoots.find? (fun y => y.id == x.id) = some x ∧ ∃ o ∈ m.ops, o.id ∈ x.waits ∧ ∃ l ∈ o.lanes, l.done = false) ∧
     let m := withMem (fun a => { a with shoots := [x], reqs := [⟨2, 9, .rds true, true, 1, 0, 0, false⟩] })
     m.mem.shoots.find? (fun y => y.id == x.id) = some x ∧ ∃ r ∈ m.mem.reqs, r.kind = .rds true ∧ (r.rlc, r.line) ∈ x.fetches) ∧
    (∃ c m1, Sent 0x0305 (.pf 0) 0 c (mbox (.pf 0) [0x03050001, 2]) m1 ∧ Framed 2 0 [(0, 2)] c ∧ m1.poolUnits = [] ∧ c.f 0 2 ≤ m1.freeUnits.length) ∧
    (∃ c m1, Sent 0x0305 (.pf 0) 0 c (mbox (.pf 0) [0x03050001, 300]) m1 ∧ Framed 2 0 [(0, 2)] c ∧ m1.poolUnits.length + m1.freeUnits.length < c.f 0 2) ∧
    (∃ c m1, Sent 0x0305 (.pf 0) 0 c { mbox (.pf 0) [0x03050001, 0] with mem := { base.mem with units := [(0, ⟨.part 1, false, false⟩), (1, ⟨.hostPool, false, false⟩)] }, host := { (mbox (.pf 0) [0x03050001, 0]).host with pool := 1 } } m1 ∧
      Framed 2 0 [(0, 2)] c ∧ c.f 0 2 < m1.poolUnits.length ∧ m1.host.hdm0.covers (c.f 0 2 * 2 ^ 30) = false ∧ m1.host.hdm1.covers (c.f 0 2 * 2 ^ 30) = false) ∧
    ((1, 7) ∈ (withMem (fun a => { a with atsWait := [(1, 7)] })).mem.atsWait ∧ base.mem.atsInv = [] ∧ (base.part 1).link = 0) ∧
    (let o : MemOp := { lop .load with lanes := [{ lane := 0, addr := 0x10000, tgt := .host 0x70000, data := 0, swap := 0, sent := true, done := false, noFill := false }], space := .global }
     let m := { withMem (fun a => { a with atc := [(atcKey 0 1 3, 8)] }) with ops := [o] }
     o ∈ m.ops ∧ o.part = 1 ∧ (∃ l ∈ o.lanes, l.done = false ∧ l.tgt = .host 0x70000) ∧ tfind m.mem.atc (atcKey (m.atcDie 1) 1 3) = some (0x70000 / 65536 + 1)) ∧
    (32 ≤ (withMem (fun a => { a with atsInv := List.replicate 32 (1, 0, 1) })).mem.atsInv.countP (fun e => e.1 == 1)) ∧
    (let m := withMem (fun a => { a with units := [(0, ⟨.part 1, true, false⟩)] })
     m.scrubUnit = some 0 ∧ m.mem.txns = [] ∧ m.mem.msgs = [] ∧ m.mem.homeQ = [] ∧ m.mem.dir = [] ∧ (m.unit 0).scrub = true ∧ m.moon.restart = 0) :=
  ⟨by decide, sent (by decide +kernel), sent (by decide +kernel), sent (by decide +kernel), by decide, by decide, by decide, by decide⟩

theorem test_witness_RegisterAccesses :
    base.barGate (.pf 0) = .open_ ∧ base.barGate (.vf 0 1) = .open_ ∧ base.behind (.pf 0) = false ∧ base.behind (.vf 0 1) = false ∧
    (base.queueHost (.pf 0) (.reg 0 4 0)).behind (.pf 0) = true ∧ (base.queueHost (.pf 0) (.reg 0 4 0)).barGate (.pf 0) = .open_ ∧
    (base.modFn 5 (fun f => { f with mse := false })).barGate (.vf 0 1) = .ur ∧ inBlock (.pf 0) 0 = true ∧ inBlock (.vf 0 1) 0 = true ∧
    readOnlyPf 0 ∧ inBlock (.vf 0 1) 0x3FFFFFF = false ∧ (base.fnSt 0).pba = [] ∧
    (base.fnSt 0).tdisp = .unlocked ∧ (base.part 1).link = 0 ∧ base.sec.level ≠ .invasive ∧
    (withSec base (fun x => { x with level := .invasive })).sec.level = .invasive ∧ (0 : Nat) < hbmLines := by
  simp only [readOnlyPf]
  decide

theorem test_witness_HostTraffic :
    (fnOk (.vf 0 1) = true ∧ 0 + 64 ≤ (base.fnSt 5).bar2 * 2 ^ 30 ∧ base.barGate (.vf 0 1) = .open_ ∧ base.barPieces 1 0x20000 64 .read = none ∧
      (match base.barPieces 1 0 64 .read with | some l => (match readPieces false 1 l base with | .done (b, po) _ => b.length == 64 && !po | _ => false) | none => false) = true ∧
      (match base.barPieces 1 0 2 .write with
        | some l => l.all (fun x => (base.putWaits none x.1 x.2.1).isNone) && (match writePieces 1 [1, 2] l base with | .done _ _ => true | _ => false)
        | none => false) = true ∧ base.host.posted = []) ∧
    (let m := withMem (fun a => { a with msgs := [.cmp 2 0], dir := [(0, dirE .ownedRlc 0 4 false false)] })
     (match m.barPieces 1 0 64 .read with | some l => (match readPieces false 1 l m with | .waits _ => true | _ => false) | none => false) = true ∧
     (match m.barPieces 1 0 2 .write with | some l => (l.findSome? (fun x => m.putWaits none x.1 x.2.1)).isSome | none => false) = true) ∧
    (let m := withMem (fun a => { a with hbmPoison := [(0, true)] })
     (match m.barPieces 1 0 64 .read with | some l => (match readPieces false 1 l m with | .done (_, po) _ => po | _ => false) | none => false) = true) ∧
    ((base.modFn 5 (fun f => { f with mse := false })).barGate (.vf 0 1) = .ur ∧ base.barPieces 1 0x20000 2 .write = none) ∧
    (base.linkExists 0 = true ∧ (base.hlink 0).up = true ∧ (base.hlink 0).cfgReady = true ∧ base.present (.vf 0 2) = false ∧
      ((base.modLink 0 (fun h => { h with cfgReady := false })).hlink 0).cfgReady = false) ∧
    (CfgReached (.vf 0 1) base ∧ CfgReached (.pf 0) base ∧ (base.fnSt 5).pba = [] ∧
      (let m := base.modFn 5 (fun f => { f with pba := [(7, true)], table := [(7, ⟨64, 5, false⟩)] })
       CfgReached (.vf 0 1) m ∧ (m.fnSt 5).pba = [(7, true)] ∧ (m.fnSt 5).msixMask = false ∧ (m.fnSt 5).d3hot = false ∧ (m.fnSt 5).mse = true ∧
         (tget msixNone (m.fnSt 5).table 7).masked = false)) ∧
    ((base.fnSt 5).tdisp = .unlocked ∧ ((base.modFn 5 (fun f => { f with tdisp := .run })).fnSt 5).tdisp = .run ∧ base.present (.vf 0 1) = true) ∧
    (isPow2 256 = true ∧ (64 : Nat) ≤ 64 ∧ base.bound 0 1 = true) ∧
    (let m := (cxl id).modHost (fun h => { h with pool := 1 })
     CfgReached (.pf 0) m ∧ (m.hlink 0).cxl = true ∧ (m.host.hdm 1).committed = false ∧ (m.host.hdm 0).committed = false ∧ 0 + 2 ^ 28 ≤ m.host.pool * 2 ^ 30) := by
  simp only [CfgReached]
  decide +kernel

theorem test_witness_HostLinkEvents :
    (let m := atTide (base.modLink 0 (fun h => { h with up := false })) 300000
     m.linkExists 0 = true ∧ (m.hlink 0).up = false ∧ (m.hlink 0).perst = false ∧ m.clk.locked = true ∧ 300000 ≤ m.now ∧ m.start.phase ≠ .held ∧ trained 0 64 16 = true) ∧
    ((base.hlink 0).up = true ∧ base.start.d3hot = false) ∧
    (let m := atTide (base.modLink 0 (fun h => { h with up := false, downAt := 1 })) 10000000
     (m.hlink 0).up = false ∧ (m.hlink 0).downAt ≠ 0 ∧ (m.hlink 0).downAt - 1 + 10000000 ≤ m.now ∧ m.start.d3hot = false) ∧
    (let m := { base.modLink 0 (fun h => { h with cfgReady := false }) with start := { base.start with phase := .run 6 } }
     m.linkExists 0 = true ∧ (m.hlink 0).up = true ∧ (m.hlink 0).cfgReady = false ∧ m.cfgPhase = true ∧ m.start.phase = .run 6 ∧ (∀ i, i < 4 → i ≠ 0 → (m.hlink i).up = false) ∧
       (let n := m.modLink 1 (fun _ => { hostUp with cfgReady := false })
        (n.hlink 0).up = true ∧ (n.hlink 1).up = true ∧ (n.hlink 1).cfgReady = false)) ∧
    (base.up = true ∧ base.flrRuns = false ∧ (base.part 1).st = .running ∧ (base.part 1).freezing = 0 ∧ base.hasHalted 1 = false) ∧
    (let m := atTide { base.modPart 1 (fun q => { q with freezing := 1, d3Froze := true }) with start := { base.start with d3hot := true } } 1000000000
     m.start.d3hot = true ∧ (m.part 1).d3Froze = true ∧ (m.part 1).freezing ≠ 0 ∧ (m.part 1).st = .running ∧ (m.part 1).freezing - 1 + 1000000000 ≤ m.now) ∧
    (let m := { base.modFn 0 (fun f => { f with d3hot := true }) with start := { base.start with d3hot := true } }
     m.up = true ∧ (m.hlink 0).up = true ∧ (m.fnSt 0).d3hot = true) := by
  decide +kernel

/-- The base device with an SPDM session on port 0, a secure stream, and VF 1's interface in a TDISP state. -/
def tdi (x : Tdisp) : Mach := (base.modLink 0 (fun h => { h with session := true, ide := [(1, ⟨5, true⟩)] })).modFn 5 (fun f => { f with tdisp := x })

theorem test_witness_InterfaceSecurity :
    ((base.part 1).st ≠ .absent ∧ base.vfKey 1 = 5 ∧ ∀ x ∈ [Tdisp.unlocked, .locked, .run, .error],
      ((tdi x).fnSt 5).tdisp = x ∧ ((tdi x).hlink 0).session = true ∧ (tget ⟨0, false⟩ ((tdi x).hlink 0).ide 1).secure = true) ∧
    (let m := (tdi .run).modFn 5 (fun f => { f with stream := 2, via := 3 })
     (m.fnSt 5).tdisp = .run ∧ (m.fnSt 5).via ≠ (m.fnSt 5).stream) ∧
    (streamOk 0 8 = true ∧ streamOk 3 4 = true ∧ ((tdi .run).hlink 0).up = true ∧ (base.hlink 0).session = false ∧ streamOk 0 9 = true ∧ (cxl id).hlink 0 ≠ base.hlink 0 ∧
      ((cxl id).hlink 0).cxl = true ∧ streamOk 1 0 = true ∧
      (tget ⟨0, false⟩ ((base.modLink 2 (fun h => { h with ide := [(0, ⟨5, true⟩)] })).hlink 2).ide 0).secure = true) ∧
    (base.cfgOpen (.pf 0) = true ∧ base.moonServes = true ∧ base.sec.life = .blank ∧ (withSec base (fun x => { x with life := .deployed })).sec.life ≠ .blank ∧
      (doeProtocols 0)[(base.hlink 0).doe]? = some (1, 0) ∧ ((base.modLink 0 (fun h => { h with spdm := true })).hlink 0).spdm = true) := by
  decide

theorem test_witness_PartitionsMade :
    (∃ c m1, Sent 0x0201 (.pf 0) 0 c (mbox (.pf 0) [0x02010007, 0x00010002, 0x0000FFFF, 2, 0, 8, 0, 0]) m1 ∧
      Framed 28 0 [(0, 1), (1, 1), (2, 2), (4, 2), (6, 2), (8, 8), (16, 2), (20, 2), (22, 2), (24, 2), (26, 2)] c ∧
      (createReq c).invalid = none ∧ (createReq c).part = 2 ∧ (m1.part 2).st = .absent ∧ m1.linkExists (createReq c).link = true ∧ m1.lacks (createReq c) = none ∧
      m1.sec.trngOk = true) ∧
    (∃ c m1, Sent 0x0201 (.pf 0) 0 c (mbox (.pf 0) [0x02010007, 0x00010041, 0x0000FFFF, 2, 0, 8, 0, 0]) m1 ∧
      Framed 28 0 [(0, 1), (1, 1), (2, 2), (4, 2), (6, 2), (8, 8), (16, 2), (20, 2), (22, 2), (24, 2), (26, 2)] c ∧ (createReq c).invalid = some 0) ∧
    (∃ c m1, Sent 0x0201 (.pf 0) 0 c (mbox (.pf 0) [0x02010007, 0x00010002, 0x0000FFFF, 1, 0, 8, 0, 0]) m1 ∧
      Framed 28 0 [(0, 1), (1, 1), (2, 2), (4, 2), (6, 2), (8, 8), (16, 2), (20, 2), (22, 2), (24, 2), (26, 2)] c ∧ (createReq c).invalid = none ∧
      m1.lacks (createReq c) = some 1) ∧
    (∃ c m1, Sent 0x0202 (.pf 0) 0 c (mbox (.pf 0) [0x02020001, 1]) m1 ∧ Framed 1 0 [(0, 1)] c ∧ c.f 0 1 = 1 ∧ (m1.part 1).st = .running ∧ m1.locked 1 = false) ∧
    (∀ x ∈ [PartSt.running, .resetting], ∃ c m1, Sent 0x0201 (.pf 0) 0 c ((mbox (.pf 0) [0x02010007, 0x00010001, 0x0000FFFF, 2, 0, 8, 0, 0]).modPart 1 (fun q => { q with st := x })) m1 ∧
      Framed 28 0 [(0, 1), (1, 1), (2, 2), (4, 2), (6, 2), (8, 8), (16, 2), (20, 2), (22, 2), (24, 2), (26, 2)] c ∧ (createReq c).invalid = none ∧ (createReq c).part = 1 ∧
      (m1.part 1).st = x) ∧
    (∃ c m1, Sent 0x0202 (.pf 0) 0 c ((mbox (.pf 0) [0x02020001, 1]).modFn 5 (fun f => { f with tdisp := .run })) m1 ∧ Framed 1 0 [(0, 1)] c ∧ c.f 0 1 = 1 ∧
      m1.locked 1 = true) ∧
    (∃ c m1, Sent 0x0203 (.vf 0 1) 0 c (mbox (.vf 0 1) [0x02030001, 0]) m1 ∧ Framed 1 22 [(0, 1)] c ∧ True) :=
  ⟨sent (by decide +kernel), sent (by decide +kernel), sent (by decide +kernel), sent (by decide +kernel),
    by simp only [List.forall_mem_cons, List.not_mem_nil, false_implies, implies_true, and_true]; exact ⟨sent (by decide +kernel), sent (by decide +kernel)⟩,
    sent (by decide +kernel), sent (by decide +kernel)⟩

/-- The base device with a reset of partition 1 in the given phase, at a Tide. -/
def flr (x : Flr) (doomed : Bool) (tide : Nat) : Mach := atTide (base.modPart 1 (fun q => { q with st := .resetting, flr := x, doomed := doomed })) tide

theorem test_witness_FunctionLevelResets :
    (base.up = true ∧ (base.part 1).st = .running) ∧
    (let m := flr (.quiesce 0) false 200000
     (m.part 1).st = .resetting ∧ (m.part 1).flr = .quiesce 0 ∧ 0 + 200000 ≤ m.now ∧ (m.blk 0).live = true ∧ m.krnPart (m.blk 0).krn = 1) ∧
    (let m := { flr (.quiesce 0) false 0 with blocks := [] }
     m.blocksOfPart 1 = [] ∧ m.moonServes = true ∧ m.storesInFlight 1 = false) ∧
    (∀ d, let m := flr (.quiet 0 false) d 0
      (m.part 1).flr = .quiet 0 false ∧ m.moonServes = true ∧ (m.part 1).doomed = d) ∧
    (let m := flr (.quiesce 0) false 10000001
     (∃ t0, ((m.part 1).flr = .quiesce t0 ∨ (m.part 1).flr = .quiet t0 false) ∧ m.flrLimit t0 < m.now) ∧ m.moon.restart = 0 ∧ m.moon.ended = []) ∧
    ((flr (.quiesce 0) false 10000000).now ≤ (flr (.quiesce 0) false 10000000).flrLimit 0 ∧ ((flr (.quiet 0 true) false 0).part 1).flr = .quiet 0 true) ∧
    (∃ a b, ({ base with moon := { base.moon with ended := [(3, 7)] } } : Mach).moon.ended = [(a, b)] ∧ 5 < b) ∧
    ({ base with moon := { base.moon with restart := 4 } } : Mach).moon.restart ≠ 0 := by
  refine ⟨by decide +kernel, by decide +kernel, by decide +kernel, by decide +kernel, ⟨⟨0, .inl (by decide +kernel), by decide +kernel⟩, by decide +kernel⟩, by decide +kernel,
    ⟨3, 7, rfl, by decide⟩, by decide⟩

/-- An access that completes. -/
def isDone {α : Type} (p : Perf α) : Bool := match p with | .done _ _ => true | _ => false

theorem test_witness_Migration :
    (∃ c m1, Sent 0x0204 (.pf 0) 0 c (manager [0x02040001, 1] []) m1 ∧ Framed 1 8 [(0, 1)] c ∧ c.f 0 1 = 1 ∧ (m1.part 1).st = .running ∧ (m1.part 1).freezing = 0) ∧
    (∃ c m1, Sent 0x0205 (.pf 0) 0 c (manager [0x02050006, 1, 0, 0, 0, 80, 0] [] |>.modPart 1 (fun q => { q with st := .frozen })) m1 ∧
      Framed 24 8 [(0, 1), (8, 8), (16, 8)] c ∧ (m1.part 1).st = .frozen ∧ m1.mem.shoots = [] ∧ m1.vault = none) ∧
    (∃ c m1, Sent 0x0205 (.pf 0) 0 c (withSec (manager [0x02050006, 1, 0, 0, 0, 8, 0] [] |>.modPart 1 (fun q => { q with st := .frozen })) (fun x => { x with loaded := 1 })) m1 ∧
      Framed 24 8 [(0, 1), (8, 8), (16, 8)] c ∧ (m1.part 1).st = .frozen ∧ m1.vault = some VaultSlot.reset ∧ c.f 16 8 < 80) ∧
    (∀ run, ∃ c m1, Sent 0x0206 (.pf 0) 0 c ((manager [0x02060006, 1, 0, 0, 0, 80, 0] []).modFn 5 (fun f => { f with tdisp := if run then .run else .unlocked })) m1 ∧
      Framed 24 0 [(0, 1), (8, 8), (16, 8)] c ∧ m1.locked 1 = run ∧ m1.krnsOfPart 1 ≠ []) ∧
    (∀ high ∈ [(0 : Word), 0x80000000], ∃ c m1, Sent 0x0206 (.pf 0) 0 c { manager [0x02060006, 1, 0, 0, 0, 79, high] [] with krns := [] } m1 ∧
      Framed 24 0 [(0, 1), (8, 8), (16, 8)] c ∧ m1.locked 1 = false ∧ m1.krnsOfPart 1 = [] ∧ (c.f 16 8 < 80 ∨ 2 ^ 52 < c.f 16 8)) ∧
    (∃ c m1, Sent 0x0206 (.pf 0) 0 c { manager [0x02060006, 1, 0, 0, 0, 80, 0] [(0, 0x48), (1, 0x50), (2, 0x4D), (3, 0x42), (5, 1), (8, 80)] with krns := [] } m1 ∧
      Framed 24 0 [(0, 1), (8, 8), (16, 8)] c ∧ m1.locked 1 = false ∧ m1.krnsOfPart 1 = [] ∧ 80 ≤ c.f 16 8 ∧ c.f 16 8 ≤ 2 ^ 52 ∧ m1.vault = none ∧
      reads (m1.vread 65 (c.f 8 8) (c.f 16 8) .read) (fun b => fieldAt b 0 4 == 0x424D5048 && fieldAt b 4 2 == 0x0100 && fieldAt b 8 8 == 80) = true) ∧
    (∃ c m1, Sent 0x0207 (.pf 0) 0 c (manager [0x02070001, 1] [] |>.modPart 1 (fun q => { q with st := .frozen })) m1 ∧ Framed 1 0 [(0, 1)] c ∧
      (m1.part 1).st = .frozen ∧ m1.waiting (fun _ => true) = []) ∧
    (∃ c m1, Sent 0x0207 (.pf 0) 0 c (manager [0x02070001, 1] [] |>.modPart 1 (fun q => { q with st := .frozen, restored := [1], srcMask := 2 }) |>.modKrn 1 (fun k => { k with total := 2 })) m1 ∧
      Framed 1 0 [(0, 1)] c ∧ m1.waiting (fun _ => true) = [] ∧ (m1.part 1).restored = [1] ∧ (m1.part 1).srcMask ≠ (m1.part 1).clusters ∧ (m1.krn 1).next < (m1.krn 1).total) ∧
    (∃ c m1, Sent 0x0208 (.pf 0) 0 c (manager [0x02080001, 1] []) m1 ∧ Framed 1 0 [(0, 1)] c ∧ c.f 0 1 = 1) ∧
    (∃ c m1, Sent 0x020A (.pf 0) 0 c (manager [0x020A0001, 1] []) m1 ∧ Framed 1 0 [(0, 1)] c ∧ c.f 0 1 = 1) ∧
    (∃ c m1, Sent 0x0209 (.pf 0) 0 c (manager [0x02090008, 1, 0, 0, 0, 64, 0, 0, 0] []) m1 ∧ Framed 32 0 [(0, 1), (8, 8), (16, 8), (24, 8)] c ∧ c.f 8 8 % 64 = 0 ∧
      c.f 16 8 % 64 = 0 ∧ c.f 8 8 + c.f 16 8 ≤ 16384 * (m1.unitsOf 1).length ∧ writes (m1.vwrite 65 (c.f 24 8) (logBitmap (m1.part 1).log (c.f 8 8) (c.f 16 8))) = true) ∧
    (∃ c m1, Sent 0x020B (.pf 0) 0 c (mbox (.pf 0) [0x020B0004, 1, 0, 0, 0]) m1 ∧ Framed 16 0 [(0, 1), (1, 1), (8, 8)] c ∧ c.f 1 1 = 0 ∧ c.f 8 8 % 2 ^ 21 = 0 ∧
      m1.locked 1 = false ∧ (∀ u ∈ m1.unitsOf 1, (m1.unit u).scrub = false) ∧ (m1.part 65).maps = [] ∧ m1.mem.pageOrd = [] ∧
      (∀ r ∈ (m1.part 1).maps, r.target = 0 → r.ownerOrd = false) ∧
      isDone (m1.recallPages ((m1.allotPages 1 0 (2 ^ 30)).filter (fun g => tget false m1.mem.pageOrd g))) = true) ∧
    (∀ run, ∃ c m1, Sent 0x020B (.pf 0) 0 c (((mbox (.pf 0) [0x020B0004, 1, 0, 0, 0]).modFn 5 (fun f => { f with tdisp := if run then .run else .unlocked })).modMem (fun a => { a with units := [(0, ⟨.part 1, true, false⟩)] })) m1 ∧
      Framed 16 0 [(0, 1), (1, 1), (8, 8)] c ∧ c.f 1 1 = 0 ∧ c.f 8 8 % 2 ^ 21 = 0 ∧ c.f 8 8 + (m1.unitsOf 1).length * 2 ^ 30 ≤ 2 ^ 52 ∧ m1.locked 1 = run ∧
      ∃ u ∈ m1.unitsOf 1, (m1.unit u).scrub = true) ∧
    (∃ c m1, Sent 0x020B (.pf 0) 0 c (manager [0x020B0004, 0x101, 0, 0, 0] []) m1 ∧ Framed 16 0 [(0, 1), (1, 1), (8, 8)] c ∧ c.f 1 1 = 1 ∧ m1.locked 1 = false ∧
      ((m1.aperturesOf 1).find? (fun r => r.va == c.f 8 8 && !r.stopped)).isSome = true) ∧
    (let m := atTide (base.modPart 1 (fun q => { q with freezing := 1 })) 1000000000
     (m.part 1).st = .running ∧ (m.part 1).freezing ≠ 0 ∧ (m.part 1).d3Froze = false ∧ (m.part 1).freezing - 1 + 1000000000 ≤ m.now ∧
       ({ m with blocks := [] } : Mach).blocksOfPart 1 = []) :=
  ⟨sent (by decide +kernel), sent (by decide +kernel), sent (by decide +kernel), fun run => by cases run <;> exact sent (by decide +kernel),
    by simp only [List.forall_mem_cons, List.not_mem_nil, false_implies, implies_true, and_true]; exact ⟨sent (by decide +kernel), sent (by decide +kernel)⟩,
    sent (by decide +kernel), sent (by decide +kernel), sent (by decide +kernel), sent (by decide +kernel), sent (by decide +kernel), sent (by decide +kernel),
    sent (by decide +kernel), fun run => by cases run <;> exact sent (by decide +kernel), sent (by decide +kernel), by decide⟩

/-- The base device with its power controller changed. -/
def withPower (f : Power → Power) : Mach := { base with power := f base.power }

theorem test_witness_PowerControl :
    (∃ c m1, Sent 0x0701 (.pf 0) 0 c (mbox (.pf 0) [0x07010001, 1500]) m1 ∧ Framed 2 0 [(0, 2)] c ∧ 600 ≤ c.f 0 2 ∧ c.f 0 2 ≤ 1500) ∧
    (∃ c m1, Sent 0x0702 (.pf 0) 0 c (mbox (.pf 0) [0x07020001, 1]) m1 ∧ Framed 1 0 [(0, 1)] c ∧ c.f 0 1 ≤ 1) ∧
    (∃ c m1, Sent 0x0703 (.pf 0) 0 c (manager [0x07030003, 0, 0, 1] [(0, 0x80), (2, 4)]) m1 ∧ Framed 10 0 [(0, 8), (8, 2)] c ∧ c.f 8 2 = 1 ∧
      reads (m1.vread 65 (c.f 0 8) (4 * c.f 8 2) .read) (fun d => fieldAt d 0 1 == 0x80 && fieldAt d 1 1 == 0 && fieldAt d 2 2 == 4) = true) ∧
    (∃ c m1, Sent 0x0704 (.pf 0) 0 c (mbox (.pf 0) [0x07040000]) m1 ∧ Framed 0 16 [] c ∧ True) ∧
    (base.up = true ∧ base.moonServes = true ∧ base.power.periodAt = 0 ∧ base.powered = true) ∧
    (base.nextVout = none ∧ (withPower (fun p => { p with vout := [⟨0, 1, true, 3⟩] })).nextVout = some ⟨0, 1, true, 3⟩) ∧
    ({ base.pins with throt := false }.throt = false ∧ 1800000 < (withPower (fun p => { p with board := 1800001 })).power.board ∧ base.pins.throt = true) ∧
    (let m := atTide (withPower (fun p => { p with halves := [(0, { Half.reset with op := 3, set := 3, changing := 1 })] })) 10000
     (m.half 0).changing ≠ 0 ∧ (m.half 0).changing - 1 + 10000 * ((m.half 0).set - (m.half 0).old) ≤ m.now ∧ (m.half 0).dead = false ∧ (m.half 0).statusAt ≤ m.now ∧
       (m.half 0).statusTries < 3 ∧ m.moon.restart = 0 ∧ m.nextVout = none) ∧
    (let m := atTide (withPower (fun p => { p with halves := [(0, { Half.reset with op := 3, set := 3, changing := 1, statusTries := 3 })] })) 10000
     (m.half 0).changing ≠ 0 ∧ (m.half 0).dead = false ∧ (m.half 0).statusAt ≤ m.now ∧ 3 ≤ (m.half 0).statusTries ∧ m.nextVout = none) ∧
    (∀ n < 4, (withPower (fun p => { p with vout := [⟨0, 1, true, n⟩] })).nextVout = some ⟨0, 1, true, n⟩) ∧
    ((withPower (fun p => { p with halves := [(0, { Half.reset with changing := 5, statusAt := 9 })] })).now < 9) ∧
    (({ base with moon := { base.moon with restart := 1 } } : Mach).moon.restart ≠ 0 ∧ ((withPower (fun p => { p with halves := [(0, { Half.reset with dead := true })] })).half 0).dead = true) ∧
    (let m := { base with cres := { base.cres with mirrorAt := 1, metering := true, good := true, st := .ready, mirror := (List.range 24).map (fun r => (r, ⟨5, 1, false⟩)) } }
     m.up = true ∧ m.moonServes = true ∧ m.mirrorFresh = true ∧ m.power.stale = false ∧ m.power.periodAt = 0) ∧
    ((withPower (fun p => { p with periodAt := 1 })).now < (withPower (fun p => { p with periodAt := 1 })).power.periodAt - 1 + 100000) ∧
    (100 * (0 : Nat) < 94 * opMv 2 ∧ (base.half 0).below = false ∧ (base.half 0).hold = 0) ∧
    (let m := atTide (withPower (fun p => { p with halves := [(0, { Half.reset with below := true, hold := 2 }), (1, { Half.reset with hold := 2, thermal := 6, tj := 92 })] })) 1000000
     (m.half 0).below = true ∧ (m.half 0).fellAt + 1000 ≤ m.now ∧ (m.half 1).hold ≠ 0 ∧ (m.half 1).below = false ∧ (m.half 1).recovered + 1000000 ≤ m.now ∧
       (m.half 1).tj ≤ 92 ∧ (m.half 1).thermal < 7 ∧ (m.half 1).thermalAt + 1000000 ≤ m.now) ∧
    (base.pins.thermtrip = true ∧ base.power.stale = false ∧ base.mirrorFresh = false ∧ base.power.estimateAt + 100000 ≤ (atTide base 100000).now) :=
  ⟨sent (by decide +kernel), sent (by decide +kernel), sent (by decide +kernel), sent (by decide +kernel), by decide, by decide, by decide +kernel⟩

/-- The base device with Crescent's state changed. -/
def withCres (m : Mach) (f : Crescent → Crescent) : Mach := { m with cres := f m.cres }

/-- Crescent runs and metering is available; `l` are the ledger records it holds. -/
def metered (l : List Ledger) : Mach :=
  withCres (atTide base 10000000) (fun c => { c with st := .ready, good := true, metering := true, sampled := true, ledger := l, readings := [(1, ⟨1, 2, 3, 4, 5, 6, 7, 8, 9, 10, 11, 0, 12⟩)] })

/-- The same, with a command in channel 0 of a function and pages mapped in both spaces. -/
def meterCmd (fn : Fn) (ws : List Word) : Mach := { manager [] [] with cres := (metered []).cres } |>.modChan (chanKey fn 0) (fun c => { c with inq := ws })

theorem test_witness_Metering :
    (base.pins.vstby = false ∧ { base.pins with vstby := true }.vstby = true) ∧
    (let m := withCres base (fun c => { c with st := .starting 0 })
     m.cres.st = .starting 0 ∧ m.cres.nv.trail.length < 1000) ∧
    (let m := withCres (metered []) (fun c => { c with time := 86400000000 })
     m.cres.st = .ready ∧ m.cres.commitAt + 3600000000 ≤ m.cres.time ∧ m.cres.checkAt + 86400000000 ≤ m.cres.time ∧ m.cres.live.trail.length < 1024 ∧
       (m.rail 23).stale = false ∧ (m.rail 23).validAt + 1000 ≤ m.cres.time ∧ m.cres.ledger = [] ∧ m.cres.good = true ∧ m.cres.closeAt + 12000 ≤ m.cres.time) ∧
    (let m := metered []
     m.start.phase = .ready ∧ m.now % 10000000 = 0 ∧ m.cres.ledgerAt < m.now) ∧
    (let l : Ledger := ⟨0, 0, 10, [], List.replicate 64 (1, 1, 10)⟩
     (metered [l]).cres.ledger = l :: [] ∧ (metered [l]).cres.good = true ∧ (metered [l]).cres.sampled = true ∧ ∀ o ∈ l.owners, o.2.2 ≤ l.stop - l.start) ∧
    (∃ c m1, Sent 0x0801 (.vf 0 1) 0 c (meterCmd (.vf 0 1) [0x08010006, 0, 0, 0, 0, 224, 0]) m1 ∧ Framed 24 4 [(0, 1), (8, 8), (16, 8)] c ∧ m1.meterOk = true ∧
      (tfind m1.cres.readings 1).isSome = true ∧ 224 ≤ c.f 16 8 ∧ writes (m1.vwrite 1 (c.f 8 8) (List.replicate 224 1)) = true) ∧
    (∃ c m1, Sent 0x0801 (.pf 0) 0 c ((meterCmd (.pf 0) [0x08010006, 1, 0, 0, 0, 223, 0]).modPart 1 (fun q => { q with st := .resetting })) m1 ∧ Framed 24 4 [(0, 1), (8, 8), (16, 8)] c ∧
      m1.meterOk = true ∧ c.f 0 1 = 1 ∧ (m1.part 1).st = .resetting) ∧
    (∃ c m1, Sent 0x0801 (.pf 0) 0 c (meterCmd (.pf 0) [0x08010006, 2, 0, 0, 0, 223, 0]) m1 ∧ Framed 24 4 [(0, 1), (8, 8), (16, 8)] c ∧ m1.meterOk = true ∧
      (m1.part (c.f 0 1)).st ≠ .resetting ∧ c.f 0 1 ≠ 0xFF ∧ tfind m1.cres.readings (c.f 0 1) = none ∧ c.f 16 8 < 224) ∧
    (let x : TrailRec := ⟨0, 0, 1, 0, 0⟩
     (List.replicate 1024 x).length = 1024 ∧ ∀ y ∈ List.replicate 1024 x, y.code = 1 ∨ y.code = 2) ∧
    (∃ c m1, Sent 0x0802 (.pf 0) 0 c (meterCmd (.pf 0) [0x08020004, 0, 0, 256, 0]) m1 ∧ Framed 16 4 [(0, 8), (8, 8)] c ∧ m1.meterOk = true ∧ 128 ≤ c.f 8 8 ∧
      writes (m1.vwrite 65 (c.f 0 8) (List.replicate 128 1)) = true) ∧
    (∃ c m1, Sent 0x0803 (.pf 0) 0 c (meterCmd (.pf 0) [0x08030000]) m1 ∧ Framed 0 16 [] c ∧ m1.meterOk = true) ∧
    (∃ c m1, Sent 0x0803 (.pf 0) 0 c (mbox (.pf 0) [0x08030000]) m1 ∧ Framed 0 16 [] c ∧ m1.meterOk = false) :=
  ⟨by decide, by decide, by decide, by decide, by decide +kernel, sent (by decide +kernel), sent (by decide +kernel), sent (by decide +kernel),
    ⟨List.length_replicate, fun y h => .inl (by rw [List.eq_of_mem_replicate h])⟩, sent (by decide +kernel), sent (by decide +kernel), sent (by decide +kernel)⟩

/-- A frame for partition 1 of device 0, and the base device with link 0 up and the partition's ingress enabled. -/
def fr (op : BitVec 4) : Frame :=
  { op := op, vc := 0, lc := false, seq := 0, hops := 2, dst := 0, mc := decide (op = 2), dstPart := 1, src := 9, srcPart := 1, domain := 0, tag := 4, aop := 0,
    size := 2, status := 0, addr := 0, first := 0, last := 63, lines := [(5, .good)], crcOk := true, gcmOk := true, count := 1 }
def linked : Mach :=
  { base.modPart 1 (fun q => { q with ingress := true }) with
    links := { Links.reset with links := [(0, { YLink.reset with st := .up, mode := 1 }), (1, { YLink.reset with st := .up, mode := 1 })], unicast := [(9, { route0 with links := 2, valid := true })], group := [(0, { route0 with valid := true, isLocal := true })] } }

/-- A remote operation with the frame's TAG, waiting for nothing. -/
def remote (holding : Bool) : Remote := ⟨4, fr 1, 1, 1, .none, 0, if holding then 1 else 0, holding, 0, false⟩

theorem test_witness_FramesServed :
    (∀ op : BitVec 4, 1 ≤ op.toNat → op.toNat ≤ 9 → ForUs op.toNat (fr op) linked ∧ Arrives 0 (fr op) linked) ∧ Admitted (fr 1) linked ∧
    ((base.ylink 0).st ≠ .up ∧ { fr 1 with seq := 7 }.seq ≠ (linked.peer 0).rxSeq ∧ (linked.part 2).st = .absent ∧
      ((linked.modPart 1 (fun q => { q with st := .frozen })).part 1).st = .frozen) ∧
    (linked.frameLine (fr 1) .write 0 = .ok (.hbm 0) ∧ linked.frameLine { fr 1 with addr := 0x20000 } .write 0 = .fault ∧
      isDone (linked.cohWriteFrom 0 1 0 5 (maskOf 0 64) false true 7) = true ∧ isDone (linked.cohRead 0 1 true) = true ∧
      isDone (linked.cohAtom 0 1 .add (faddN 4) 0 4 1 0 false) = true ∧ aopOf 0 = some .add) ∧
    ((linked.krn 1).live = true ∧ (linked.krn 1).part = 1 ∧ (linked.krn 1).ctrKind 1 = 3 ∧ (linked.bankOf 1 0).isSome = true) ∧
    ((linked.chan 40).mode = false ∧ (linked.chan 40).inq.length < 16 ∧ (linked.chan 40).enable = true ∧ linked.vfKey 1 = 5) ∧
    (∀ h, ({ linked with links := { linked.links with remotes := [remote h] } } : Mach).links.remotes.find? (fun r => r.tag == 4 && r.frame.dst == 0) = some (remote h)) ∧
    ((linked.peer 0).fresh { fr 1 with count := 0 } = false ∧ linked.capturedNow 1 = none ∧
      (let m := (linked.modPart 1 (fun q => { q with captured := [0] })).modChan 40 (fun c => { c with inq := [0x01010000] })
       m.capturedNow 1 = some 0 ∧ m.turnedAway (fr 2) ≠ none)) ∧
    (match linked.servePut (fr 2) with | .answer st l _ => decide (st = 0 ∧ l = []) | _ => false) = true ∧
    (let m := { linked with links := { linked.links with peers := [(loopKey, { Peer.reset with buf := [fr 1] })] } }
     (m.peer loopKey).buf = [fr 1]) ∧
    (linked.routeOf true 0).isLocal = true ∧ (linked.routeOf true 3).isLocal = false ∧ linked.upLinks (linked.routeOf false 9) = [1] ∧ linked.hasRoom 1 (fr 1) = true := by
  refine ⟨fun op h1 h2 => ⟨⟨rfl, ?_, .inr rfl⟩, .inr ⟨by decide, by decide +kernel, rfl, rfl, rfl, rfl⟩⟩, ?_, ?_⟩
  · simp [fr, ← BitVec.toNat_inj]
  · simp only [Admitted]; decide
  · decide +kernel

theorem test_witness_ScaleOutLinks :
    (∃ c m1, Sent 0x0C01 (.pf 0) 0 c (mbox (.pf 0) [0x0C010002, 0x0000020B, 5]) m1 ∧ Framed 8 0 [(0, 1), (1, 1), (2, 2), (4, 4)] c ∧ c.f 1 1 = 2 ∧ c.f 0 1 = 11 ∧
      (∀ k, k < 12 → (m1.ylink k).mode = 0) ∧ (m1.ylink 11).st = .down) ∧
    (∃ c m1, Sent 0x0C01 (.pf 0) 0 c (mbox (.pf 0) [0x0C010002, 0x0000030B, 5]) m1 ∧ Framed 8 0 [(0, 1), (1, 1), (2, 2), (4, 4)] c ∧ 3 ≤ c.f 1 1 ∧ c.f 0 1 < 12) ∧
    (∃ c m1, Sent 0x0C02 (.pf 0) 0 c (manager [0x0C020004, 4095 + 2 ^ 31, 1, 0, 0] []) m1 ∧ Framed 16 0 [(0, 4), (4, 4), (8, 8)] c ∧ c.f 0 4 % 2 ^ 31 + c.f 4 4 ≤ 4096 ∧
      reads (m1.vread 65 (c.f 8 8) (32 * c.f 4 4) .read) (fun b => b.length == 32) = true) ∧
    (∃ c m1, Sent 0x0C03 (.pf 0) 0 c (mbox (.pf 0) [0x0C030001, 11]) m1 ∧ Framed 1 16 [(0, 1)] c ∧ c.f 0 1 < 12) ∧
    (let m := fun h tide => atTide { linked with links := { linked.links with remotes := [remote h] } } tide
     (m true 0).links.remotes.find? (fun x => x.tag == 4) = some (remote true) ∧ (remote true).busyAt ≠ 0 ∧ (remote true).busyAt - 1 + 1000000000 ≤ (m true 1000000000).now ∧
       10000000 ≤ (remote false).flown + ((m false 10000000).now - (remote false).sentAt) ∧ (remote true).sentAt + 10000 ≤ (m true 10000).now ∧
       (match (m true 10000).egress (remote true).frame ((m true 10000).chargeable 1) true with | .sent _ => true | _ => false) = true) ∧
    (let m := atTide { linked with links := { linked.links with peers := [(0, { Peer.reset with buf := [fr 1], tries := 64 })] } } 4000
     (m.peer 0).buf = [fr 1] ∧ (fr 1).seq = 0 ∧ (m.peer 0).lastTx + 4000 ≤ m.now ∧ (m.ylink (m.peer 0).link).st = .up ∧ 64 ≤ (m.peer 0).tries ∧
       ((m.upLinks (m.routeOf false 9)).filter (fun k => k != 0)) = [1]) ∧
    ((linked.ylink 0).st = .up ∧ (linked.ylink 2).st = .down ∧ linked.links.peers = [] ∧ linked.linksMayTrain = true) ∧
    (let m := atTide { base with links := { Links.reset with links := [(0, { YLink.reset with st := .training }), (1, { YLink.reset with st := .training, degrading := true })], parent := 4 } } 100000000
     (m.ylink 0).st = .training ∧ (m.ylink 0).degrading = false ∧ (m.ylink 1).degrading = true ∧ (m.ylink 0).since + 100000000 ≤ m.now ∧ m.links.parent ≠ 0 ∧
       (m.ylink (m.links.parent - 1)).carries = false) ∧
    ((linked.ylink 0).carries = true ∧ (linked.ylink 0).inUse 3 = true ∧ ({ YLink.reset with st := .up, bad := 0b0101 } : YLink).inUse 0 = false ∧ linked.moon.restart = 0 ∧
      (linked.ylink 0).st = .up ∧ (fr 1).src.toNat ≠ linked.links.devId) ∧
    (let m := { linked with links := { linked.links with peers := [(0, { Peer.reset with buf := [{ fr 5 with src := 0, dst := 9 }] })], remotes := [{ remote false with frame := { fr 5 with src := 0, dst := 9 } }] } }
     (m.peer 0).buf = [{ fr 5 with src := 0, dst := 9 }] ∧ (m.links.remotes.find? (fun r => r.tag == 4 && r.frame.op == 5 && r.frame.dst == 9)).isSome = true) ∧
    (let m := { linked with links := { linked.links with peers := [(12, { Peer.reset with tries := 64 }), (13, { Peer.reset with gcm := 16 })] } }
     64 ≤ (m.peer 12).tries ∧ (m.peer 12).buf = [] ∧ 16 ≤ (m.peer 13).gcm ∧ m.moon.restart = 0) ∧
    (let m := { linked with links := { linked.links with parent := 1, within := 1 } }
     m.links.parent = 0 + 1 ∧ m.links.within ≠ 0 ∧ (m.ylink (m.links.parent - 1)).carries = true) :=
  ⟨sent (by decide +kernel), sent (by decide +kernel), sent (by decide +kernel), sent (by decide +kernel), by decide +kernel, by decide +kernel, by decide +kernel, by decide +kernel,
    by decide +kernel, by decide +kernel, by decide +kernel, by decide +kernel⟩


/-- Partition 1 with a configured step builder and the entries `l`; VF 1 has sent the words `ws`. -/
def seqs (f : StepB → StepB) (l : Tbl SeqEntry) (ws : List Word) : Mach :=
  (mbox (.vf 0 1) ws).modPart 1 (fun q => { q with seqs := l, sb := f { StepB.reset with conf := true, handle := 9, bMax := 4, tMax := 8, ctxMax := 16, vocab := 100, worklist := 0x1000, logits := 0x2000 } })

/-- An entry in a state, with a prompt of two tokens and its areas in mapped memory. -/
def entry (st : SeqSt) : SeqEntry := { SeqEntry.reset with st := st, prev := .decode, prompt := 0x3000, promptLen := 2, maxNew := 4, out := 0x4000, outMax := 4, tokens := 1, processed := 0, keyValid := true }

/-- A GRAPH section of one node over kernel 0, and a loaded image with it. -/
def graph : List Byte :=
  leBytes 4 4 ++ leBytes 4 8 ++ leBytes 4 16 ++ leBytes 4 100 ++ leBytes 8 0x1000 ++ leBytes 8 0x2000 ++ leBytes 2 0 ++ leBytes 2 1 ++
    List.replicate (64 + 64 - 36) 0
def kgi9 : Kgi := { handle := 9, code := 0, kernels := [{ KernelDesc.reset with length := 16, n := 16, blocks := 1 }], graph := graph }

/-- Node 0 of that graph. -/
def node0 : GNode := { kernel := 0, clusters := 0, arg := 0, blocks := 0, deps := [] }

/-- A sequence descriptor: prompt 0x3000 of 2 tokens, at most 4 new ones, output area 0x4000 of 4, a key (FLAGS bit 1). -/
def seqDesc : Tbl Byte := [(0x509, 0x30), (0x510, 2), (0x514, 4), (0x519, 0x40), (0x520, 4), (0x524, 2)]

/-- Its bytes. -/
def descBytes : List Byte := (List.range 128).map (fun i => tget 0 seqDesc (0x500 + i))

theorem desc_in_range : DescInRange descBytes 16 100 ∧ fieldAt descBytes 36 4 / 2 % 2 = 1 := by
  simp only [DescInRange, descFields, List.forall_mem_cons, List.not_mem_nil, false_implies, implies_true, and_true]
  have stops : ∀ i, i < 8 → fieldAt descBytes (64 + 4 * i) 4 = 0 := by decide +kernel
  have zeros : ∀ i, i < 128 → 108 ≤ i → nth 0 descBytes i = 0 := by decide +kernel
  have none_ : fieldAt descBytes 36 4 = 2 := by decide +kernel
  refine ⟨⟨by decide +kernel, by decide +kernel, by decide +kernel, by decide +kernel, by decide +kernel, by simp [none_], by decide +kernel, ?_, fun i hi => ?_, by decide +kernel,
    by decide +kernel, fun i h1 h2 => zeros i h2 h1⟩, by simp [none_]⟩
  · simp only [none_]; decide +kernel
  · simp only [none_]; exact stops i hi

theorem test_witness_SequenceCommands :
    ((let m := ((mbox (.vf 0 1) [0x06010007, 9, 0, 0, 0, 0, 0, 1]).modPart 1 (fun q => { q with kgis := [kgi9] }))
     ∃ c m1, Sent 0x0601 (.vf 0 1) 0 c m m1 ∧ Framed 28 0 [(0, 4), (4, 1), (8, 16), (24, 4)] c ∧
      (m1.part 1).kgis.find? (fun k => k.handle == c.f 0 4) = some kgi9 ∧ c.f 4 1 ≤ 1 ∧ c.f 24 4 ≤ 1 ∧ (m1.part 1).seqs = [] ∧ (m1.part 1).sb.running = false ∧
      m1.mappedFor 1 .write (fieldAt graph 16 8) (64 + 64 * 4) = true ∧ m1.mappedFor 1 .write (fieldAt graph 24 8) (4 * 100 * 4) = true) ∧
      ((fieldAt graph 0 4, fieldAt graph 4 4, fieldAt graph 8 4, fieldAt graph 12 4, fieldAt graph 34 2, graph.length) = (4, 8, 16, 100, 1, 128) ∧
      (fieldAt graph 64 4, fieldAt graph 68 4, fieldAt graph 72 8, fieldAt graph 92 4) = (0, 0, 0, 0) ∧ (∀ j, j < 8 → fieldAt graph (96 + 4 * j) 4 = 0))) ∧
    (∀ e ∈ ([(0x0602, 16, [(0, 4), (8, 8)], [0x06020004, 0, 0, 0x500, 0]), (0x0603, 8, [(0, 4), (4, 4)], [0x06030002, 0, 7]), (0x0604, 4, [(0, 4)], [0x06040001, 0]),
        (0x0605, 4, [(0, 4)], [0x06050001, 0]), (0x0606, 4, [(0, 4)], [0x06060001, 0]), (0x0607, 12, [(0, 8), (8, 4)], [0x06070003, 0, 0, 0])] :
        List (Nat × Nat × List (Nat × Nat) × List Word)),
      ∃ c m1, Sent e.1 (.vf 0 1) 0 c (mbox (.vf 0 1) e.2.2.2) m1 ∧ Framed e.2.1 0 e.2.2.1 c ∧ (m1.part 1).sb.conf = false) ∧
    (∀ e ∈ ([(0x0604, .decode, [0x06040001, 0]), (0x0605, .paused, [0x06050001, 0]), (0x0606, .prefill, [0x06060001, 0])] : List (Nat × SeqSt × List Word)), ∀ run,
      ∃ c m1, Sent e.1 (.vf 0 1) 0 c (seqs (fun b => { b with running := run }) [(0, entry e.2.1)] e.2.2) m1 ∧ Framed 4 0 [(0, 4)] c ∧ (m1.part 1).sb.conf = true ∧
        c.f 0 4 < 64 * (m1.part 1).granules ∧ m1.seq 1 (c.f 0 4) = entry e.2.1 ∧ (m1.part 1).sb.running = run ∧ (m1.part 1).sb.boundary = []) ∧
    (∃ c m1, Sent 0x0603 (.vf 0 1) 0 c (seqs id [(0, { entry .paused with draw := true })] [0x06030002, 0, 7]) m1 ∧ Framed 8 0 [(0, 4), (4, 4)] c ∧
      (m1.part 1).sb.conf = true ∧ c.f 0 4 < 64 * (m1.part 1).granules ∧ (m1.seq 1 (c.f 0 4)).draw = true ∧ c.f 4 4 < (m1.part 1).sb.vocab ∧
      (match m1.vwrite 1 0x4044 (leBytes 4 (c.f 4 4)) with
        | .ok a => match a.vwrite 1 0x4010 (leBytes 8 a.now) with | .ok b => writes (b.vwrite 1 0x400C (leBytes 4 2)) | _ => false
        | _ => false) = true) ∧
    (∃ c m1, Sent 0x0603 (.vf 0 1) 0 c (seqs id [(0, { entry .paused with draw := true, out := 0x40000 })] [0x06030002, 0, 7]) m1 ∧ Framed 8 0 [(0, 4), (4, 4)] c ∧
      c.f 4 4 < (m1.part 1).sb.vocab ∧ (match m1.vwrite 1 0x40044 (leBytes 4 7) with | .fault => true | _ => false) = true ∧ (m1.part 1).st = .running) ∧
    (∃ c m1, Sent 0x0602 (.vf 0 1) 0 c ({ seqs id [] [0x06020004, 0, 0, 0x500, 0] with mem := { base.mem with hbm := seqDesc } }) m1 ∧ Framed 16 0 [(0, 4), (8, 8)] c ∧
      (m1.part 1).sb.conf = true ∧ (m1.part 1).sb.running = false ∧ (m1.part 1).sb.boundary = [] ∧ c.f 8 8 = 0x500 ∧
      (match m1.vread 1 0x500 128 .read with
        | .ok d m2 => decide ((m2.seq 1 (c.f 0 4)).st = .free) && decide (d = descBytes) &&
          match m2.vread 1 (fieldAt d 8 8) (4 * fieldAt d 16 4) .read with | .ok _ m3 => writes (m3.vwrite 1 0x500 (leBytes 8 (statusWord 0 0).toNat)) | _ => false
        | _ => false) = true) :=
  ⟨⟨sent (by decide +kernel), by decide +kernel⟩, by
    simp only [List.forall_mem_cons, List.not_mem_nil, false_implies, implies_true, and_true]
    exact ⟨sent (by decide +kernel), sent (by decide +kernel), sent (by decide +kernel), sent (by decide +kernel), sent (by decide +kernel), sent (by decide +kernel)⟩,
   by
    simp only [List.forall_mem_cons, List.not_mem_nil, false_implies, implies_true, and_true]
    exact ⟨fun run => by cases run <;> exact sent (by decide +kernel), fun run => by cases run <;> exact sent (by decide +kernel), fun run => by cases run <;> exact sent (by decide +kernel)⟩,
   sent (by decide +kernel), sent (by decide +kernel), sent (by decide +kernel)⟩

/-- Partition 1 in a step over `l` with the one node of the graph launched and done. -/
def stepping (f : StepB → StepB) (x : SeqEntry) (l : List WorkPos) : Mach :=
  (seqs (fun b => f { b with running := true, nodes := [node0], list := l }) [(0, x)] []).modPart 1 (fun q => { q with kgis := [kgi9] })

/-- The position of entry 0 that yields a token, and one that yields none. -/
def sampled (b : Bool) : WorkPos := { entry := 0, pos := if b then 2 else 0, count := 1, sample := b }

theorem test_witness_StepBuilder :
    ((seqs id [(0, entry .decode), (1, entry .prefill)] []).formList 1).length = 2 ∧
    (let m := seqs id [(0, entry .decode)] []
     m.up = true ∧ (m.part 1).st = .running ∧ (m.part 1).freezing = 0 ∧ (m.part 1).sb.conf = true ∧ (m.part 1).sb.running = false ∧ (m.part 1).sb.boundary = [] ∧
      (m.part 1).sb.qdHead = (m.part 1).sb.qdTail ∧ (m.part 1).sb.predValid = false ∧ m.formList 1 = [sampled true] ∧
      (∀ e ∈ tkeys (m.part 1).seqs, (m.seq 1 e).st ≠ .retiring ∧ (m.seq 1 e).stop = 0) ∧ writes (m.vwrite 1 0x1000 (listBytes 1 (m.formList 1) m)) = true) ∧
    (let m := { seqs (fun b => { b with hostListed := true, boundary := [.admitSeq 0 0x500 0] }) [] [] with mem := { base.mem with hbm := seqDesc } }
     (m.part 1).sb.conf = true ∧ (m.part 1).sb.hostListed = true ∧
      (match m.admitSeq 1 0 0x500, m.vread 1 0x500 128 .read with
        | .done _ _ _, .ok _ m2 => writes (m2.vwrite 1 0x500 (leBytes 8 (7 + 65536)))
        | _, _ => false) = true) ∧
    (let m := seqs (fun b => { b with worklist := 0x40000 }) [(0, entry .decode)] []
     (match m.vwrite 1 0x40000 (listBytes 1 (m.formList 1) m) with | .fault => true | _ => false) = true) ∧
    (∃ c m1, Sent 0x0607 (.vf 0 1) 0 c ({ seqs (fun b => { b with hostListed := true }) [(0, entry .decode)] [0x06070003, 0x500, 0, 1] with mem := { base.mem with hbm := [] } }) m1 ∧
      Framed 12 0 [(0, 8), (8, 4)] c ∧ (m1.part 1).sb.conf = true ∧ (m1.part 1).sb.hostListed = true ∧ (m1.part 1).sb.running = false ∧ m1.up = true ∧
      (m1.part 1).st = .running ∧ (m1.part 1).freezing = 0 ∧ c.f 8 4 = 1 ∧ (m1.part 1).sb.boundary = [] ∧
      (match m1.vread 1 (c.f 0 8) 8 .read with
        | .ok d m2 => decide (fieldAt d 6 2 = 0 ∧ fieldAt d 0 4 = 0 ∧ (m2.seq 1 0).st = .decode ∧ fieldAt d 4 2 = 0 ∧ (m2.seq 1 0).promptLen + (m2.seq 1 0).tokens - 1 = 2) &&
            writes (m2.vwrite 1 0x1000 (listBytes 1 [sampled true] m2))
        | _ => false) = true) ∧
    (let m := stepping id (entry .decode) [sampled true]
     m.up = true ∧ (m.part 1).st = .running ∧ (m.part 1).sb.running = true ∧ (m.part 1).sb.failed = false ∧ (m.part 1).sb.nodes = [node0] ∧ (m.part 1).sb.launched = [] ∧
      (m.part 1).kgis.find? (fun k => k.handle == (m.part 1).sb.handle) = some kgi9) ∧
    (∀ failed, let m := stepping (fun b => { b with launched := [0], done := [0], failed := failed }) (entry .prefill) [sampled false]
     m.up = true ∧ (m.part 1).st = .running ∧ (m.part 1).sb.running = true ∧ (m.part 1).sb.failed = failed ∧ (m.part 1).sb.launched = [0] ∧ (m.part 1).sb.done = [0] ∧
      (m.part 1).sb.applied = 0 ∧ (∀ w ∈ (m.part 1).sb.list, w.sample = false) ∧ ((m.part 1).sb.list.map (·.entry)).Nodup ∧
      ∀ e ∈ tkeys (m.part 1).seqs, (m.seq 1 e).st ≠ .retiring) ∧
    (let m := stepping (fun b => { b with launched := [0], done := [0] }) (entry .decode) [sampled true]
     (m.part 1).sb.failed = false ∧ (m.seq 1 0).hostMode = false ∧ m.stepWrites 1 = false ∧ (∀ e ∈ tkeys (m.part 1).seqs, (m.seq 1 e).st ≠ .retiring) ∧
      (match m.vread 1 (0x1000 + 64 + 48) 4 .read with
        | .ok tok m2 => match m2.vwrite 1 0x4044 (leBytes 4 (ofLe tok)) with
          | .ok a => match a.vwrite 1 0x4010 (leBytes 8 a.now) with
            | .ok b => writes (b.vwrite 1 0x400C (leBytes 4 2))
            | _ => false
          | _ => false
        | _ => false) = true) ∧
    (let m := seqs (fun b => { b with qdSize := 16 }) [] []
     m.barGate (.vf 0 1) = .open_ ∧ (m.part 1).link = 0 ∧ (m.part 1).sb.qdSize ≠ 0 ∧ (m.part 1).sb.qdHead = 0 ∧ m.behind (.vf 0 1) = false ∧
       (m.queueHost (.vf 0 1) (.reg 0 4 0)).behind (.vf 0 1) = true ∧ reads (m.vread 1 0 16 .read) (fun d => d.length == 16) = true) ∧
    (let m := seqs (fun b => { b with qdSize := 16, qdBase := 0x40000 }) [] []
     (match m.vread 1 0x40000 16 .read with | .fault => true | _ => false) = true) ∧
    (base.up = true ∧ base.moon.restart = 0 ∧ base.builtBy 1 = [] ∧ halfOfCluster (firstBit (base.part 1).clusters) = 0) ∧
    ((atTide base 1000).host.refillAt < (atTide base 1000).now / 1000) ∧
    (let m := base.modPart 1 (fun q => { q with thrArmed := true, thrSel := 3, thrVal := 2, acct := [(3, 2)] })
     (m.part 1).st = .running ∧ (m.part 1).thrArmed = true ∧ (m.part 1).thrSel.toNat ≤ 10 ∧ (m.part 1).thrVal.toNat ≤ tget 0 (m.part 1).acct (m.part 1).thrSel.toNat) := by
  refine ⟨by decide +kernel, by decide +kernel, by decide +kernel, by decide +kernel, sent (by decide +kernel), by decide +kernel, fun failed => ?_, by decide +kernel, by decide +kernel, by decide +kernel,
    by decide +kernel, by decide +kernel, by decide +kernel⟩
  cases failed <;> decide +kernel

/-- The base device with Moon's state changed; with the firmware restarting since Tide 1; and with its start in phase `n`. -/
def withMoon (f : Moon → Moon) : Mach := { base with moon := f base.moon }
def restarting (f : Moon → Moon) : Mach := withMoon (fun a => f { a with ready := false, restart := 1, slotA := { FwSlot.reset with valid := true } })
def inPhase (n : Nat) (f : Mach → Mach) : Mach := f { base with start := { Start.reset with phase := .run n } }

/-- A core of the Moon complex with room for a frame; and one whose stack pointer is at the low bound. -/
def mcore (low : DWord) (locked emerg : Bool) : MoonCore :=
  { MoonCore.reset with sp := 128, kLow := low, kHigh := 256, scratch := [0, 0, 0], locked := locked, emerg := emerg }

theorem test_witness_MoonAndFirmware :
    (let m := fun low locked emerg => withMoon (fun a => { a with cores := [(1, mcore low locked emerg)] })
     (m 0 false false).moon.restart = 0 ∧ (m 0 false false).start.phase = .ready ∧ (m 0 true false).mcore 1 = mcore 0 true false ∧
      (mcore 0 false false).sp.toNat % 16 = 0 ∧ (mcore 0 false false).kLow.toNat + 64 ≤ (mcore 0 false false).sp.toNat ∧ (mcore 0 false false).scratch.length = 3 ∧
      ¬ (mcore 128 false false).kLow.toNat + 64 ≤ (mcore 128 false false).sp.toNat) ∧
    ((atTide base 10000000).moon.wdog + 10000000 ≤ (atTide base 10000000).now ∧ (mcore 0 false true).emerg = true) ∧
    (chanOk (.pf 0) 0 = true ∧ ∀ full, let m := withChan (fun c => { c with held := [{ rep false false with opcode := 0x0B02 }], outq := if full then List.replicate 16 0 else [] })
      m.served = true ∧ (m.chan 0).inq = [] ∧ (m.chan 0).dbq = [] ∧ (m.chan 0).held = [{ rep false false with opcode := 0x0B02 }] ∧ (rep false false).pmode = false ∧ ({ rep false false with opcode := 0x0B02 } : Reply).activates = true ∧
        (full = true → 16 < (m.chan 0).outq.length + (qWords { rep false false with opcode := 0x0B02 }).length) ∧
        (full = false → (m.chan 0).outq.length + (qWords { rep false false with opcode := 0x0B02 }).length ≤ 16 ∧ (m.chan 0).irqEn = false)) ∧
    (let m := restarting id
     m.moon.restart ≠ 0 ∧ m.start.phase ≠ .held ∧ m.now ≤ m.moon.restart - 1 + 50000000 ∧ (m.moon.slot m.moon.runsB).valid = true ∧
      (∀ e ∈ m.host.chans, e.2.dbq = [] ∧ e.2.partial_.1 = [])) ∧
    ((restarting (fun a => { a with slotA := { a.slotA with pref := .trial true, commit := true } })).moon.slot false).pref = .trial true ∧
    (let m := atTide (restarting id) 50000001
     m.start.warmAt = 0 ∧ m.moon.restart - 1 + 50000000 < m.now) ∧
    (∃ h1 h2 h3 h4 l, (withMoon (fun a => { a with history := [3, 2, 1, 0] })).moon.history = h1 :: h2 :: h3 :: h4 :: l ∧ h1 < h4 + 60000000000) ∧
    (∃ c m1, Sent 0x0102 (.pf 0) 0 c (mbox (.pf 0) [0x01020000]) m1 ∧ Framed 0 0 [] c ∧ m1.start.phase = .ready) ∧
    (∃ c m1, Sent 0x0B01 (.pf 0) 0 c (manager [0x0B010004, 0, 0, 0, 0] []) m1 ∧ Framed 16 0 [(0, 8), (8, 8)] c ∧ c.f 8 8 < 7668) ∧
    (∀ staged, ∃ c m1, Sent 0x0B02 (.pf 0) 0 c ((withMoon (fun a => { a with staged := staged })).modChan 0 (fun c => { c with inq := [0x0B020000] })) m1 ∧ Framed 0 0 [] c ∧
      m1.moon.staged = staged) ∧
    (∃ c m1, Sent 0x0B03 (.pf 1) 0 c ({ mbox (.pf 1) [0x0B030000] with host := { (mbox (.pf 1) [0x0B030000]).host with links := [(0, hostUp), (1, hostUp)], fns := [(0, enabled), (1, enabled), (5, enabled)] } }) m1 ∧
      Framed 0 20 [] c ∧ m1.moon.staged = false) ∧
    (∃ c m1, Sent 0x0101 (.vf 0 1) 0 c (mbox (.vf 0 1) [0x01010000]) m1 ∧ Framed 0 22 [] c ∧ m1.start.phase ≠ .romOnly) := by
  refine ⟨by decide, by decide, by decide, by decide, by decide, by decide, ⟨3, 2, 1, 0, [], by decide⟩, sent (by decide +kernel), sent (by decide +kernel), fun b => ?_,
    sent (by decide +kernel), sent (by decide +kernel)⟩
  cases b <;> exact sent (by decide +kernel)

theorem test_witness_StartAndResets :
    (Mach.reset.pins.pwrgd = false ∧ { Mach.reset.pins with pwrgd := true }.pwrgd = true) ∧
    (base.start.phase ≠ .held ∧ base.start.d3hot = false ∧ (base.hlink 0).perst = false ∧ base.host.bifurc = false) ∧
    ((inPhase 1 id).start.phase = .run 1) ∧ ((atTide base 0).clk.locked = true ∧ { base with pins := { base.pins with tideRef := false } }.pins.tideRef = false) ∧
    (base.moon.restart = 0 ∧ (base.hlink 0).up = true ∧ (base.hlink 1).up = false) ∧
    (let m := atTide (inPhase 3 id) 250000001
     (3, 250) ∈ [(2, 60), (3, 250), (4, 400), (5, 430), (6, 430), (7, 700), (8, 700)] ∧ InPhase 3 m ∧ m.start.base + 250 * 1000000 < m.now) ∧
    (∀ n, InPhase n (inPhase n id)) ∧
    (let a := (inPhase 2 id).moon
     ¬ Bootable a 0 false ∧ Bootable { a with slotA := { a.slotA with valid := true } } 0 false) ∧
    ((inPhase 3 id).start.fails < 2 ∧ (inPhase 3 (fun m => { m with start := { m.start with fails := 2 } })).start.fails = 2) ∧
    ((inPhase 5 id).hlink 0).cfgReady = true ∧ ((inPhase 5 (fun m => { m with host := { m.host with links := [(0, { hostUp with cfgReady := false })] } })).hlink 0).cfgReady = false ∧
    (let m := fun st tide => atTide (inPhase 7 (fun m => { m with start := { m.start with initAt := 1 }, cres := { m.cres with st := st, probe := .ready } })) tide
     (m .ready 0).start.initAt ≠ 0 ∧ (m .ready 0).cres.st = .ready ∧ (∀ e ∈ (m .ready 0).links.recs, e.2.1 = 0) ∧ (m (.starting 0) 0).cres.st ≠ .ready ∧
      (m (.starting 0) 0).start.base + 700000000 > (m (.starting 0) 0).now ∧ (m (.starting 0) 700000000).start.base + 700000000 ≤ (m (.starting 0) 700000000).now) ∧
    (let m := inPhase 7 (fun m => { m with links := { m.links with recs := [(0, 1, 1, 5)] } })
     m.start.initAt = 0 ∧ m.sec.recovery = false ∧ m.sec.life ≠ .deployed ∧ m.links.recs = [(0, 1, 1, 5)]) ∧
    ({ base with start := { Start.reset with phase := .romOnly }, moon := Moon.reset }.moon.ready = false) ∧
    (let m := atTide { base with start := { base.start with warmAt := 1 }, pins := { base.pins with thermtrip := true } } 10
     m.start.warmAt ≠ 0 ∧ m.pins.thermtrip = true ∧ m.clk.locked = true ∧ m.start.warmAt - 1 ≤ m.now ∧ m.mem.retireWhenFree = []) := by
  refine ⟨by decide, by decide, by decide, by decide, by decide, ?_, fun n => ⟨rfl, rfl, rfl⟩, ?_, by decide, by decide, by decide, by decide, by decide, by decide, by decide⟩
  · simp only [InPhase]; decide
  · simp only [Bootable]; decide

/-- The state after reset meets the premises of the two invariants, as does a device with an operation in flight; a step answers a next state. -/
theorem test_witness_FreshIdsKept : FreshIds State.reset.m ∧ FreshIds { withOp .load with nextId := 100 } ∧
    ∃ t, Sys2Proof.core.step { State.reset with pending := [.pwrgdMainRise ⟨0, true⟩] } = .next t := by
  refine ⟨?_, ?_, _, rfl⟩ <;> (simp only [FreshIds]; decide)

theorem test_witness_MemoriesKeepTheirForm : Memory.wf State.reset.m = true ∧ Memory.wf { base with mem := { base.mem with hbm := seqDesc } } = true ∧
    ∃ t, Sys2Proof.core.step { State.reset with pending := [.pwrgdMainRise ⟨0, true⟩] } = .next t :=
  ⟨by decide, by decide, _, rfl⟩

/-- A word that no check refuses. -/
theorem test_wf_accepts : (Instr.add 0 fa).wf = true ∧ (Instr.movi 0 fb).wf = true ∧ (Instr.ld 0 fm).wf = true ∧ (Instr.tmma 0 ft).wf = true ∧
    (Instr.brx 0 fc).wf = true ∧ (Instr.evtInc 0 fs).wf = true := by decide

/-- Format A (R109, R118, Table 05.13, R587, R589): a type the opcode does not accept, an odd 64-bit register, a u-register number above 63,
a shift of packed elements, SEL with VS2, CVT of a type to itself or with SK, PMOV with VS2, BALLOT of a predicate above p7. -/
theorem test_wf_format_a : (Instr.add 0 { fa with ty := .b32 }).wf = false ∧ (Instr.add 0 { fa with ty := .s64, vs1 := 5 }).wf = false ∧
    (Instr.add 0 { fa with ty := .s64, dk := true, vs1 := 63 }).wf = false ∧
    (Instr.add 0 { fa with dk := true, vd := 64 }).wf = false ∧ (Instr.shl 0 { fa with ty := .s8x4 }).wf = false ∧
    (Instr.cmpLt 0 { fa with ty := .b32 }).wf = false ∧ (Instr.sel 0 fa).wf = false ∧ (Instr.cvt 0 { fa with vs2 := 0 }).wf = false ∧
    (Instr.cvt 0 { fa with vs2 := 2, sk := true }).wf = false ∧ (Instr.cvt 0 { fa with vs2 := 12 }).wf = false ∧
    (Instr.pmov 0 fa).wf = false ∧ (Instr.ballot 0 { fa with ty := .b32, vs1 := 8 }).wf = false := by decide

/-- Format B (Table 05.2, R589). -/
theorem test_wf_format_b : (Instr.immediateAluForm 0 .abs { fb with vs1 := 1 }).wf = false ∧ (Instr.cmpFImmediate 0 .eq { fb with vd := 8 }).wf = false ∧
    (Instr.movi 0 { fb with uk := true, vd := 64 }).wf = false := by decide

/-- Format M (R113, R118): an unassigned SIZE, a run that is not a multiple of its length, a pair at u63, the ORD of LD and ST, the SIZE of an
atomic, and AT.CAS whose swap run leaves the file. -/
theorem test_wf_format_m : (Instr.ld 0 { fm with size := 5 }).wf = false ∧ (Instr.ld 0 { fm with size := 4, vds := 6 }).wf = false ∧
    (Instr.ld 0 { fm with ub := 63 }).wf = false ∧ (Instr.ld 0 { fm with ub := 63, space := .localMem }).wf = true ∧
    (Instr.ld 0 { fm with ord := .release }).wf = false ∧ (Instr.st 0 { fm with ord := .acquire }).wf = false ∧
    (Instr.atAdd 0 { fm with size := 1 }).wf = false ∧ (Instr.atCas 0 { fm with vds := 255 }).wf = false := by decide

/-- Formats T, C and S (R145, R153, R154, R118). -/
theorem test_wf_formats_t_c_s : (Instr.tmma 0 { ft with bfmt := .mxint8 }).wf = false ∧ (Instr.tmma 0 { ft with shape := 5 }).wf = false ∧
    (Instr.tzero 0 { ft with abase := 1 }).wf = false ∧ (Instr.tload 0 ft).wf = false ∧ (Instr.tstore 0 { ft with opt := 4 }).wf = false ∧
    (Instr.call 0 { fc with ck := .ureg }).wf = false ∧ (Instr.evtInc 0 { fs with imm := 0 }).wf = false ∧ (Instr.evtRead 0 { fs with cons := true }).wf = false ∧
    (Instr.evtWait 0 { fs with dle := true, ub := 63 }).wf = false ∧ (Instr.mcast 0 { fs with ua := 63 }).wf = false ∧ (Instr.rngKey 0 { fs with ua := 61 }).wf = false := by
  decide

/-- Words written out field by field from Tables 05.1 to 05.7, one per format. -/
def wordA : BitVec 64 := 0b000_0000000_000_0_00000010_00000100_00000110_00001000_0_0_001_0000_000_000000
def wordB : BitVec 64 := 0b001_0110000_000_0_00000010_00000000_0_0_00000000000000000000000000000101
def wordM : BitVec 64 := 0b010_0000000_000_0_00000100_000010_00000000_1_010_00_00_1_00001_0_0000000000000
def wordT : BitVec 64 := 0b011_0000000_000_0_000_000000000000_000000000000_0000_0000_000_0_000_00000000
def wordC : BitVec 64 := 0b100_0000000_000_0_000_000_000000_000_000_00000000000000000000000000000001
def wordS : BitVec 64 := 0b101_0000000_000_0_000010_000100_00000010_00001_001_1_0_0_0_01_0000000000000011

theorem test_decode_formats : decodeWord 0 wordA = some (.add 0 fa) ∧ decodeWord 0 wordB = some (.movi 0 fb) ∧ decodeWord 0 wordM = some (.ld 0 fm) ∧
    decodeWord 0 wordT = some (.tmma 0 ft) ∧ decodeWord 0 wordC = some (.bra 0 fc) ∧ decodeWord 0 wordS = some (.evtInc 0 fs) :=
  ⟨rfl, rfl, rfl, rfl, rfl, rfl⟩

/-- Unassigned formats, opcodes and values, and a reserved field that is not zero, decode to nothing (R117, R118). -/
theorem test_decode_refuses : decodeWord 0 0xC000000000000000 = none ∧ decodeWord 0 (wordA + 0x0280000000000000) = none ∧ decodeWord 0 (wordA + 1) = none ∧
    decodeWord 0 (wordA + 0x1800) = none ∧ decodeWord 0 (wordT + 1) = none ∧ decodeWord 0 (wordC + 0x100000000) = none := ⟨rfl, rfl, rfl, rfl, rfl, rfl⟩

/-- A step takes the front command with the rest of the queue; an empty queue idles. -/
theorem test_witness_StepRunsTheFrontCommand : Sys2Proof.core.step { m := base, pending := [.nop 0 fc, .exit 0 fc] } = Sys2Proof.Machine.exec (.nop 0 fc) { m := base, pending := [.exit 0 fc] } ∧
    Sys2Proof.core.step (at_ base) = .next (at_ base) := ⟨rfl, rfl⟩

/-- A step from `s` answers a next device of which `p` holds. -/
def nextHas (s : State) (p : Mach → Bool) : Bool := match Sys2Proof.core.step s with | .next t => p t.m | _ => false

/-- The base device with words in v-registers of group 0. -/
def withRegs (l : Tbl Word) : Mach := base.modGrp 0 (fun x => { x with v := l })

/-- ADD of s32 wraps (Table 05.13), in lane 0: 0xFFFFFFFF + 2 is 1. -/
theorem test_add_wraps : nextHas { m := withRegs [(128, 0xFFFFFFFF), (192, 2)], pending := [.add 0 fa] }
    (fun t => t.vGet 0 2 0 == 1) = true := by decide +kernel

/-- MOVI writes every lane (Table 05.7); the program counter advances by one word (R115). -/
theorem test_movi : nextHas { m := withRegs [], pending := [.movi 0 fb] } (fun t => t.vGet 0 2 31 == 5 && (t.grp 0).pc == 1) = true := by decide +kernel

/-- The first step of a cold start: with power and rails good and the reset pin high, the device enters phase 1 (R30, R558). -/
theorem test_cold_start : nextHas { m := { Mach.reset with pins := { Mach.reset.pins with devRst := true, thermtrip := true } }, pending := [.pwrgdMainRise ⟨0, true⟩] }
    (fun t => t.start.phase == .run 1) = true := by decide

end Sys2Proof.Tests
end

section
/-! PROOFS. The order keys of the Ordering Unit (R170).  Every element that is no NaN has a signed code: the integer itself, or a
float's magnitude code under its sign.  The exact value and the order key are both increasing in that code, so they order alike. -/

namespace Sys2Proof.Machine

/-- The integer of a sign and a magnitude. -/
def withSign (neg : Bool) (n : Nat) : Int := if neg then -n else n

@[simp] theorem withSign_false (n : Nat) : withSign false n = n := rfl
@[simp] theorem withSign_true (n : Nat) : withSign true n = -n := rfl

theorem abs_withSign_le (s : Bool) (n : Nat) : -(n : Int) ≤ withSign s n ∧ withSign s n ≤ n := by
  cases s <;> simp only [withSign_false, withSign_true] <;> omega

theorem withSign_zero (s : Bool) : withSign s 0 = 0 := by cases s <;> rfl

/-- Scaling magnitudes by an increasing function that keeps zero keeps the order of the signed numbers. -/
theorem withSign_lt_iff_of_increasing {u : Nat → Nat} (hu : ∀ {a b}, a < b → u a < u b) (h0 : u 0 = 0) (s t : Bool) (a b : Nat) :
    withSign s (u a) < withSign t (u b) ↔ withSign s a < withSign t b := by
  have hiff (c d : Nat) : u c < u d ↔ c < d := by
    refine ⟨fun h => ?_, hu⟩
    obtain hcd | rfl | hdc := Nat.lt_trichotomy c d
    · exact hcd
    · exact absurd h (Nat.lt_irrefl _)
    · exact absurd h (Nat.lt_asymm (hu hdc))
  have hab := hiff a b
  have hba := hiff b a
  have ha := hiff 0 a
  have hb := hiff 0 b
  rw [h0] at ha hb
  cases s <;> cases t <;> simp only [withSign_false, withSign_true] <;> omega

/-! Comparing exact values. -/

theorem scaled_eq_withSign (s : Bool) (m : Nat) (e q : Int) : scaled s m e q = withSign s (m * 2 ^ (e - q).toNat) := by
  cases s
  case false => exact Int.one_mul _
  case true => exact (Int.neg_mul 1 _).trans (congrArg _ (Int.one_mul _))

/-- A dyadic number in smaller units. -/
theorem scaled_smaller_unit (s : Bool) (m : Nat) {e q r : Int} (hr : r ≤ q) (hq : q ≤ e) :
    scaled s m e r = scaled s m e q * (2 ^ (q - r).toNat : Nat) := by
  have hexp : (e - r).toNat = (e - q).toNat + (q - r).toNat := by omega
  rw [scaled, scaled, hexp, Nat.pow_add, ← Nat.mul_assoc, Int.natCast_mul, Int.mul_assoc]

/-- Two finite values compare as integers in any unit at or below both exponents. -/
theorem Val.fin_lt_fin_iff {s t : Bool} {m n : Nat} {e g q : Int} (he : q ≤ e) (hg : q ≤ g) :
    (Val.fin s m e).lt (.fin t n g) = true ↔ scaled s m e q < scaled t n g q := by
  have hpos : (0 : Int) < (2 ^ (min e g - q).toNat : Nat) := Int.natCast_pos.mpr (Nat.two_pow_pos _)
  have hmin : q ≤ min e g := Int.le_min.mpr ⟨he, hg⟩
  rw [scaled_smaller_unit s m hmin (Int.min_le_left e g), scaled_smaller_unit t n hmin (Int.min_le_right e g),
    Int.mul_lt_mul_right hpos]
  exact decide_eq_true_iff

/-- Infinities compare by their signs, as any one magnitude does under them. -/
theorem Val.inf_lt_inf_iff (s t : Bool) {n : Nat} (hn : 0 < n) : (Val.inf s).lt (.inf t) = true ↔ withSign s n < withSign t n := by
  cases s <;> cases t
  case true.false => exact iff_of_true rfl (by simp only [withSign_false, withSign_true]; omega)
  all_goals exact iff_of_false nofun (by simp only [withSign_false, withSign_true]; omega)

/-- Values that are no NaN are equal exactly where neither is less. -/
theorem Val.eqv_iff {a b : Val} (ha : a ≠ .nan) (hb : b ≠ .nan) : a.eqv b = true ↔ ¬ a.lt b = true ∧ ¬ b.lt a = true := by
  unfold Val.eqv
  split
  · exact absurd rfl ha
  · exact absurd rfl hb
  · simp only [Bool.and_eq_true, Bool.not_eq_true', Bool.not_eq_true]

theorem Val.ofInt_lt_iff (i j : Int) : (Val.ofInt i).lt (.ofInt j) = true ↔ i < j := by
  have hscaled (k : Int) : scaled (decide (k < 0)) k.natAbs 0 0 = k := by
    simp only [scaled, Int.sub_self, Int.toNat_zero, Nat.pow_zero, Nat.mul_one, decide_eq_true_eq]
    split <;> omega
  rw [Val.ofInt, Val.ofInt, Val.fin_lt_fin_iff (Int.le_refl _) (Int.le_refl _), hscaled, hscaled]

/-! A float's code. -/

namespace FFmt

/-- The magnitude code of infinity in an IEEE format. -/
def infMag (f : FFmt) : Nat := (2 ^ f.eb - 1) * 2 ^ f.mb

/-- An IEEE format: the highest exponent code holds infinity, and above it the NaNs. -/
structure IsIeee (f : FFmt) : Prop where
  eb_pos : 0 < f.eb
  mb_pos : 0 < f.mb
  inf_eq : f.inf = some f.infMag
  nanMin_eq : f.nanMin = f.infMag + 1

theorem isIeee_f32 : f32.IsIeee := ⟨by decide, by decide, by decide, by decide⟩
theorem isIeee_bf16 : bf16.IsIeee := ⟨by decide, by decide, by decide, by decide⟩
theorem isIeee_fp16 : fp16.IsIeee := ⟨by decide, by decide, by decide, by decide⟩

/-- The sign of an encoding. -/
def neg (f : FFmt) (x : Nat) : Bool := decide (2 ^ (f.eb + f.mb) ≤ x)

/-- The magnitude code of an encoding: its exponent and fraction. -/
def mag (f : FFmt) (x : Nat) : Nat := x % 2 ^ (f.eb + f.mb)

/-- The signed code of an encoding: -0 and +0 share the code 0. -/
def code (f : FFmt) (x : Nat) : Int := withSign (f.neg x) (f.mag x)

/-- The value of a finite magnitude code in units of the least subnormal. -/
def units (f : FFmt) (a : Nat) : Nat :=
  if a / 2 ^ f.mb = 0 then a % 2 ^ f.mb else (2 ^ f.mb + a % 2 ^ f.mb) * 2 ^ (a / 2 ^ f.mb - 1)

/-- The exponent of the least subnormal. -/
def leastExp (f : FFmt) : Int := 1 - (f.bias : Int) - f.mb

variable {f : FFmt} {x y k l : Nat}

theorem units_zero : f.units 0 = 0 := by
  rw [units, Nat.zero_div, if_pos rfl, Nat.zero_mod]

/-- A magnitude lies below the least one of the next exponent. -/
theorem units_lt (a : Nat) : f.units a < 2 ^ f.mb * 2 ^ (a / 2 ^ f.mb) := by
  have hman : a % 2 ^ f.mb < 2 ^ f.mb := Nat.mod_lt _ (Nat.two_pow_pos _)
  unfold units
  split
  case isTrue h => rwa [h, Nat.pow_zero, Nat.mul_one]
  case isFalse h =>
    obtain ⟨n, hn⟩ := Nat.exists_eq_succ_of_ne_zero h
    rw [hn, Nat.succ_eq_add_one, Nat.add_sub_cancel, Nat.pow_succ', ← Nat.mul_assoc]
    exact Nat.mul_lt_mul_of_pos_right (by omega) (Nat.two_pow_pos _)

/-- A normal magnitude is at least the least one of its exponent. -/
theorem le_units {a : Nat} (h : a / 2 ^ f.mb ≠ 0) : 2 ^ f.mb * 2 ^ (a / 2 ^ f.mb - 1) ≤ f.units a := by
  rw [units, if_neg h]
  exact Nat.mul_le_mul_right _ (Nat.le_add_right _ _)

/-- Magnitude codes order as the magnitudes: by the exponent, then by the fraction. -/
theorem units_lt_units {a b : Nat} (hab : a < b) : f.units a < f.units b := by
  obtain hexp | hexp := Nat.lt_or_eq_of_le (Nat.div_le_div_right (c := 2 ^ f.mb) (Nat.le_of_lt hab))
  · have hb : b / 2 ^ f.mb ≠ 0 := Nat.ne_zero_of_lt hexp
    calc f.units a < 2 ^ f.mb * 2 ^ (a / 2 ^ f.mb) := units_lt a
      _ ≤ 2 ^ f.mb * 2 ^ (b / 2 ^ f.mb - 1) := Nat.mul_le_mul_left _ (Nat.pow_le_pow_right Nat.two_pos (Nat.le_sub_one_of_lt hexp))
      _ ≤ f.units b := le_units hb
  · have hman : a % 2 ^ f.mb < b % 2 ^ f.mb := by
      have ha := Nat.div_add_mod a (2 ^ f.mb)
      have hb := Nat.div_add_mod b (2 ^ f.mb)
      rw [hexp] at ha
      exact Nat.lt_of_add_lt_add_left (n := 2 ^ f.mb * (b / 2 ^ f.mb)) (by rwa [ha, hb])
    unfold units
    rw [hexp]
    split
    · exact hman
    · exact Nat.mul_lt_mul_of_pos_right (by omega) (Nat.two_pow_pos _)

/-! What an encoding decodes to. -/

/-- `decode` over the sign and the magnitude code. -/
theorem decode_eq (hf : f.IsIeee) (hx : x < 2 ^ f.bits) :
    f.decode x =
      if f.infMag < f.mag x then .nan
      else if f.mag x = f.infMag then .inf (f.neg x)
      else if f.mag x / 2 ^ f.mb = 0 then .fin (f.neg x) (f.mag x % 2 ^ f.mb) f.leastExp
      else .fin (f.neg x) (2 ^ f.mb + f.mag x % 2 ^ f.mb) ((f.mag x / 2 ^ f.mb : Nat) - (f.bias : Int) - f.mb) := by
  simp only [decode, Nat.mod_eq_of_lt hx, hf.inf_eq, hf.nanMin_eq, Option.some.injEq]
  rfl

theorem decode_eq_nan_iff (hf : f.IsIeee) (hx : x < 2 ^ f.bits) : f.decode x = .nan ↔ f.infMag < f.mag x := by
  rw [decode_eq hf hx]
  split
  case isTrue hnan => exact iff_of_true rfl hnan
  case isFalse hle =>
    refine iff_of_false ?_ hle
    split
    · nofun
    · split <;> nofun

theorem mag_le_infMag (hf : f.IsIeee) (hx : x < 2 ^ f.bits) (hxn : f.decode x ≠ .nan) : f.mag x ≤ f.infMag :=
  Nat.not_lt.mp (mt (decode_eq_nan_iff hf hx).mpr hxn)

theorem decode_inf (hf : f.IsIeee) (hx : x < 2 ^ f.bits) (h : f.mag x = f.infMag) : f.decode x = .inf (f.neg x) := by
  rw [decode_eq hf hx, if_neg (by omega), if_pos h]

/-- A code below infinity is a finite value, its integer in units of the least subnormal the signed `units` of the code. -/
theorem decode_fin (hf : f.IsIeee) (hx : x < 2 ^ f.bits) (h : f.mag x < f.infMag) :
    ∃ m e, f.decode x = .fin (f.neg x) m e ∧ f.leastExp ≤ e ∧ scaled (f.neg x) m e f.leastExp = withSign (f.neg x) (f.units (f.mag x)) := by
  rw [decode_eq hf hx, if_neg (by omega), if_neg (by omega)]
  split
  case isTrue hsub =>
    refine ⟨_, _, rfl, Int.le_refl _, ?_⟩
    rw [scaled_eq_withSign, units, if_pos hsub, Int.sub_self, Int.toNat_zero, Nat.pow_zero, Nat.mul_one]
  case isFalse hnorm =>
    have hexp : 0 < f.mag x / 2 ^ f.mb := Nat.pos_of_ne_zero hnorm
    refine ⟨_, _, rfl, by unfold leastExp; omega, ?_⟩
    rw [scaled_eq_withSign, units, if_neg hnorm]
    congr 3
    unfold leastExp
    omega

theorem infMag_pos (hf : f.IsIeee) : 0 < f.infMag :=
  Nat.mul_pos (Nat.sub_pos_of_lt (Nat.one_lt_two_pow (Nat.ne_zero_of_lt hf.eb_pos))) (Nat.two_pow_pos _)

/-- Floats that are no NaN order as their codes. -/
theorem decode_lt_iff (hf : f.IsIeee) (hx : x < 2 ^ f.bits) (hy : y < 2 ^ f.bits) (hxn : f.decode x ≠ .nan) (hyn : f.decode y ≠ .nan) :
    (f.decode x).lt (f.decode y) = true ↔ f.code x < f.code y := by
  have hxy := abs_withSign_le (f.neg x) (f.mag x)
  have hyx := abs_withSign_le (f.neg y) (f.mag y)
  unfold code
  obtain hxf | hxi := Nat.lt_or_eq_of_le (mag_le_infMag hf hx hxn) <;>
    obtain hyf | hyi := Nat.lt_or_eq_of_le (mag_le_infMag hf hy hyn)
  · obtain ⟨m, e, hdx, he, hsx⟩ := decode_fin hf hx hxf
    obtain ⟨n, g, hdy, hg, hsy⟩ := decode_fin hf hy hyf
    rw [hdx, hdy, Val.fin_lt_fin_iff he hg, hsx, hsy, withSign_lt_iff_of_increasing units_lt_units units_zero]
  · obtain ⟨m, e, hdx, -, -⟩ := decode_fin hf hx hxf
    rw [hdx, decode_inf hf hy hyi]
    cases f.neg y
    case false => exact iff_of_true rfl (by rw [withSign_false]; omega)
    case true => exact iff_of_false nofun (by rw [withSign_true]; omega)
  · obtain ⟨n, g, hdy, -, -⟩ := decode_fin hf hy hyf
    rw [hdy, decode_inf hf hx hxi]
    cases f.neg x
    case false => exact iff_of_false nofun (by rw [withSign_false]; omega)
    case true => exact iff_of_true rfl (by rw [withSign_true]; omega)
  · rw [decode_inf hf hx hxi, decode_inf hf hy hyi, hxi, hyi, Val.inf_lt_inf_iff _ _ (infMag_pos hf)]

/-! What key an encoding takes. -/

theorem two_pow_bits (f : FFmt) : 2 ^ f.bits = 2 * 2 ^ (f.eb + f.mb) := by
  rw [bits, Nat.add_assoc, Nat.pow_add, Nat.pow_one]

/-- `floatKey` over the sign and the magnitude code. -/
theorem floatKey_eq (f : FFmt) (x : Nat) :
    floatKey f.bits f.eb x =
      if f.infMag < f.mag x then none
      else if f.mag x = 0 then some (2 ^ (f.eb + f.mb))
      else if f.neg x then some (2 ^ f.bits - 1 - x) else some (2 ^ (f.eb + f.mb) + f.mag x) := by
  have hw : f.bits - 1 = f.eb + f.mb := by rw [bits, Nat.add_assoc, Nat.add_sub_cancel_left]
  simp only [floatKey, hw, Nat.add_sub_cancel_left]
  rfl

theorem floatKey_eq_none_iff (f : FFmt) (x : Nat) : floatKey f.bits f.eb x = none ↔ f.infMag < f.mag x := by
  rw [floatKey_eq]
  split
  case isTrue hnan => exact iff_of_true rfl hnan
  case isFalse hle =>
    refine iff_of_false ?_ hle
    split
    · nofun
    · split <;> nofun

/-- An encoding is its magnitude code, above the sign bit where that is set. -/
theorem eq_mag_add (hx : x < 2 ^ f.bits) : x = f.mag x + if f.neg x then 2 ^ (f.eb + f.mb) else 0 := by
  rw [two_pow_bits] at hx
  simp only [mag, neg, decide_eq_true_eq]
  split
  · rw [Nat.mod_eq_sub_mod ‹_›, Nat.mod_eq_of_lt (by omega)]
    omega
  · rw [Nat.mod_eq_of_lt (by omega), Nat.add_zero]

/-- A key is its code moved up by half the range; the codes below zero lie one lower, as -0 leaves theirs to +0. -/
theorem floatKey_eq_some (hx : x < 2 ^ f.bits) (h : floatKey f.bits f.eb x = some k) :
    f.mag x ≤ f.infMag ∧ (f.code x < 0 → (k : Int) = (2 ^ (f.eb + f.mb) : Nat) + f.code x - 1) ∧
      (0 ≤ f.code x → (k : Int) = (2 ^ (f.eb + f.mb) : Nat) + f.code x) := by
  have hle : f.mag x ≤ f.infMag := Nat.not_lt.mp fun hn => nomatch ((floatKey_eq_none_iff f x).mpr hn).symm.trans h
  have hmag : f.mag x < 2 ^ (f.eb + f.mb) := Nat.mod_lt _ (Nat.two_pow_pos _)
  have hxm := eq_mag_add hx
  refine ⟨hle, ?_⟩
  rw [floatKey_eq, if_neg (Nat.not_lt.mpr hle), two_pow_bits] at h
  unfold code
  split at h
  case isTrue hzero =>
    obtain rfl := Option.some.inj h
    rw [hzero, withSign_zero]
    omega
  case isFalse hpos =>
    cases hs : f.neg x <;> rw [hs] at h hxm <;> obtain rfl := Option.some.inj h
    case false => simp only [withSign_false]; omega
    case true => rw [if_pos rfl] at hxm; simp only [withSign_true]; omega

theorem floatKey_lt_iff (hx : x < 2 ^ f.bits) (hy : y < 2 ^ f.bits) (hk : floatKey f.bits f.eb x = some k)
    (hl : floatKey f.bits f.eb y = some l) : k < l ↔ f.code x < f.code y := by
  obtain ⟨-, hk⟩ := floatKey_eq_some hx hk
  obtain ⟨-, hl⟩ := floatKey_eq_some hy hl
  omega

/-- Neither the least nor the greatest code of the width is a key: infinity lies two below the end of the magnitudes. -/
theorem floatKey_bounds (hf : f.IsIeee) (hx : x < 2 ^ f.bits) (hk : floatKey f.bits f.eb x = some k) : 0 < k ∧ k < 2 ^ f.bits - 1 := by
  obtain ⟨hle, hk⟩ := floatKey_eq_some hx hk
  have hcode := abs_withSign_le (f.neg x) (f.mag x)
  have hpow := f.two_pow_bits
  have hinf : f.infMag + 2 ≤ 2 ^ (f.eb + f.mb) := by
    have hmb : 2 ≤ 2 ^ f.mb := Nat.one_lt_two_pow (Nat.ne_zero_of_lt hf.mb_pos)
    have heb : 2 ^ f.mb ≤ 2 ^ (f.eb + f.mb) := Nat.pow_le_pow_right Nat.two_pos (by omega)
    rw [infMag, Nat.sub_mul, ← Nat.pow_add, Nat.one_mul]
    omega
  unfold code at hk
  omega

end FFmt

/-! The elements of a descriptor. -/

/-- The signed code of an element: the integer, or the float's code. -/
def ordCode (t : OrdTy) (x : Nat) : Int :=
  match t with
  | .f32 => f32.code x
  | .bf16 => bf16.code x
  | .f16 => fp16.code x
  | .s32 => sgn 32 x
  | .u32 => x
  | .s8 => sgn 8 x

section
variable {t : OrdTy} {x y k l : Nat}

/-- The NaNs are the elements without a key of their own. -/
theorem rawKey_eq_none_iff (hx : x < 2 ^ (8 * t.bytes)) : rawKey t x = none ↔ ordVal t x = .nan := by
  cases t
  case f32 => exact (f32.floatKey_eq_none_iff x).trans (FFmt.decode_eq_nan_iff FFmt.isIeee_f32 hx).symm
  case bf16 => exact (bf16.floatKey_eq_none_iff x).trans (FFmt.decode_eq_nan_iff FFmt.isIeee_bf16 hx).symm
  case f16 => exact (fp16.floatKey_eq_none_iff x).trans (FFmt.decode_eq_nan_iff FFmt.isIeee_fp16 hx).symm
  all_goals exact iff_of_false (Option.some_ne_none _) Val.noConfusion

/-- Elements that are no NaN order as their codes. -/
theorem ordVal_lt_iff (hx : x < 2 ^ (8 * t.bytes)) (hy : y < 2 ^ (8 * t.bytes)) (hxn : ordVal t x ≠ .nan) (hyn : ordVal t y ≠ .nan) :
    (ordVal t x).lt (ordVal t y) = true ↔ ordCode t x < ordCode t y := by
  cases t
  case f32 => exact FFmt.decode_lt_iff FFmt.isIeee_f32 hx hy hxn hyn
  case bf16 => exact FFmt.decode_lt_iff FFmt.isIeee_bf16 hx hy hxn hyn
  case f16 => exact FFmt.decode_lt_iff FFmt.isIeee_fp16 hx hy hxn hyn
  all_goals exact Val.ofInt_lt_iff _ _

/-- Moving a signed integer up by half the range, as its key does, keeps the order. -/
theorem signedKey_lt_iff {w : Nat} (hw : 0 < w) (hx : x < 2 ^ w) (hy : y < 2 ^ w) :
    (x + 2 ^ (w - 1)) % 2 ^ w < (y + 2 ^ (w - 1)) % 2 ^ w ↔ sgn w x < sgn w y := by
  have hpow : 2 ^ w = 2 * 2 ^ (w - 1) := by rw [← Nat.pow_succ', Nat.succ_eq_add_one, Nat.sub_add_cancel hw]
  have hkey {z : Nat} (hz : z < 2 ^ w) : (((z + 2 ^ (w - 1)) % 2 ^ w : Nat) : Int) = sgn w z + (2 ^ (w - 1) : Nat) := by
    have hcast : (2 : Int) ^ w = (2 ^ w : Nat) := (Int.natCast_pow 2 w).symm
    rw [sgn, Nat.mod_eq_of_lt hz, hcast]
    split
    · rw [Nat.mod_eq_of_lt (by omega), Int.natCast_add]
    · rw [Nat.mod_eq_sub_mod (by omega), Nat.mod_eq_of_lt (by omega)]
      omega
  have hkx := hkey hx
  have hky := hkey hy
  omega

/-- Keys order as the codes. -/
theorem rawKey_lt_iff (hx : x < 2 ^ (8 * t.bytes)) (hy : y < 2 ^ (8 * t.bytes)) (hk : rawKey t x = some k) (hl : rawKey t y = some l) :
    k < l ↔ ordCode t x < ordCode t y := by
  cases t
  case f32 => exact FFmt.floatKey_lt_iff (f := f32) hx hy hk hl
  case bf16 => exact FFmt.floatKey_lt_iff (f := bf16) hx hy hk hl
  case f16 => exact FFmt.floatKey_lt_iff (f := fp16) hx hy hk hl
  case u32 =>
    obtain rfl := Option.some.inj hk
    obtain rfl := Option.some.inj hl
    exact Int.ofNat_lt.symm
  case s32 =>
    obtain rfl := Option.some.inj hk
    obtain rfl := Option.some.inj hl
    exact signedKey_lt_iff (w := 32) (by decide) hx hy
  case s8 =>
    obtain rfl := Option.some.inj hk
    obtain rfl := Option.some.inj hl
    exact signedKey_lt_iff (w := 8) (by decide) hx hy

/-- A key lies in the element's width, and a type with NaNs leaves both ends of the width free. -/
theorem rawKey_bounds (hx : x < 2 ^ (8 * t.bytes)) (hk : rawKey t x = some k) :
    k < 2 ^ (8 * t.bytes) ∧ ((∃ y, ordVal t y = .nan) → 0 < k ∧ k < 2 ^ (8 * t.bytes) - 1) := by
  have hfloat {f : FFmt} (hf : f.IsIeee) (hx : x < 2 ^ f.bits) (hk : floatKey f.bits f.eb x = some k) :
      k < 2 ^ f.bits ∧ ((∃ y, ordVal t y = .nan) → 0 < k ∧ k < 2 ^ f.bits - 1) := by
    have hb := FFmt.floatKey_bounds hf hx hk
    exact ⟨by omega, fun _ => hb⟩
  cases t
  case f32 => exact hfloat FFmt.isIeee_f32 hx hk
  case bf16 => exact hfloat FFmt.isIeee_bf16 hx hk
  case f16 => exact hfloat FFmt.isIeee_fp16 hx hk
  all_goals
    obtain rfl := Option.some.inj hk
    refine ⟨?_, fun ⟨_, hn⟩ => nomatch hn⟩
  case u32 => exact hx
  case s32 => exact Nat.mod_lt _ (Nat.two_pow_pos _)
  case s8 => exact Nat.mod_lt _ (Nat.two_pow_pos _)

/-! The 32-bit key. -/

/-- The key of an element in its own width, for the direction. -/
def directedKey (t : OrdTy) (largest : Bool) (k : Nat) : Nat := if largest then 2 ^ (8 * t.bytes) - 1 - k else k

theorem orderKey_of_none {largest : Bool} (h : rawKey t x = none) : orderKey t largest x = nanKey := by
  simp only [orderKey, h]

theorem orderKey_of_some {largest : Bool} (h : rawKey t x = some k) :
    orderKey t largest x = directedKey t largest k * 2 ^ (32 - 8 * t.bytes) := by
  simp only [orderKey, h, directedKey]

/-- The place of an element's width in the 32 bits. -/
theorem width_mul_place (t : OrdTy) : 2 ^ (8 * t.bytes) * 2 ^ (32 - 8 * t.bytes) = 2 ^ 32 := by
  cases t <;> rfl

theorem directedKey_lt_iff {largest : Bool} (hk : k < 2 ^ (8 * t.bytes)) (hl : l < 2 ^ (8 * t.bytes)) :
    directedKey t largest k < directedKey t largest l ↔ if largest then l < k else k < l := by
  cases largest <;> simp only [directedKey, if_true, Bool.false_eq_true, if_false]
  omega

/-- Every key fits 32 bits. -/
theorem orderKey_lt_two_pow {largest : Bool} (hx : x < 2 ^ (8 * t.bytes)) : orderKey t largest x < 2 ^ 32 := by
  cases h : rawKey t x with
  | none => rw [orderKey_of_none h]; decide
  | some k =>
    have hk : directedKey t largest k < 2 ^ (8 * t.bytes) := by
      have hk := (rawKey_bounds hx h).1
      cases largest <;> simp only [directedKey, if_true, Bool.false_eq_true, if_false] <;> omega
    rw [orderKey_of_some h, ← width_mul_place t]
    exact Nat.mul_lt_mul_of_pos_right hk (Nat.two_pow_pos _)

/-- In a type with NaNs, the key of an element that is none lies below theirs. -/
theorem orderKey_lt_nanKey {largest : Bool} (hx : x < 2 ^ (8 * t.bytes)) (hk : rawKey t x = some k) (hnan : ∃ y, ordVal t y = .nan) :
    orderKey t largest x < nanKey := by
  have hlt : directedKey t largest k < 2 ^ (8 * t.bytes) - 1 := by
    have hb := (rawKey_bounds hx hk).2 hnan
    cases largest <;> simp only [directedKey, if_true, Bool.false_eq_true, if_false] <;> omega
  have hplace : 0 < 2 ^ (32 - 8 * t.bytes) := Nat.two_pow_pos _
  rw [orderKey_of_some hk]
  calc directedKey t largest k * 2 ^ (32 - 8 * t.bytes)
      < (2 ^ (8 * t.bytes) - 1) * 2 ^ (32 - 8 * t.bytes) := Nat.mul_lt_mul_of_pos_right hlt hplace
    _ = 2 ^ 32 - 2 ^ (32 - 8 * t.bytes) := by rw [Nat.sub_mul, width_mul_place, Nat.one_mul]
    _ ≤ nanKey := by unfold nanKey; omega

/-- The keys of elements that are no NaN order as the elements, reversed for largest-first. -/
theorem orderKey_lt_iff {largest : Bool} (hx : x < 2 ^ (8 * t.bytes)) (hy : y < 2 ^ (8 * t.bytes)) (hxn : ordVal t x ≠ .nan)
    (hyn : ordVal t y ≠ .nan) :
    orderKey t largest x < orderKey t largest y ↔
      if largest then (ordVal t y).lt (ordVal t x) = true else (ordVal t x).lt (ordVal t y) = true := by
  obtain ⟨k, hk⟩ := Option.ne_none_iff_exists'.mp (mt (rawKey_eq_none_iff hx).mp hxn)
  obtain ⟨l, hl⟩ := Option.ne_none_iff_exists'.mp (mt (rawKey_eq_none_iff hy).mp hyn)
  rw [orderKey_of_some hk, orderKey_of_some hl, Nat.mul_lt_mul_right (Nat.two_pow_pos _),
    directedKey_lt_iff (rawKey_bounds hx hk).1 (rawKey_bounds hy hl).1, rawKey_lt_iff hy hx hl hk, rawKey_lt_iff hx hy hk hl,
    ordVal_lt_iff hy hx hyn hxn, ordVal_lt_iff hx hy hxn hyn]

/-- The keys of elements that are no NaN are equal exactly where the elements are. -/
theorem orderKey_eq_iff {largest : Bool} (hx : x < 2 ^ (8 * t.bytes)) (hy : y < 2 ^ (8 * t.bytes)) (hxn : ordVal t x ≠ .nan)
    (hyn : ordVal t y ≠ .nan) : orderKey t largest x = orderKey t largest y ↔ (ordVal t x).eqv (ordVal t y) = true := by
  have hlt := orderKey_lt_iff (largest := largest) hx hy hxn hyn
  have hgt := orderKey_lt_iff (largest := largest) hy hx hyn hxn
  rw [Val.eqv_iff hxn hyn]
  cases largest <;> simp only [if_true, Bool.false_eq_true, if_false] at hlt hgt <;> rw [← hlt, ← hgt] <;> omega

end

/-- Settles O22: keys and exact values both order as the elements' signed codes, and the NaNs have the one key above all others (R170). -/
theorem orderKeys : Obligations.OrderKeys := by
  intro t largest x y hx hy
  refine ⟨orderKey_lt_two_pow hx, fun hxn => ?_, fun hxn hyn => ⟨orderKey_lt_iff hx hy hxn hyn, orderKey_eq_iff hx hy hxn hyn, ?_⟩⟩
  · have hkey : orderKey t largest x = nanKey := orderKey_of_none ((rawKey_eq_none_iff hx).mpr hxn)
    refine ⟨hkey, fun hyn => ?_⟩
    obtain ⟨l, hl⟩ := Option.ne_none_iff_exists'.mp (mt (rawKey_eq_none_iff hy).mp hyn)
    rw [hkey]
    exact orderKey_lt_nanKey hy hl ⟨x, hxn⟩
  · obtain ⟨k, hk⟩ := Option.ne_none_iff_exists'.mp (mt (rawKey_eq_none_iff hx).mp hxn)
    rw [orderKey_of_some hk, Nat.mul_mod_left]

end Sys2Proof.Machine
end

section
/-! PROOFS. No write of memory reaches a mailbox channel: records and interrupts change a function's pending bits at most, and the rest
of the write path changes nothing of the host side. -/

namespace Sys2Proof.Machine

section
variable (m : Mach)

/-! Accounts, interrupts and records. -/

@[simp] theorem Mach.modFn_chans (k : Nat) (f : FnState → FnState) : (m.modFn k f).host.chans = m.host.chans := rfl
@[simp] theorem Mach.account_host (p i n : Nat) : (m.account p i n).host = m.host := by unfold Mach.account; split <;> simp
@[simp] theorem Mach.spend_host (p r q n : Nat) : (m.spend p r q n).host = m.host := by unfold Mach.spend; dsimp only; split <;> simp
@[simp] theorem Mach.sendMsix_chans (k l v : Nat) : (m.sendMsix k l v).host.chans = m.host.chans := by
  unfold Mach.sendMsix
  dsimp only
  split
  · simp
  · split <;> simp
@[simp] theorem Mach.raisePf_chans (v : Nat) : (m.raisePf v).host.chans = m.host.chans := m.sendMsix_chans 0 0 v
@[simp] theorem Mach.raiseVf_chans (p r : Nat) : (m.raiseVf p r).host.chans = m.host.chans := by
  unfold Mach.raiseVf
  split <;> simp
@[simp] theorem Mach.logPartNow_host (p : Nat) (r : RasRec) : (m.logPartNow p r).host = m.host := rfl
@[simp] theorem Mach.logDev_host (r : RasRec) : (m.logDev r).host = m.host := by unfold Mach.logDev; split <;> simp
@[simp] theorem Mach.logPart_chans (p : Nat) (r : RasRec) : (m.logPart p r).host.chans = m.host.chans := by
  unfold Mach.logPart
  split <;> simp
@[simp] theorem Mach.contained_chans (c pa : Nat) : (m.contained c pa).host.chans = m.host.chans := by
  unfold Mach.contained
  dsimp only
  split <;> simp
@[simp] theorem Mach.mapUpdate_host (d : Nat) : (m.mapUpdate d).host = m.host := rfl
@[simp] theorem Mach.retirePage_chans (p : Nat) : (m.retirePage p).host.chans = m.host.chans := by
  unfold Mach.retirePage
  split
  · rfl
  · split <;> simp
@[simp] theorem Mach.notePoison_chans (p : Nat) : (m.notePoison p).host.chans = m.host.chans := by
  unfold Mach.notePoison
  split <;> simp
@[simp] theorem Mach.poisonEvent_chans (l s : Nat) : (m.poisonEvent l s).host.chans = m.host.chans := by
  unfold Mach.poisonEvent
  dsimp only
  split
  · rw [Mach.notePoison_chans]
    split <;> simp
  · split <;> simp
@[simp] theorem Mach.deferred_chans (c l p n : Nat) : (m.deferred c l p n).host.chans = m.host.chans := by
  unfold Mach.deferred
  dsimp only
  split <;> simp

/-! HBM, the slices, the directory and the remote-line caches. -/

@[simp] theorem Mach.hbmStore_host (l : Nat) (d : LineData) (p : Bool) : (m.hbmStore l d p).host = m.host := rfl
@[simp] theorem Mach.hbmWriteFor_host (l : Nat) (d : LineData) (p c : Bool) : (m.hbmWriteFor l d p c).host = m.host := by
  unfold Mach.hbmWriteFor
  dsimp only
  split <;> simp
@[simp] theorem Mach.hbmWrite_host (l : Nat) (d : LineData) (p : Bool) : (m.hbmWrite l d p).host = m.host := m.hbmWriteFor_host l d p true
@[simp] theorem Mach.hbmRowEvent_chans (l : Nat) : (m.hbmRowEvent l).host.chans = m.host.chans := by
  unfold Mach.hbmRowEvent
  dsimp only
  split
  · simp
  · split
    · simp
    · split <;> simp
@[simp] theorem Mach.hbmRead_chans (l p : Nat) : (m.hbmRead l p).2.host.chans = m.host.chans := by
  unfold Mach.hbmRead
  dsimp only
  split
  · simp
  · simp
  · split <;> simp
@[simp] theorem Mach.chargeRa_host (r : Nat) : (m.chargeRa r).host = m.host := by
  unfold Mach.chargeRa
  split <;> simp
@[simp] theorem Mach.tickLru_host : m.tickLru.host = m.host := rfl
@[simp] theorem Mach.sliceEvict_host (k : Nat) (l : LlcLine) : (m.sliceEvict k l).host = m.host := by
  unfold Mach.sliceEvict
  dsimp only
  split
  · simp
  · split <;> simp
@[simp] theorem Mach.sliceFill_host (k : Nat) (w : BitVec 16) (l : LlcLine) : (m.sliceFill k w l).host = m.host := by
  unfold Mach.sliceFill
  dsimp only
  split
  · simp
  · split <;> simp
@[simp] theorem Mach.sliceTouch_host (k p : Nat) (l : LlcLine) : (m.sliceTouch k p l).host = m.host := by
  unfold Mach.sliceTouch
  dsimp only
  rw [Mach.modMem_host]
  split <;> simp
@[simp] theorem Mach.homeFetch_chans (l p : Nat) (a : Bool) : (m.homeFetch l p a).2.host.chans = m.host.chans := by
  unfold Mach.homeFetch
  split
  · simp
  · dsimp only
    split <;> simp
@[simp] theorem Mach.homeStore_host (l p : Nat) (d : LineData) (po a : Bool) : (m.homeStore l p d po a).host = m.host := by
  unfold Mach.homeStore
  split
  · simp
  · split <;> simp
@[simp] theorem Mach.rlcSetLine_host (h l : Nat) (x : RlcLine) : (m.rlcSetLine h l x).host = m.host := rfl
@[simp] theorem Mach.rlcDrop_host (h l : Nat) : (m.rlcDrop h l).host = m.host := by
  unfold Mach.rlcDrop
  split <;> simp
@[simp] theorem Mach.dirDrop_host (l : Nat) : (m.dirDrop l).host = m.host := rfl
@[simp] theorem Mach.takeBack_host (l p : Nat) : (m.takeBack l p).host = m.host := by
  unfold Mach.takeBack
  dsimp only
  generalize hn : List.foldl _ m _ = n
  have hdrop : n.host = m.host := by
    rw [← hn]
    refine List.foldlRecOn (motive := fun (t : Mach) => t.host = m.host) _ _ rfl fun t ht h _ => ?_
    split
    · rw [Mach.rlcDrop_host]
      split
      · rw [Mach.homeStore_host, ht]
      · exact ht
    · exact ht
  split
  · split
    · rw [Mach.modMem_host, hdrop]
    · rw [Mach.dirDrop_host, hdrop]
  · exact hdrop
@[simp] theorem Mach.logWrite_host (l : Nat) : (m.logWrite l).host = m.host := by
  unfold Mach.logWrite
  dsimp only
  split <;> simp
@[simp] theorem Mach.discarded_chans (l p n : Nat) : (m.discarded l p n).host.chans = m.host.chans := m.deferred_chans _ l p n
@[simp] theorem Mach.writeHome_chans (l p n : Nat) (d : LineData) (k : DWord) (b a : Bool) (s : Nat) :
    (m.writeHome l p n d k b a s).host.chans = m.host.chans := by
  have hinj : (if m.mem.injectWrite == l + 1 then (m.modMem (fun a => { a with injectWrite := 0 })).modRas (fun r => { r with injGo := false })
      else m).host.chans = m.host.chans := by
    split <;> simp
  unfold Mach.writeHome
  dsimp only
  rw [← hinj]
  generalize (if m.mem.injectWrite == l + 1 then (m.modMem (fun a => { a with injectWrite := 0 })).modRas (fun r => { r with injGo := false })
    else m) = x
  split
  · split <;> simp
  · split
    · simp
    · split <;> simp
@[simp] theorem Mach.rlcTouch_host (h l : Nat) (x : RlcLine) : (m.rlcTouch h l x).host = m.host := by
  unfold Mach.rlcTouch
  dsimp only
  rw [Mach.modMem_host]
  split <;> simp
@[simp] theorem Mach.rlcStore_chans (h l p n : Nat) (x : RlcLine) (d : LineData) (k : DWord) (b : Bool) :
    (m.rlcStore h l p n x d k b).host.chans = m.host.chans := by
  unfold Mach.rlcStore
  dsimp only
  split
  · simp
  · split <;> simp
@[simp] theorem Mach.hostLinePut_host (h : Nat) (d : LineData) (p : Bool) : (m.hostLinePut h d p).host = m.host := by
  unfold Mach.hostLinePut
  split <;> simp
end

/-! Ranges: where a write is performed. -/

section
variable {m t : Mach}

theorem chans_of_lineWrite_done {h : Option Nat} {l p n : Nat} {d : LineData} {k : DWord} {a : Bool}
    (e : m.lineWrite h l p n d k a = .done () t) : t.host.chans = m.host.chans := by
  unfold Mach.lineWrite Mach.cohWrite Mach.cohWriteFrom at e
  split at e
  · cases e; simp
  · split at e
    · cases e
    · cases e; simp

theorem chans_of_cohPutFor_done {h : Option Nat} {pa : Nat} {b : List Byte} {p n : Nat} {a : Bool}
    (e : m.cohPutFor h pa b p n a = .done () t) : t.host.chans = m.host.chans := by
  unfold Mach.cohPutFor at e
  split at e
  · cases e
  · revert e t
    refine List.foldlRecOn (motive := fun (x : Perf Unit) => ∀ {t}, x = .done () t → t.host.chans = m.host.chans) _ _
      (fun e => by cases e; rfl) fun x ih l _ t e => ?_
    cases x with
    | waits n => cases e
    | done _ n => exact (chans_of_lineWrite_done e).trans (ih rfl)

theorem chans_of_hostLine_done {h p : Nat} {o : Bool} {d : LineData × Bool} (e : m.hostLine h p o = .done d t) :
    t.host.chans = m.host.chans := by
  unfold Mach.hostLine at e
  split at e
  · cases e
  · cases e; simp
  · cases e

theorem chans_of_hostWrite_done {k h : Nat} {b : List Byte} {p : Nat} (e : m.hostWrite k h b p = .done () t) :
    t.host.chans = m.host.chans := by
  unfold Mach.hostWrite at e
  split at e
  · cases e
  split at e
  · cases e; rfl
  split at e
  · revert e t
    refine List.foldlRecOn (motive := fun (x : Perf Unit) => ∀ {t}, x = .done () t → t.host.chans = m.host.chans) _ _
      (fun e => by cases e; rfl) fun x ih l _ t e => ?_
    cases x with
    | waits n => cases e
    | done _ n =>
      rw [← ih rfl]
      dsimp -zeta only at e
      extract_lets lo piece at e
      split at e
      · rename_i hl
        rw [← chans_of_hostLine_done hl]
        split at e
        · cases e; rfl
        · cases e; simp
      · cases e
  · cases e; simp

theorem chans_of_vwrite_ok {space va : Nat} {b : List Byte} (e : m.vwrite space va b = .ok t) : t.host.chans = m.host.chans := by
  unfold Mach.vwrite Mach.vwriteFor at e
  split at e
  · cases e
  · revert e t
    refine List.foldlRecOn (motive := fun (x : VWrite) => ∀ {t}, x = .ok t → t.host.chans = m.host.chans) _ _
      (fun e => by cases e; rfl) fun x ih pc _ t e => ?_
    cases x with
    | waits n => cases e
    | fault => cases e
    | ok n =>
      rw [← ih rfl]
      dsimp only at e
      split at e
      · split at e
        · rename_i hp
          cases e
          exact chans_of_cohPutFor_done hp
        · cases e
      · split at e
        · rename_i hp
          cases e
          exact chans_of_hostWrite_done hp
        · cases e
      · cases e
      · cases e
end

end Sys2Proof.Machine
end

section
/-! PROOFS. Errors in a mailbox queue (R347), and how Moon posts or holds a response (R323, R330, R331). -/

namespace Sys2Proof.Machine
open Sys2Proof.Claims

/-- A meaning over the device completes where it answers a next device. -/
theorem does_of_run {i : Instr} {s : State} {f : Mach → Res} {t : Mach} {P : Mach → Prop} (hi : exec i s = s.run f) (hf : f s.m = .next t)
    (hP : P t) : Does i s P :=
  ⟨t, hi.trans (State.run_of_next s f t hf), hP⟩

theorem does_mono {i : Instr} {s : State} {P Q : Mach → Prop} (h : Does i s P) (hPQ : ∀ t, P t → Q t) : Does i s Q :=
  h.imp fun t ht => ⟨ht.1, hPQ t ht.2⟩

theorem gate_of_due {m t : Mach} {due : Bool} (h : due = true) : gate m due t = .next t := if_pos h

theorem exec_mailboxQueueError (fn : Fn) (ch : Nat) (what : QueuePart) (s : State) :
    exec (.mailboxQueueError fn ch what) s = execMailboxQueueError fn ch what s := rfl

theorem exec_moonResponsePosted (fn : Fn) (ch : Nat) (s : State) : exec (.moonResponsePosted fn ch) s = execMoonResponsePosted fn ch s := rfl

section
variable {m n : Mach} {key : Nat} {f : Chan → Chan} {sent : List Output} {r : Reply} {rest : List Reply}

/-! Channels. -/

theorem onlyChan_setChan {x : Chan} (h : f (m.chan key) = x) : OnlyChan key f [] m (m.setChan key x) := by
  refine ⟨rfl, fun k => ?_⟩
  rw [Mach.chan_setChan]
  by_cases hk : k = key
  · rw [if_pos hk, if_pos hk, hk, h]
  · rw [if_neg hk, if_neg hk]

theorem onlyChan_modChan (h : OnlyChan key f sent m n) (g : Chan → Chan) : OnlyChan key (g ∘ f) sent m (n.modChan key g) := by
  obtain ⟨hm, hc⟩ := h
  refine ⟨?_, fun k => ?_⟩
  · rw [hm]; rfl
  · rw [Mach.chan_modChan, hc, hc]
    by_cases hk : k = key <;> simp [hk]

/-- Of the function that changes a channel only its value at the channel as it was counts. -/
theorem onlyChan_congr {g : Chan → Chan} (hfg : f (m.chan key) = g (m.chan key)) (h : OnlyChan key f sent m n) : OnlyChan key g sent m n := by
  obtain ⟨hm, hc⟩ := h
  refine ⟨hm, fun k => (hc k).trans ?_⟩
  by_cases hk : k = key
  · rw [if_pos hk, if_pos hk, hk, hfg]
  · rw [if_neg hk, if_neg hk]

/-! What an error in a queue leaves. -/

theorem Ras.head?_ring_log (x : Ras) (r : RasRec) : (x.log r).ring.head? = some { r with seq := x.next, body := [] } := by
  unfold Ras.log
  dsimp only
  split <;> rfl

theorem Mach.event_of_moon_runs (h : m.moon.restart = 0) (code sev : Nat) :
    m.event code sev = m.modRas (·.log (RasRec.mk0 code sev 0 0 m.now)) := by
  simp [Mach.event, Mach.logDev, h]

/-- Channel `key` changes by `f`, nothing else of the device does but its records, and the newest one is a mailbox queue error (R347). -/
def QueueLost (key : Nat) (f : Chan → Chan) (m t : Mach) : Prop :=
  OnlyChan key f [] m { t with ras := m.ras } ∧ ∃ r, t.ras.ring.head? = some r ∧ (r.code, r.sev) = Config.rasCode 0

theorem queueLost_event (h : OnlyChan key f [] m n) (hr : m.moon.restart = 0) :
    QueueLost key f m (n.event (Config.rasCode 0).1 (Config.rasCode 0).2) := by
  obtain ⟨hm, hc⟩ := h
  have hmoon : n.moon.restart = 0 := by rw [hm]; exact hr
  rw [Mach.event_of_moon_runs hmoon]
  refine ⟨⟨?_, hc⟩, _, Ras.head?_ring_log _ _, rfl⟩
  rw [hm]
  rfl

theorem queueLost_congr {g : Chan → Chan} (hfg : f (m.chan key) = g (m.chan key)) (h : QueueLost key f m n) : QueueLost key g m n :=
  ⟨onlyChan_congr hfg h.1, h.2⟩

theorem queueLost_modChan (h : QueueLost key f m n) (g : Chan → Chan) : QueueLost key (g ∘ f) m (n.modChan key g) :=
  ⟨onlyChan_modChan h.1 g, h.2⟩

/-- The first command of an inbound queue that begins with a whole command. -/
theorem headD_cutCmds_append {k : Nat} {w : List Word} (l : List Word) (hw : w.length = hdrLen (w.headD 0) + 1) :
    (cutCmds (k + 1) (w ++ l)).headD [] = w := by
  cases w with
  | nil => cases hw
  | cons h params =>
    have hlen : hdrLen h = params.length := (Nat.succ.inj hw).symm
    simp [cutCmds, hlen]

/-- The channel without the first command of its inbound queue, as an error in that command leaves it (R347). -/
def Chan.loseFront (c : Chan) : Chan :=
  let front := (cutCmds 17 c.inq).headD []
  { c with inq := c.inq.drop front.length, need := if front.length = c.inq.length then 0 else c.need, abandoned := true }

theorem Chan.loseFront_of_append {c : Chan} {w l : List Word} (hq : c.inq = w ++ l) (hw : w.length = hdrLen (w.headD 0) + 1)
    (hneed : l = [] → c.need = 0) : c.loseFront = { c with inq := l, abandoned := true } := by
  have hkept : (if w.length = (w ++ l).length then 0 else c.need) = c.need := by
    split
    · rename_i hlen
      rw [hneed (by simpa using hlen)]
    · rfl
  unfold Chan.loseFront
  dsimp only
  rw [hq, headD_cutCmds_append l hw, List.drop_left, hkept]

/-- The reply to a command whose parameters were lost names no launch. -/
theorem reply_without_params (op tag status detail : Nat) :
    reply ⟨op, tag, [], 0, 0, false⟩ status detail [] =
      { opcode := op, tag := tag, status := status, detail := detail, result := [], seq := 0, ptr := 0, pmode := false, written := false } := by
  have hnum : (if op = 0x0502 then fieldAt [] 0 4 else 0) = 0 := ite_self 0
  simp only [reply, hnum]

/-! Before a response is posted. -/

theorem Mach.serviceWdog_of_moon_runs (h : m.moon.restart = 0) : m.serviceWdog = m.modMoon (fun a => { a with wdog := m.now }) := if_pos h

@[simp] theorem Mach.serviceWdog_host (m : Mach) : m.serviceWdog.host = m.host := by
  unfold Mach.serviceWdog
  split <;> rfl

@[simp] theorem Mach.chan_serviceWdog (m : Mach) (k : Nat) : m.serviceWdog.chan k = m.chan k := by rw [Mach.chan, m.serviceWdog_host, Mach.chan]

theorem Mach.peek_of_empty (hi : (m.chan key).inq = []) (hd : (m.chan key).dbq = []) : m.peek key = .none := by
  unfold Mach.peek
  simp [hi, hd, cutCmds]

/-- No stray command waits in a channel without a command. -/
theorem Mach.answerStray_of_empty {fn : Fn} {ch : Nat} (hi : (m.chan (chanKey fn ch)).inq = []) (hd : (m.chan (chanKey fn ch)).dbq = []) :
    m.answerStray fn ch = m := by
  unfold Mach.answerStray
  simp [Mach.peek_of_empty hi hd]

/-! How the oldest held response is posted. -/

theorem Mach.postReply_of_full (hh : (m.chan key).held = r :: rest) (hq : r.pmode = false)
    (hfull : 16 < (m.chan key).outq.length + (qWords r).length) : m.postReply key = m := by
  unfold Mach.postReply
  simp [hh, hq, Nat.not_le.mpr hfull]

theorem Mach.postReply_of_room (hh : (m.chan key).held = r :: rest) (hq : r.pmode = false)
    (hroom : (m.chan key).outq.length + (qWords r).length ≤ 16) :
    m.postReply key =
      let t := (m.posted key r).modChan key (fun c => { c with held := rest, outq := c.outq ++ qWords r })
      if (m.chan key).outq.isEmpty && (m.chan key).irqEn then t.raiseMbx key else t := by
  unfold Mach.postReply
  simp [hh, hq, hroom]

theorem Mach.postReply_of_notice_room (hh : (m.chan key).held = r :: rest) (hp : r.pmode = true) (hw : r.written = true)
    (hu : r.unread = false) (hroom : (m.chan key).notices.length < 8) :
    m.postReply key =
      let t := (m.posted key r).modChan key (fun c => { c with held := rest, notices := c.notices ++ [noticeWord r] })
      if (m.chan key).notices.isEmpty && (m.chan key).irqEn then t.raiseMbx key else t := by
  unfold Mach.postReply
  simp [hh, hp, hw, hu, Mach.readTag, Nat.not_le.mpr hroom]

theorem Mach.postReply_of_notices_full (hh : (m.chan key).held = r :: rest) (hp : r.pmode = true) (hw : r.written = false)
    (hu : r.unread = false) (hfull : 8 ≤ (m.chan key).notices.length) (hn : m.writeBlock (keySpace key) r = .ok n) :
    m.postReply key = n.modChan key (fun c => { c with held := { r with written := true } :: rest }) := by
  unfold Mach.postReply
  simp [hh, hp, hw, hu, Mach.readTag, hfull, hn]

/-! What posting leaves alone. -/

theorem Mach.posted_eq (m : Mach) (key : Nat) (r : Reply) : m.posted key r = { m with parts := (m.posted key r).parts } := by
  unfold Mach.posted
  split <;> rfl

/-- An end status that the response returned is kept no longer (R343). -/
theorem Mach.part_posted (m : Mach) (key : Nat) (r : Reply) (p : Nat) :
    (m.posted key r).part p = if p = keySpace key ∧ r.opcode = 0x0502 ∧ r.result ≠ [] then
        { m.part p with ends := match (m.part p).ends.find? (fun e => e.num == r.num) with
                                | some e => (m.part p).ends.erase e | none => (m.part p).ends }
      else m.part p := by
  unfold Mach.posted
  by_cases hend : r.opcode = 0x0502 ∧ r.result ≠ []
  · rw [if_pos (by simpa using hend), Mach.part_modPart]
    by_cases hp : p = keySpace key
    · rw [if_pos hp, if_pos ⟨hp, hend⟩, hp]
      generalize List.find? _ (m.part (keySpace key)).ends = found
      cases found <;> rfl
    · rw [if_neg hp, if_neg (fun h => hp h.1)]
  · rw [if_neg (by simpa using hend), if_neg (fun h => hend h.2)]

theorem onlyPosted_posted (hr : m.moon.restart = 0) (r : Reply) (f : Chan → Chan) :
    OnlyPosted key r f [] m ((m.serviceWdog.posted key r).modChan key f) := by
  have hpart := Mach.part_posted m.serviceWdog key r
  have heq := Mach.posted_eq m.serviceWdog key r
  rw [Mach.serviceWdog_of_moon_runs hr] at hpart heq ⊢
  generalize Mach.posted _ key r = x at hpart heq ⊢
  have hchan (k : Nat) : x.chan k = m.chan k := by rw [heq]; rfl
  refine ⟨⟨?_, fun k => ?_⟩, ?_, hpart⟩
  · rw [heq]; rfl
  · refine (Mach.chan_modChan x key k f).trans ?_
    rw [hchan, hchan]
    by_cases hk : k = key <;> simp [hk]
  · rw [Mach.modChan_moon, heq]; rfl

theorem onlyPosted_emit (h : OnlyPosted key r f sent m n) (o : Output) : OnlyPosted key r f (o :: sent) m (n.emit o) := by
  obtain ⟨⟨hm, hc⟩, hmoon, hpart⟩ := h
  exact ⟨⟨congrArg (fun (x : Mach) => { x with out := o :: x.out }) hm, hc⟩, hmoon, hpart⟩

theorem onlyPosted_congr {g : Chan → Chan} (hfg : f (m.chan key) = g (m.chan key)) (h : OnlyPosted key r f sent m n) :
    OnlyPosted key r g sent m n :=
  ⟨onlyChan_congr hfg h.1, h.2⟩

theorem links_of_onlyPosted (h : OnlyPosted key r f sent m n) : n.host.links = m.host.links :=
  (congrArg (fun (x : Mach) => x.host.links) h.1.1 :)

theorem fns_of_onlyPosted (h : OnlyPosted key r f sent m n) : n.host.fns = m.host.fns :=
  (congrArg (fun (x : Mach) => x.host.fns) h.1.1 :)

/-! The forms of posting, each after the service of the watchdog. -/

theorem onlyPosted_response (hr : m.moon.restart = 0) (hh : (m.chan key).held = r :: rest) (hq : r.pmode = false)
    (hroom : (m.chan key).outq.length + (qWords r).length ≤ 16) (hquiet : (m.chan key).outq ≠ [] ∨ (m.chan key).irqEn = false) :
    OnlyPosted key r (fun c => { c with held := rest, outq := c.outq ++ qWords r }) [] m (m.serviceWdog.postReply key) := by
  rw [Mach.postReply_of_room (by simpa using hh) hq (by simpa using hroom), Mach.chan_serviceWdog]
  dsimp only
  rw [if_neg (by simpa [Decidable.or_iff_not_imp_left] using hquiet)]
  exact onlyPosted_posted hr r _

theorem onlyPosted_notice (hr : m.moon.restart = 0) (hh : (m.chan key).held = r :: rest) (hp : r.pmode = true) (hw : r.written = true)
    (hu : r.unread = false) (hroom : (m.chan key).notices.length < 8) (hquiet : (m.chan key).notices ≠ [] ∨ (m.chan key).irqEn = false) :
    OnlyPosted key r (fun c => { c with held := rest, notices := c.notices ++ [noticeWord r] }) [] m (m.serviceWdog.postReply key) := by
  rw [Mach.postReply_of_notice_room (by simpa using hh) hp hw hu (by simpa using hroom), Mach.chan_serviceWdog]
  dsimp only
  rw [if_neg (by simpa [Decidable.or_iff_not_imp_left] using hquiet)]
  exact onlyPosted_posted hr r _

/-- A mailbox event of the physical function of link 0 sends its vector 0, where nothing masks it (R307, R323). -/
theorem Mach.raiseMbx_of_pf0 (hk : key < 8) (hl : (m.hlink 0).up = true) (hen : (m.fnSt 0).msixEn = true) (hmask : (m.fnSt 0).msixMask = false)
    (hd : (m.fnSt 0).d3hot = false) {e : MsixEntry} (he : tget (⟨0, 0, true⟩ : MsixEntry) (m.fnSt 0).table 0 = e) (hem : e.masked = false) :
    m.raiseMbx key = m.emit (.msix 0 0 e.addr e.data) := by
  have hpf : key / 8 = 0 := Nat.div_eq_of_lt hk
  unfold Mach.raiseMbx Mach.sendMsix
  simp only [hpf, he]
  simp [hl, hen, hmask, hd, hem]

theorem onlyPosted_response_vector (hr : m.moon.restart = 0) (hh : (m.chan key).held = r :: rest) (hq : r.pmode = false)
    (hroom : (qWords r).length ≤ 16) (hempty : (m.chan key).outq = []) (hirq : (m.chan key).irqEn = true) (hk : key < 8)
    (hl : (m.hlink 0).up = true) (hen : (m.fnSt 0).msixEn = true) (hmask : (m.fnSt 0).msixMask = false) (hd : (m.fnSt 0).d3hot = false)
    {e : MsixEntry} (he : tget (⟨0, 0, true⟩ : MsixEntry) (m.fnSt 0).table 0 = e) (hem : e.masked = false) :
    OnlyPosted key r (fun c => { c with held := rest, outq := qWords r }) [.msix 0 0 e.addr e.data] m (m.serviceWdog.postReply key) := by
  have ht := onlyPosted_posted (key := key) hr r (fun c => { c with held := rest, outq := c.outq ++ qWords r })
  rw [Mach.postReply_of_room (by simpa using hh) hq (by simpa [hempty] using hroom), Mach.chan_serviceWdog]
  dsimp only
  generalize Mach.modChan _ key _ = t at ht ⊢
  have hlink : t.hlink 0 = m.hlink 0 := by rw [Mach.hlink, links_of_onlyPosted ht, Mach.hlink]
  have hfn : t.fnSt 0 = m.fnSt 0 := by rw [Mach.fnSt, fns_of_onlyPosted ht, Mach.fnSt]
  rw [← hlink] at hl
  rw [← hfn] at hen hmask hd he
  rw [if_pos (by simp [hempty, hirq]), Mach.raiseMbx_of_pf0 hk hl hen hmask hd he hem]
  exact onlyPosted_congr (by rw [hempty, List.nil_append]) (onlyPosted_emit ht _)

theorem leBytes_statusWord (code detail : Nat) :
    leBytes 8 (statusWord code detail).toNat = statusBytes (code % 65536 + 65536 * (detail % 65536)) := by
  have hlt : code % 65536 + 65536 * (detail % 65536) < 2 ^ 64 := by omega
  rw [statusBytes, statusWord, BitVec.toNat_ofNat, Nat.mod_eq_of_lt hlt]

/-- Moon completes a block by four writes: the results, RESULT_LEN, STATUS and DONE (R330). -/
theorem Mach.writeBlock_ok {space : Nat} {m1 m2 m3 m4 : Mach} (hhw : r.hw = false) (hst : r.status ≠ 3)
    (h1 : m.vwrite space (r.ptr + 64) r.result = .ok m1) (h2 : m1.vwrite space (r.ptr + 16) (leBytes 4 r.result.length) = .ok m2)
    (h3 : m2.vwrite space (r.ptr + 8) (statusBytes (r.status % 65536 + 65536 * (r.detail % 65536))) = .ok m3)
    (h4 : m3.vwrite space (r.ptr + 20) (leBytes 4 1) = .ok m4) : m.writeBlock space r = .ok m4 := by
  rw [← leBytes_statusWord] at h3
  simp [Mach.writeBlock, hhw, stInvalid, hst, h1, h2, h3, h4]

end

/-! The two commands. -/

section
variable {fn : Fn} {ch : Nat} {s : State}

theorem mailboxQueueError_header (hok : chanOk fn ch = true) (hr : s.m.moon.restart = 0)
    (hmode : (s.m.chan (chanKey fn ch)).mode = false) (hne : (s.m.chan (chanKey fn ch)).inq ≠ []) :
    Does (.mailboxQueueError fn ch .header) s (QueueLost (chanKey fn ch) Chan.loseFront s.m) :=
  does_of_run (exec_mailboxQueueError ..) ((if_neg (by simp [hok])).trans (gate_of_due (by simp [hmode, hne])))
    (queueLost_event (onlyChan_setChan rfl) hr)

theorem mailboxQueueError_params (hok : chanOk fn ch = true) (hr : s.m.moon.restart = 0)
    (hmode : (s.m.chan (chanKey fn ch)).mode = false) {w : List Word} (hw : (cutCmds 17 (s.m.chan (chanKey fn ch)).inq).headD [] = w)
    (hlen : 1 < w.length) :
    Does (.mailboxQueueError fn ch .params) s (QueueLost (chanKey fn ch) ((fun c => { c with held := c.held ++
      [reply ⟨(w.headD 0).toNat / 65536, (w.headD 0).toNat / 256 % 256, [], 0, 0, false⟩ 3 0xFFFF []] }) ∘ Chan.loseFront) s.m) := by
  subst hw
  rw [reply_without_params]
  exact does_of_run (exec_mailboxQueueError ..) ((if_neg (by simp [hok])).trans (gate_of_due (by simpa [hmode] using hlen)))
    (queueLost_modChan (queueLost_event (onlyChan_setChan rfl) hr) _)

theorem mailboxQueueError_doorbell (hok : chanOk fn ch = true) (hr : s.m.moon.restart = 0) (hne : (s.m.chan (chanKey fn ch)).dbq ≠ []) :
    Does (.mailboxQueueError fn ch .doorbell) s
      (QueueLost (chanKey fn ch) (fun c => { c with dbq := c.dbq.tail, abandoned := true }) s.m) :=
  does_of_run (exec_mailboxQueueError ..) ((if_neg (by simp [hok])).trans (gate_of_due (by simp [hne])))
    (queueLost_event (onlyChan_setChan (by rw [List.drop_one])) hr)

theorem mailboxQueueError_outbound (hok : chanOk fn ch = true) (hr : s.m.moon.restart = 0)
    (hne : (s.m.chan (chanKey fn ch)).outq ≠ [] ∨ (s.m.chan (chanKey fn ch)).notices ≠ []) :
    Does (.mailboxQueueError fn ch .outbound) s
      (QueueLost (chanKey fn ch) (fun c => { c with outq := [], notices := [], abandoned := true }) s.m) :=
  does_of_run (exec_mailboxQueueError ..)
    ((if_neg (by simp [hok])).trans (gate_of_due (by simpa [Decidable.or_iff_not_imp_left] using hne)))
    (queueLost_event (onlyChan_setChan rfl) hr)

/-- On a channel without a command, Moon services its watchdog and posts the oldest held response. -/
theorem moonResponsePosted_of_held {r : Reply} {rest : List Reply} {P : Mach → Prop} (hok : chanOk fn ch = true) (hr : s.m.moon.restart = 0)
    (hs : s.m.served = true) (hi : (s.m.chan (chanKey fn ch)).inq = []) (hd : (s.m.chan (chanKey fn ch)).dbq = [])
    (hh : (s.m.chan (chanKey fn ch)).held = r :: rest) (ha : r.activates = false)
    (hP : P (s.m.serviceWdog.postReply (chanKey fn ch))) : Does (.moonResponsePosted fn ch) s P := by
  refine does_of_run (exec_moonResponsePosted ..) ?_ hP
  simp [hok, hr, hs, Mach.answerStray_of_empty hi hd, Mach.postAndGo, hh, ha]

end

/-- Settles O27: a queue error acts on the channel and the records alone, and posting is the service of the watchdog and then one of the
forms of `postReply`; the writes that complete a block leave every channel alone. -/
theorem mailboxErrorsAndPosting : Obligations.MailboxErrorsAndPosting := by
  unfold Obligations.MailboxErrorsAndPosting
  intro fn ch s hok hr
  refine ⟨fun w l hmode hq hw hneed => ?_, mailboxQueueError_doorbell hok hr, mailboxQueueError_outbound hok hr,
    fun r rest hs hi hd hh ha => ?_⟩
  · have hlost := Chan.loseFront_of_append hq hw hneed
    have hhead : (cutCmds 17 (s.m.chan (chanKey fn ch)).inq).headD [] = w := by rw [hq]; exact headD_cutCmds_append l hw
    have hne : (s.m.chan (chanKey fn ch)).inq ≠ [] := by
      intro hnil
      rw [hnil] at hhead
      rw [← hhead] at hw
      cases hw
    exact ⟨does_mono (mailboxQueueError_header hok hr hmode hne) fun t => queueLost_congr hlost,
      fun hlen => does_mono (mailboxQueueError_params hok hr hmode hhead hlen) fun t => queueLost_congr (by rw [Function.comp, hlost])⟩
  · have posts {P : Mach → Prop} := moonResponsePosted_of_held (P := P) hok hr hs hi hd hh ha
    refine ⟨fun hq hfull => posts ?full, fun hq hroom hquiet => posts (onlyPosted_response hr hh hq hroom hquiet),
      fun hq hroom hempty hirq hfn hl hen hmask hd3 e he hem => posts ?vector,
      fun hp hw hu hroom hquiet => posts (onlyPosted_notice hr hh hp hw hu hroom hquiet),
      fun m1 m2 m3 m4 hp hw hu hhw hst hfull h1 h2 h3 h4 => posts ?block⟩
    case full =>
      rw [Mach.postReply_of_full (by simpa using hh) hq (by simpa using hfull)]
      exact Mach.serviceWdog_of_moon_runs hr
    case vector =>
      have hch : ch < 8 := by
        simp only [chanOk, Bool.and_eq_true, decide_eq_true_eq] at hok
        exact hok.2
      have hk : chanKey fn ch < 8 := by simpa [hfn, chanKey, fnKey] using hch
      exact onlyPosted_response_vector hr hh hq hroom hempty hirq hk hl hen hmask hd3 he.symm hem
    case block =>
      have hchans : m4.host.chans = s.m.host.chans := by
        rw [chans_of_vwrite_ok h4, chans_of_vwrite_ok h3, chans_of_vwrite_ok h2, chans_of_vwrite_ok h1, Mach.serviceWdog_host]
      have hchan : m4.chan (chanKey fn ch) = s.m.chan (chanKey fn ch) := by rw [Mach.chan, hchans, Mach.chan]
      rw [Mach.postReply_of_notices_full (by simpa using hh) hp hw hu (by simpa using hfull) (Mach.writeBlock_ok hhw hst h1 h2 h3 h4)]
      exact ⟨rfl, by rw [Mach.chan_modChan_same, hchan]⟩

end Sys2Proof.Machine
end

section
/-! PROOFS. Reads of the mailbox registers, tickets, and the incomplete command at the end of an inbound queue (R320, R325 to R328, R582). -/

namespace Sys2Proof.Machine
open Sys2Proof.Claims

theorem exec_mbxRxqRead (fn : Fn) (ch : Nat) (s : State) : exec (.mbxRxqRead fn ch) s = execMbxRxqRead fn ch s := rfl

theorem exec_mbxNoticeOutRead (fn : Fn) (ch : Nat) (half : RegHalf) (s : State) :
    exec (.mbxNoticeOutRead fn ch half) s = execMbxNoticeOutRead fn ch half s := rfl

theorem exec_mbxTicketRead (fn : Fn) (ch : Nat) (half : RegHalf) (s : State) :
    exec (.mbxTicketRead fn ch half) s = execMbxTicketRead fn ch half s := rfl

theorem exec_mbxTicketRelease (fn : Fn) (ch : Nat) (ticket : BitVec 16) (s : State) :
    exec (.mbxTicketRelease fn ch ticket) s = execMbxTicketRelease fn ch ticket s := rfl

theorem exec_overrunClear (fn : Fn) (ch : Nat) (s : State) : exec (.overrunClear fn ch) s = execOverrunClear fn ch s := rfl

theorem exec_ticketSkip (fn : Fn) (ch : Nat) (s : State) : exec (.ticketSkip fn ch) s = execTicketSkip fn ch s := rfl

theorem exec_abandoned (fn : Fn) (ch : Nat) (s : State) : exec (.abandoned fn ch) s = execAbandoned fn ch s := rfl

/-! The commands of an inbound queue. -/

/-- The first command of a queue is cut off where it is whole. -/
theorem cutCmds_append {k : Nat} {w : List Word} (l : List Word) (hw : w.length = hdrLen (w.headD 0) + 1) :
    cutCmds (k + 1) (w ++ l) = w :: cutCmds k l := by
  cases w with
  | nil => cases hw
  | cons h params =>
    have hlen : hdrLen h = params.length := (Nat.succ.inj hw).symm
    simp [cutCmds, hlen]

/-- Words that do not exceed one command are cut into that command alone. -/
theorem cutCmds_of_length_le {k : Nat} {part : List Word} (hne : part ≠ []) (hlen : part.length ≤ hdrLen (part.headD 0) + 1) :
    cutCmds (k + 1) part = [part] := by
  cases part with
  | nil => exact absurd rfl hne
  | cons h params =>
    have hparams : params.length ≤ hdrLen h := Nat.le_of_succ_le_succ hlen
    cases k <;> simp [cutCmds, List.take_of_length_le hparams, List.drop_eq_nil_of_le hparams]

/-- A queue of whole commands and one that is not complete is cut into these. -/
theorem cutCmds_flatten_append {k : Nat} {ws : List (List Word)} {part : List Word} (hws : ∀ w ∈ ws, w.length = hdrLen (w.headD 0) + 1)
    (hne : part ≠ []) (hlen : part.length ≤ hdrLen (part.headD 0) + 1) (hk : ws.length < k) :
    cutCmds k (ws.flatten ++ part) = ws ++ [part] := by
  induction ws generalizing k with
  | nil =>
    obtain ⟨k, rfl⟩ := Nat.exists_eq_add_one_of_ne_zero (Nat.ne_of_gt hk)
    exact cutCmds_of_length_le hne hlen
  | cons w ws ih =>
    obtain ⟨k, rfl⟩ := Nat.exists_eq_add_one_of_ne_zero (Nat.ne_of_gt (Nat.zero_lt_of_lt hk))
    rw [List.flatten_cons, List.append_assoc, cutCmds_append _ (hws w List.mem_cons_self),
      ih (fun x hx => hws x (List.mem_cons_of_mem w hx)) (Nat.lt_of_succ_lt_succ hk), List.cons_append]

/-- Every whole command has at least its header word. -/
theorem length_le_length_flatten {ws : List (List Word)} (hws : ∀ w ∈ ws, w.length = hdrLen (w.headD 0) + 1) :
    ws.length ≤ ws.flatten.length := by
  induction ws with
  | nil => exact Nat.le_refl _
  | cons w ws ih =>
    have hw := hws w List.mem_cons_self
    have hrest := ih fun x hx => hws x (List.mem_cons_of_mem w hx)
    rw [List.flatten_cons, List.length_append, List.length_cons]
    omega

/-- The model finds the whole commands and the incomplete one of a framed queue (R328). -/
theorem Chan.partial_of_framed {c : Chan} {ws : List (List Word)} {part : List Word} (h : framed c ws part) :
    c.partial_ = (ws.flatten, part) := by
  obtain ⟨hq, hroom, hws, hne, hlen, hneed⟩ := h
  have hcount := length_le_length_flatten hws
  rw [hq, List.length_append] at hroom
  have hcut : cutCmds 17 c.inq = ws ++ [part] := by
    rw [hq]
    exact cutCmds_flatten_append hws hne (by omega) (by omega)
  rw [Chan.partial_, if_neg hneed, hcut, List.dropLast_concat, hq]
  exact congrArg (Prod.mk _) List.drop_left

theorem Chan.dropPartial_of_framed {c : Chan} {ws : List (List Word)} {part : List Word} (h : framed c ws part) :
    c.dropPartial = { c with inq := ws.flatten, need := 0 } := by
  rw [Chan.dropPartial, Chan.partial_of_framed h]

theorem Chan.dropPartial_of_complete {c : Chan} (h : c.need = 0) : c.dropPartial = c := by
  rw [Chan.dropPartial, Chan.partial_, if_pos h, ← h]

/-! What a read or a write of a channel register changes. -/

section
variable {m n : Mach} {key : Nat} {f : Chan → Chan} {sent : List Output}

theorem onlyChan_refl (key : Nat) (m : Mach) : OnlyChan key id [] m m := ⟨rfl, fun _ => (ite_self _).symm⟩

theorem onlyChan_emit (h : OnlyChan key f sent m n) (o : Output) : OnlyChan key f (o :: sent) m (n.emit o) := by
  obtain ⟨hm, hc⟩ := h
  exact ⟨congrArg (fun (x : Mach) => { x with out := o :: x.out }) hm, hc⟩

/-- Taking a ticket advances NEXT; else at most the time from which R326 counts its 100 ms moves. -/
theorem onlyChan_takeTicket (key : Nat) (m : Mach) :
    OnlyChan key (fun c => { c with next := c.next + 1, servingTide := ((m.takeTicket key).chan key).servingTide }) [] m (m.takeTicket key) :=
  onlyChan_setChan (by rw [Mach.takeTicket, Mach.chan_modChan_same])

theorem onlyChan_release (key : Nat) (ticket : BitVec 16) (m : Mach) :
    OnlyChan key (fun c => if c.serving = ticket then { c with serving := c.serving + 1, servingTide := m.now } else c) [] m
      (m.release key ticket) :=
  onlyChan_setChan (by simp only [beq_iff_eq, Chan.advance])

/-- A write of 1 to OVERRUN alone keeps the other two bits (R319). -/
theorem onlyChan_writeStatus_overrun (h : (m.chan key).overrun = true) :
    OnlyChan key (fun c => { c.dropPartial with overrun := false }) [] m (m.writeStatus key (BitVec.ofNat 64 (2 ^ 32))) :=
  onlyChan_setChan (by simp [h])

end

/-! The commands. -/

section
variable {fn : Fn} {ch : Nat} {s : State}

/-- A read of a channel register whose BARs answer. -/
theorem does_of_readChan {i : Instr} {w : Nat} {f : Mach → Nat → Nat × Mach} {P : Mach → Prop} (hi : exec i s = readChan fn ch s w f)
    (hok : chanOk fn ch = true) (hg : s.m.barGate fn = .open_)
    (hP : P ((f s.m (chanKey fn ch)).2.emit (.readData (fnKey fn) (leBytes w (f s.m (chanKey fn ch)).1)))) : Does i s P :=
  does_of_run hi (by simp [hok, hg]) hP

/-- A write of a channel register whose BARs answer, with no posted write of its port before it. -/
theorem does_of_onChan {i : Instr} {o w : Nat} {v : DWord} {f : Mach → Nat → Mach} {P : Mach → Prop}
    (hi : exec i s = onChan fn ch s o w v f) (hok : chanOk fn ch = true) (hg : s.m.barGate fn = .open_) (hb : s.m.behind fn = false)
    (hP : P (f s.m (chanKey fn ch))) : Does i s P :=
  does_of_run hi (by simp [hok, hg, hb, gate, Mach.inPost]) hP

theorem mbxRxqRead_of_open (hok : chanOk fn ch = true) (hg : s.m.barGate fn = .open_) :
    Does (.mbxRxqRead fn ch) s (OnlyChan (chanKey fn ch) (fun c => { c with outq := c.outq.tail })
      [.readData (fnKey fn) (leBytes 4 ((s.m.chan (chanKey fn ch)).outq.headD 0).toNat)] s.m) :=
  does_of_readChan (exec_mbxRxqRead ..) hok hg (onlyChan_emit (onlyChan_setChan (by rw [List.drop_one])) _)

theorem mbxNoticeOutRead_whole_of_open (hok : chanOk fn ch = true) (hg : s.m.barGate fn = .open_) :
    Does (.mbxNoticeOutRead fn ch .whole) s (OnlyChan (chanKey fn ch) (fun c => { c with notices := c.notices.tail })
      [.readData (fnKey fn) (leBytes 8 ((s.m.chan (chanKey fn ch)).notices.headD 0).toNat)] s.m) :=
  does_of_readChan (exec_mbxNoticeOutRead ..) hok hg (onlyChan_emit (onlyChan_setChan (by rw [List.drop_one])) _)

theorem mbxNoticeOutRead_high_of_open (hok : chanOk fn ch = true) (hg : s.m.barGate fn = .open_) :
    Does (.mbxNoticeOutRead fn ch .high) s (OnlyChan (chanKey fn ch) (fun c => { c with notices := c.notices.tail })
      [.readData (fnKey fn) (leBytes 4 (((s.m.chan (chanKey fn ch)).notices.headD 0).toNat / 2 ^ 32))] s.m) :=
  does_of_readChan (exec_mbxNoticeOutRead ..) hok hg (onlyChan_emit (onlyChan_setChan (by rw [List.drop_one])) _)

theorem mbxNoticeOutRead_low_of_open (hok : chanOk fn ch = true) (hg : s.m.barGate fn = .open_) :
    Does (.mbxNoticeOutRead fn ch .low) s (OnlyChan (chanKey fn ch) id
      [.readData (fnKey fn) (leBytes 4 (((s.m.chan (chanKey fn ch)).notices.headD 0).toNat % 2 ^ 32))] s.m) :=
  does_of_readChan (exec_mbxNoticeOutRead ..) hok hg (onlyChan_emit (onlyChan_refl _ _) _)

theorem mbxTicketRead_takes_of_open (hok : chanOk fn ch = true) (hg : s.m.barGate fn = .open_) {half : RegHalf} (hh : half ≠ .high) :
    Does (.mbxTicketRead fn ch half) s (fun t => OnlyChan (chanKey fn ch)
      (fun c => { c with next := c.next + 1, servingTide := (t.chan (chanKey fn ch)).servingTide })
      [.readData (fnKey fn) (leBytes (if half = .whole then 8 else 4)
        ((s.m.chan (chanKey fn ch)).next.toNat + 65536 * (s.m.chan (chanKey fn ch)).serving.toNat))] s.m t) := by
  cases half with
  | high => exact absurd rfl hh
  | whole => exact does_of_readChan (exec_mbxTicketRead ..) hok hg (onlyChan_emit (onlyChan_takeTicket _ _) _)
  | low => exact does_of_readChan (exec_mbxTicketRead ..) hok hg (onlyChan_emit (onlyChan_takeTicket _ _) _)

theorem mbxTicketRead_high_of_open (hok : chanOk fn ch = true) (hg : s.m.barGate fn = .open_) :
    Does (.mbxTicketRead fn ch .high) s (OnlyChan (chanKey fn ch) id [.readData (fnKey fn) (leBytes 4 0)] s.m) :=
  does_of_readChan (exec_mbxTicketRead ..) hok hg (onlyChan_emit (onlyChan_refl _ _) _)

theorem mbxTicketRelease_of_open (hok : chanOk fn ch = true) (hg : s.m.barGate fn = .open_) (hb : s.m.behind fn = false)
    (ticket : BitVec 16) :
    Does (.mbxTicketRelease fn ch ticket) s (OnlyChan (chanKey fn ch) (fun c =>
      if c.serving = ticket then { c with serving := c.serving + 1, servingTide := s.m.now } else c) [] s.m) :=
  does_of_onChan (exec_mbxTicketRelease ..) hok hg hb (onlyChan_release _ ticket _)

theorem ticketSkip_of_due (hok : chanOk fn ch = true) (hne : (s.m.chan (chanKey fn ch)).next ≠ (s.m.chan (chanKey fn ch)).serving)
    (hdue : (s.m.chan (chanKey fn ch)).servingTide + 100000000 ≤ s.m.now) :
    Does (.ticketSkip fn ch) s (OnlyChan (chanKey fn ch)
      (fun c => { c with serving := c.serving + 1, servingTide := s.m.now, ticketSkip := true }) [] s.m) :=
  have hgate := Bool.and_eq_true_iff.mpr ⟨bne_iff_ne.mpr hne, decide_eq_true hdue⟩
  does_of_run (exec_ticketSkip ..) ((if_neg (by simp [hok])).trans (gate_of_due hgate)) (onlyChan_setChan rfl)

/-- Clearing OVERRUN drops the words of an incomplete command. -/
theorem overrunClear_of_overrun (hok : chanOk fn ch = true) (hg : s.m.barGate fn = .open_) (hb : s.m.behind fn = false)
    (ho : (s.m.chan (chanKey fn ch)).overrun = true) :
    Does (.overrunClear fn ch) s (OnlyChan (chanKey fn ch) (fun c => { c.dropPartial with overrun := false }) [] s.m) :=
  does_of_onChan (exec_overrunClear ..) hok hg hb (onlyChan_writeStatus_overrun ho)

/-- An incomplete command is abandoned 10 ms after its header: its words are dropped and it is answered INVALID. -/
theorem abandoned_of_framed {ws : List (List Word)} {part : List Word} (hok : chanOk fn ch = true)
    (hf : framed (s.m.chan (chanKey fn ch)) ws part) (hdue : (s.m.chan (chanKey fn ch)).headerTide + 10000000 ≤ s.m.now) :
    Does (.abandoned fn ch) s (OnlyChan (chanKey fn ch) (fun c =>
      { c with abandoned := true, inq := ws.flatten, need := 0,
               held := c.held ++ [reply ⟨(part.headD 0).toNat / 65536, (part.headD 0).toNat / 256 % 256, [], 0, 0, false⟩ 3 0xFFFF []] })
      [] s.m) := by
  obtain ⟨-, -, -, -, -, hneed⟩ := id hf
  have hgate := Bool.and_eq_true_iff.mpr ⟨bne_iff_ne.mpr hneed, decide_eq_true hdue⟩
  refine does_of_run (exec_abandoned ..) ((if_neg (by simp [hok])).trans (gate_of_due hgate)) ?_
  refine onlyChan_congr ?_ (onlyChan_modChan (onlyChan_setChan (f := fun c => { c.dropPartial with abandoned := true }) rfl) _)
  rw [Function.comp, Chan.dropPartial_of_framed hf, Chan.partial_of_framed hf, reply_without_params]
  rfl

end

/-- Settles O25: a read sends the register's value and removes what it covers; a turn passes by one advance of SERVING; and the model cuts a
framed queue into its whole commands and the incomplete one, whose words are those dropped. -/
theorem mailboxReadsAndTurns : Obligations.MailboxReadsAndTurns := by
  unfold Obligations.MailboxReadsAndTurns
  refine ⟨fun fn ch s hok hg => ?reads, fun fn ch s hok => ?turns⟩
  case reads =>
    exact ⟨mbxRxqRead_of_open hok hg, mbxNoticeOutRead_whole_of_open hok hg, mbxNoticeOutRead_high_of_open hok hg,
      mbxNoticeOutRead_low_of_open hok hg, fun half hh => mbxTicketRead_takes_of_open hok hg hh, mbxTicketRead_high_of_open hok hg⟩
  case turns =>
    have clears hg hb ho := overrunClear_of_overrun (s := s) hok hg hb ho
    refine ⟨mbxTicketRelease_of_open hok, ticketSkip_of_due hok,
      fun hg hb ho hneed => does_mono (clears hg hb ho) fun t => onlyChan_congr ?complete,
      fun ws part hf => ⟨fun hg hb ho => does_mono (clears hg hb ho) fun t => onlyChan_congr ?incomplete, abandoned_of_framed hok hf⟩⟩
    case complete => rw [Chan.dropPartial_of_complete hneed]
    case incomplete => rw [Chan.dropPartial_of_framed hf]

end Sys2Proof.Machine
end
